-- ==== Sys2Proof/Word.lean ====
section
/-!
DEFINITION. The word types of the machine and the plainest arithmetic on them.
-/
namespace Sys2Proof

/-- A 64-bit register value (10_state.md R22). -/
abbrev Word := BitVec 64

/-- A byte of memory (20_memory.md R140). -/
abbrev Byte := BitVec 8

/-- A 41-bit instruction slot (30_encoding.md R301). -/
abbrev Slot := BitVec 41

/-- A floating-point register, 82 bits (10_state.md R28). -/
abbrev FWord := BitVec 82

/-- A page, address or count as a power of two. -/
def pow2 (n : Nat) : Nat := 2 ^ n

end Sys2Proof
end

