-- ==== Sys2Proof/Config.lean ====
section
/-!
DEFINITION. What an implementation fixes (93_implementation_defined.md, 00_scope.md R8) and the free values
of the model. Every constant without a body is opaque: nothing in Lean can evaluate it or prove a value of it.
Each parameter with a bound is a raw opaque number brought inside the bound the spec states.
Log entry 5 (parameters) and log entry 6 (free values).
-/
namespace Sys2Proof
namespace Config

/-- HAS_PSR_VM: whether PSR.vm is implemented (10_state.md R60). -/
opaque hasPsrVm : Bool
/-- VMSW_ENABLED (40_psr_instructions.md R347). -/
opaque vmswEnabled : Bool
/-- HAS_VHPT_WALKER (21_memory_translation.md R268). -/
opaque hasVhptWalker : Bool
/-- VRN_MATCHING (21_memory_translation.md R229). -/
opaque vrnMatching : Bool
/-- TC_UNIFIED (21_memory_translation.md R228). -/
opaque tcUnified : Bool
/-- ITIR_CHECK_AT_MOV (11_state_control_registers.md R115). -/
opaque itirCheckAtMov : Bool
/-- IFA_CHECK_AT_MOV (11_state_control_registers.md R114). -/
opaque ifaCheckAtMov : Bool
/-- Whether ITIR{63:32} and ITIR{31:8} are ignored when a not-present entry is inserted (21_memory_translation.md R233). -/
opaque itirIgnoredIfNotPresent : Bool
/-- Whether ITIR's rv/ci fields read as zeros (11_state_control_registers.md R115). -/
opaque itirReservedReadsZero : Bool
/-- IIP_UNIMPL_FORM: true when IIP gets the truncated address (11_state_control_registers.md R112). -/
opaque iipUnimplTruncated : Bool
/-- Whether an rfi that traps leaves IIP unchanged (11_state_control_registers.md R112, R113). -/
opaque rfiLeavesIip : Bool
/-- UNIMPL_IA_AS_TRAP, for sequential flow (20_memory.md R158, D17). -/
opaque uiaAsTrap : Bool
/-- SUPPORTS_UCE (43_memory_instructions.md R452). -/
opaque supportsUce : Bool
/-- SUPPORTS_LDFE_UNCACHED (20_memory.md R206). -/
opaque supportsLdfeUncached : Bool
/-- PSR_AC0_MISALIGNED_FAULTS, by address and size (20_memory.md R143, D14). -/
opaque ac0MisalignedFaults : Word → Nat → Bool
/-- Whether a failing chk.a or chk.s branches (true) or raises a Speculative Operation fault (43_memory_instructions.md R444,
R445). -/
opaque chkBranches : Bool
opaque chkACodeRaw : Nat
/-- ISR.code of a failing chk.a: it tells chk.a from chk.s, whose code is 0, and its number is not given
(43_memory_instructions.md R444, 60_exceptions.md R502; log entry 32). -/
def chkACode : BitVec 16 := BitVec.ofNat 16 (1 + chkACodeRaw % 65535)
/-- Whether an implementation writes IHA on an Alternate TLB miss (60_exceptions.md R501). -/
opaque altMissWritesIha : Bool
/-- Whether a purge of an unimplemented page size raises Reserved Register/Field: 93_implementation_defined.md section 3 says so,
42_translation_instructions.md R391 and 21_memory_translation.md R246 give other outcomes (log entry 52). -/
opaque purgeSizeFaults : Bool
/-- What thash computes from PTA, the region register and the address where there is no walker
(42_translation_instructions.md R398; log entry 29). -/
opaque hashWithoutWalker : Word → Word → Word → Word
/-- Whether the platform has the attributes a processor may have beside WB, UC and NaTPage: true is WC, false is UCE
(20_memory.md R162, 70_reset_and_hazards.md R562, 13; log entry 56). -/
opaque platformHas : Bool → Bool
/-- How many boundaries a deliverable interrupt may wait: the latency is finite (60_exceptions.md R514; log entry 19). -/
opaque maxLatency : Nat
/-- How often the translation inserted last may be lost before it is used (21_memory_translation.md R226; log entry 30). -/
opaque maxTcLoss : Nat

opaque implVaMsbRaw : Nat
/-- IMPL_VA_MSB, 50 to 60, at least 51 with PSR.vm (20_memory.md R153, R155). -/
def implVaMsb : Nat := if hasPsrVm then 51 + implVaMsbRaw % 10 else 50 + implVaMsbRaw % 11

opaque implPaMsbRaw : Nat
/-- IMPL_PA_MSB, 31 to 62 (20_memory.md R150). -/
def implPaMsb : Nat := 31 + implPaMsbRaw % 32

opaque numItrRaw : Nat
/-- NUM_ITR, 8 to 256 (21_memory_translation.md R222). -/
def numItr : Nat := 8 + numItrRaw % 249

opaque numDtrRaw : Nat
/-- NUM_DTR, 8 to 256 (21_memory_translation.md R222). -/
def numDtr : Nat := 8 + numDtrRaw % 249

opaque numItcEntriesRaw : Nat
/-- NUM_ITC_ENTRIES, at least 1 (21_memory_translation.md R225, 00_scope.md R8). -/
def numItcEntries : Nat := 1 + numItcEntriesRaw

opaque numDtcEntriesRaw : Nat
/-- NUM_DTC_ENTRIES, at least 1 (21_memory_translation.md R225, 00_scope.md R8). -/
def numDtcEntries : Nat := 1 + numDtcEntriesRaw

opaque ridBitsRaw : Nat
/-- RID_BITS, 18 to 24 (21_memory_translation.md R243). -/
def ridBits : Nat := 18 + ridBitsRaw % 7

opaque keyBitsRaw : Nat
/-- KEY_BITS, RID_BITS to 24 (21_memory_translation.md R249). -/
def keyBits : Nat := ridBits + keyBitsRaw % (25 - ridBits)

opaque numPkrRaw : Nat
/-- NUM_PKR, 16 to 256 (21_memory_translation.md R249). -/
def numPkr : Nat := 16 + numPkrRaw % 241

opaque numDbrRaw : Nat
/-- The number of data breakpoint registers, twice at least 4 pairs (10_state.md R63). -/
def numDbr : Nat := 8 + 2 * (numDbrRaw % 125)

opaque numIbrRaw : Nat
/-- The number of instruction breakpoint registers (10_state.md R63). -/
def numIbr : Nat := 8 + 2 * (numIbrRaw % 125)

opaque numPmRaw : Nat
/-- The number of PMC and of PMD registers, at least 4 generic pairs above the four fixed ones
(10_state.md R63; the total is the implementation's). -/
def numPm : Nat := 8 + numPmRaw % 249

opaque numCpuidRaw : Nat
/-- The number of CPUID registers (10_state.md R34). -/
def numCpuid : Nat := 1 + numCpuidRaw % 256
/-- The contents of the CPUID registers, a parameter array (41_cr_and_serialization_instructions.md R370). -/
opaque cpuid : Nat → Word

/-- Insertable page sizes beyond the ten every processor supports (21_memory_translation.md R245). -/
opaque extraInsertable : Nat → Bool
/-- Purgeable page sizes beyond the eleven every processor supports (21_memory_translation.md R245). -/
opaque extraPurgeable : Nat → Bool
/-- The insertable page sizes the walker supports, VHPT_WALKER_PAGE_SIZES (21_memory_translation.md R275). -/
opaque walkerPageSizeRaw : Nat → Bool

/-- The reversible part of the long-format hash and tag: a permutation of the hash page number (49 bits) with the region
identifier (24 bits) into a tag (63 bits) with the low 10 bits of the hash index (21_memory_translation.md R266). -/
opaque vhptPerm : Equiv.Perm (BitVec 73)
/-- The bits of the hash index above the ten that every table size keeps (21_memory_translation.md R266). -/
opaque hashHigh : Nat → Nat → Nat

/-- The permutation's image of a hash page number and a region identifier. -/
def vhptMix (hpn rid : Nat) : BitVec 73 := vhptPerm (BitVec.ofNat 49 hpn ++ BitVec.ofNat 24 rid)
/-- tlb_vhpt_hash_long of the hash page number and the region identifier (21_memory_translation.md R266). -/
def hashLong (hpn rid : Nat) : Nat := ((vhptMix hpn rid).extractLsb' 0 10).toNat + 1024 * hashHigh hpn rid
/-- The low 63 bits of tlb_vhpt_tag: bit 63 of every tag is 0 (21_memory_translation.md R266). -/
def tagLong (hpn rid : Nat) : BitVec 63 := (vhptMix hpn rid).extractLsb' 10 63

/-- Whether a data reference (address, size, read, write, privilege level) matches the data breakpoint
registers. The register formats are lost (91_not_in_source.md N20), so the match is uninterpreted (log entry 25). -/
opaque dataBreak : List Word → Word → Nat → Bool → Bool → BitVec 2 → Bool
/-- Whether an instruction fetch (address, privilege level) matches the instruction breakpoint registers (log entry 25). -/
opaque instrBreak : List Word → Word → BitVec 2 → Bool

/-- The floating-point memory formats (43_memory_instructions.md R455). -/
inductive FpFormat where
  | single | double | int8 | extended | spill
  deriving DecidableEq, Repr

/-- The register value of a memory datum: the formats are Volume 1 (10_state.md R28; log entry 27). -/
opaque fpFromMem : FpFormat → Nat → BitVec 82
/-- The memory datum of a register value (log entry 27). -/
opaque fpToMem : FpFormat → BitVec 82 → Nat
/-- The register image of +0.0, FR0 (10_state.md R28). -/
opaque frZero : BitVec 82
/-- The register image of +1.0, FR1 (10_state.md R28). -/
opaque frOne : BitVec 82
/-- NaTVal (10_state.md R28). -/
opaque natVal : BitVec 82

/-- The places of the model that take a free value. -/
inductive Site where
  /-- which in-flight value of a resource a data-side consumer sees (70_reset_and_hazards.md R556): the first number tells the
  reads of one step apart, the second names the bit or register -/
  | psrBit (u b : Nat) | cr (u n : Nat) | rr (u n : Nat) | pkr (u n : Nat) | dbr (u n : Nat) | tlb (u : Nat)
  | itc (u : Nat) | inService (u : Nat)
  /-- the same for the fetch consumer -/
  | fPsrBit (u b : Nat) | fCr (u n : Nat) | fRr (u n : Nat) | fPkr (u n : Nat) | fIbr (u n : Nat) | fTlb (u : Nat)
  /-- the stale byte that a fetch returns at an address -/
  | fetchByte (a : Nat)
  /-- register contents an interruption leaves undefined -/
  | undefIfs | undefIfa | undefItir | undefIim | undefIha | undefCode
  /-- CR16 to CR25 and bank-0 GR24 to GR31 while PSR.ic is 1 -/
  | volatileCr (n : Nat) | volatileGr (n : Nat) | volatileNat (n : Nat)
  /-- the walker aborts a search; walks by itself, for an address; inserts into which side -/
  | walkAbort | walkSelf | walkVa | walkSide
  /-- TC and ALAT entries the processor drops -/
  | evictI (n : Nat) | evictD (n : Nat) | evictAlat (n : Nat) | replaceTc
  /-- over-purge, under-purge and "may purge" of TLB entries -/
  | overPurge (n : Nat) | underPurge (n : Nat) | mayPurge (n : Nat) | mayMca | mayInsert
  /-- a lower-priority fault after a deferred one may be delivered; a check load that hits still raises its faults -/
  | laterFault (n : Nat) | checkHit
  /-- values with no stated result -/
  | natValue | unpopulatedHigh | thashValue | spillValue | uceReply | uceStore | beHigh | beLow | inta | unpopulated
  /-- how far the interval timer counts in a step -/
  | itcStep
  /-- a corrected machine check is signalled; a performance monitor overflows; what a monitor reads after it has counted -/
  | corrected | pmOverflow | pmValue (n : Nat)
  /-- whether a deliverable interrupt is taken at this boundary; whether a privilege change is seen early -/
  | takeInterrupt | epcEarly
  deriving DecidableEq, Repr

/-- Free natural numbers, by place and by the free-value counter (log entry 6). -/
opaque freeNat : Site → Nat → Nat
/-- Free words (log entry 6). -/
opaque freeWord : Site → Nat → BitVec 64
/-- Free bits (log entry 6). -/
opaque freeBit : Site → Nat → Bool

end Config
end Sys2Proof
end

