-- ==== Sys2Proof/Syntax.lean ====
section
/-!
DEFINITION. The instructions: one constructor per row of spec/opcode_table.json, in the table's order. The
qualifying predicate comes first (30_encoding.md R317), then the operands by the names of R302.
-/
namespace Sys2Proof

/-- The completers of the integer loads, x6{5:2} of 30_encoding.md R312. -/
inductive LoadFlavour where
  | plain | s | a | sa | bias | acq | cClr | cNc | cClrAcq
  deriving DecidableEq, Repr

/-- The memory formats of the single floating-point loads and stores (20_memory.md R142). -/
inductive FpFmt where
  | single | double | int8 | extended
  deriving DecidableEq, Repr

/-- The formats of the pair loads ldfps, ldfpd, ldfp8 (20_memory.md R142). -/
inductive PairFmt where
  | single | double | int8
  deriving DecidableEq, Repr

/-- The speculative and check completers of a floating-point load (43_memory_instructions.md R455). -/
inductive FpSpec where
  | s | a | sa | cClr | cNc
  deriving DecidableEq, Repr

/-- A floating-point load completer or none. -/
inductive FpFlavour where
  | plain | s | a | sa | cClr | cNc
  deriving DecidableEq, Repr

/-- What a base-update form does before its update (43_memory_instructions.md R423); `size` is log2 of the bytes. -/
inductive UpdOp where
  | load (size : BitVec 2) (flav : LoadFlavour) (r1 : BitVec 7)
  | fill (r1 : BitVec 7)
  | store (size : BitVec 2) (rel : Bool) (r2 : BitVec 7)
  | spill (r2 : BitVec 7)
  | lfetch (fault excl : Bool)
  | fpLoad (fmt : FpFmt) (flav : FpFlavour) (f1 : BitVec 7)
  | fpFill (f1 : BitVec 7)
  | fpStore (fmt : FpFmt) (f2 : BitVec 7)
  | fpSpill (f2 : BitVec 7)
  | fpPair (fmt : PairFmt) (flav : FpFlavour) (f1 f2 : BitVec 7)
  deriving DecidableEq, Repr

/-- The base update: by a register, by an immediate, or by the size of a pair load (43_memory_instructions.md R423). -/
inductive Upd where
  | reg (r2 : BitVec 7)
  | imm (imm9 : BitVec 9)
  | size
  deriving DecidableEq, Repr

/-- break.f and break.x (41_cr_and_serialization_instructions.md R377). -/
inductive BreakForm where
  | f (imm : BitVec 21)
  | x (imm : BitVec 62)
  deriving DecidableEq, Repr

/-- The I-unit application-register moves (41_cr_and_serialization_instructions.md R373). -/
inductive MovIForm where
  | toAr (ar3 r2 : BitVec 7)
  | fromAr (r1 ar3 : BitVec 7)
  | toArImm (ar3 : BitVec 7) (imm : BitVec 8)
  deriving DecidableEq, Repr

/-- The branches of one row of the table: IP-relative branches, br.call, the loop branches, brp. The displacement
counts bundles; p, wh, d are hints (30_encoding.md R311, R316). -/
inductive BrRelForm where
  | cond (qp : BitVec 6) (imm : BitVec 21) (p : BitVec 1) (wh : BitVec 2) (d : BitVec 1)
  | wexit (qp : BitVec 6) (imm : BitVec 21) (p : BitVec 1) (wh : BitVec 2) (d : BitVec 1)
  | wtop (qp : BitVec 6) (imm : BitVec 21) (p : BitVec 1) (wh : BitVec 2) (d : BitVec 1)
  | cloop (imm : BitVec 21) (p : BitVec 1) (wh : BitVec 2) (d : BitVec 1)
  | cexit (imm : BitVec 21) (p : BitVec 1) (wh : BitVec 2) (d : BitVec 1)
  | ctop (imm : BitVec 21) (p : BitVec 1) (wh : BitVec 2) (d : BitVec 1)
  | call (qp : BitVec 6) (b1 : BitVec 3) (imm : BitVec 21) (p : BitVec 1) (wh : BitVec 2) (d : BitVec 1)
  | brp (payload : BitVec 37)
  deriving DecidableEq, Repr

/-- The instructions of the opcode table. -/
inductive Instr where
  /-- break.m imm21 (41 R377) -/
  | breakM (qp : BitVec 6) (imm : BitVec 21)
  /-- invala (43 R444) -/
  | invala (qp : BitVec 6)
  /-- fwb (43 R448) -/
  | fwb (qp : BitVec 6)
  /-- srlz.d (41 R365) -/
  | srlzD (qp : BitVec 6)
  /-- nop.m imm21 (30 R316) -/
  | nopM (qp : BitVec 6) (imm : BitVec 21)
  /-- hint.m imm21 (30 R316) -/
  | hintM (qp : BitVec 6) (imm : BitVec 21)
  /-- srlz.i (41 R364) -/
  | srlzI (qp : BitVec 6)
  /-- invala.e r1 (43 R444) -/
  | invalaER (qp : BitVec 6) (r1 : BitVec 7)
  /-- mf (43 R446) -/
  | mf (qp : BitVec 6)
  /-- invala.e f1 (43 R444) -/
  | invalaEF (qp : BitVec 6) (f1 : BitVec 7)
  /-- mf.a (43 R447) -/
  | mfA (qp : BitVec 6)
  /-- sync.i (43 R439) -/
  | syncI (qp : BitVec 6)
  /-- sum imm24 (40 R336) -/
  | sum (qp : BitVec 6) (imm : BitVec 24)
  /-- rum imm24 (40 R337) -/
  | rum (qp : BitVec 6) (imm : BitVec 24)
  /-- ssm imm24 (40 R340) -/
  | ssm (qp : BitVec 6) (imm : BitVec 24)
  /-- rsm imm24 (40 R344) -/
  | rsm (qp : BitVec 6) (imm : BitVec 24)
  /-- mov.m ar3 = imm8 (41 R373) -/
  | movArImm (qp : BitVec 6) (ar3 : BitVec 7) (imm : BitVec 8)
  /-- loadrs (43 R458) -/
  | loadrs
  /-- flushrs (43 R458) -/
  | flushrs
  /-- chk.a.nc r1, target25 (43 R444) -/
  | chkANcR (qp : BitVec 6) (r1 : BitVec 7) (imm : BitVec 21)
  /-- chk.a.clr r1, target25 (43 R444) -/
  | chkAClrR (qp : BitVec 6) (r1 : BitVec 7) (imm : BitVec 21)
  /-- chk.a.nc f1, target25 (43 R444) -/
  | chkANcF (qp : BitVec 6) (f1 : BitVec 7) (imm : BitVec 21)
  /-- chk.a.clr f1, target25 (43 R444) -/
  | chkAClrF (qp : BitVec 6) (f1 : BitVec 7) (imm : BitVec 21)
  /-- mov rr[r3] = r2 (42 R382) -/
  | movToRr (qp : BitVec 6) (r3 : BitVec 7) (r2 : BitVec 7)
  /-- mov dbr[r3] = r2 (41 R366) -/
  | movToDbr (qp : BitVec 6) (r3 : BitVec 7) (r2 : BitVec 7)
  /-- mov ibr[r3] = r2 (41 R367) -/
  | movToIbr (qp : BitVec 6) (r3 : BitVec 7) (r2 : BitVec 7)
  /-- mov pkr[r3] = r2 (42 R384) -/
  | movToPkr (qp : BitVec 6) (r3 : BitVec 7) (r2 : BitVec 7)
  /-- mov pmc[r3] = r2 (41 R368) -/
  | movToPmc (qp : BitVec 6) (r3 : BitVec 7) (r2 : BitVec 7)
  /-- mov pmd[r3] = r2 (41 R369) -/
  | movToPmd (qp : BitVec 6) (r3 : BitVec 7) (r2 : BitVec 7)
  /-- mov r1 = rr[r3] (42 R383) -/
  | movFromRr (qp : BitVec 6) (r1 : BitVec 7) (r3 : BitVec 7)
  /-- mov r1 = dbr[r3] (41 R366) -/
  | movFromDbr (qp : BitVec 6) (r1 : BitVec 7) (r3 : BitVec 7)
  /-- mov r1 = ibr[r3] (41 R367) -/
  | movFromIbr (qp : BitVec 6) (r1 : BitVec 7) (r3 : BitVec 7)
  /-- mov r1 = pkr[r3] (42 R385) -/
  | movFromPkr (qp : BitVec 6) (r1 : BitVec 7) (r3 : BitVec 7)
  /-- mov r1 = pmc[r3] (41 R368) -/
  | movFromPmc (qp : BitVec 6) (r1 : BitVec 7) (r3 : BitVec 7)
  /-- mov r1 = pmd[r3] (41 R369) -/
  | movFromPmd (qp : BitVec 6) (r1 : BitVec 7) (r3 : BitVec 7)
  /-- mov r1 = cpuid[r3] (41 R370) -/
  | movFromCpuid (qp : BitVec 6) (r1 : BitVec 7) (r3 : BitVec 7)
  /-- ptc.l r3, r2 (42 R393) -/
  | ptcL (qp : BitVec 6) (r3 : BitVec 7) (r2 : BitVec 7)
  /-- ptc.g r3, r2 (42 R394) -/
  | ptcG (qp : BitVec 6) (r3 : BitVec 7) (r2 : BitVec 7)
  /-- ptc.ga r3, r2 (42 R395) -/
  | ptcGa (qp : BitVec 6) (r3 : BitVec 7) (r2 : BitVec 7)
  /-- ptr.d r3, r2 (42 R400) -/
  | ptrD (qp : BitVec 6) (r3 : BitVec 7) (r2 : BitVec 7)
  /-- ptr.i r3, r2 (42 R397) -/
  | ptrI (qp : BitVec 6) (r3 : BitVec 7) (r2 : BitVec 7)
  /-- itr.d dtr[r3] = r2 (42 R389) -/
  | itrD (qp : BitVec 6) (r3 : BitVec 7) (r2 : BitVec 7)
  /-- itr.i itr[r3] = r2 (42 R388) -/
  | itrI (qp : BitVec 6) (r3 : BitVec 7) (r2 : BitVec 7)
  /-- probe.r r1 = r3, imm2 (42 R392) -/
  | probeRImm (qp : BitVec 6) (r1 : BitVec 7) (r3 : BitVec 7) (imm : BitVec 2)
  /-- probe.w r1 = r3, imm2 (42 R392) -/
  | probeWImm (qp : BitVec 6) (r1 : BitVec 7) (r3 : BitVec 7) (imm : BitVec 2)
  /-- thash r1 = r3 (42 R398) -/
  | thash (qp : BitVec 6) (r1 : BitVec 7) (r3 : BitVec 7)
  /-- ttag r1 = r3 (42 R399) -/
  | ttag (qp : BitVec 6) (r1 : BitVec 7) (r3 : BitVec 7)
  /-- tpa r1 = r3 (42 R402) -/
  | tpa (qp : BitVec 6) (r1 : BitVec 7) (r3 : BitVec 7)
  /-- tak r1 = r3 (42 R401) -/
  | tak (qp : BitVec 6) (r1 : BitVec 7) (r3 : BitVec 7)
  /-- mov r1 = psr.um (40 R339) -/
  | movFromUm (qp : BitVec 6) (r1 : BitVec 7)
  /-- mov.m r1 = ar3 (41 R362, R373) -/
  | movFromAr (qp : BitVec 6) (r1 : BitVec 7) (ar3 : BitVec 7)
  /-- mov r1 = cr3 (41 R361) -/
  | movFromCr (qp : BitVec 6) (r1 : BitVec 7) (cr3 : BitVec 7)
  /-- mov r1 = psr (40 R346) -/
  | movFromPsr (qp : BitVec 6) (r1 : BitVec 7)
  /-- mov psr.um = r2 (40 R338) -/
  | movToUm (qp : BitVec 6) (r2 : BitVec 7)
  /-- mov.m ar3 = r2 (41 R363, R373) -/
  | movToAr (qp : BitVec 6) (ar3 : BitVec 7) (r2 : BitVec 7)
  /-- mov cr3 = r2 (41 R360) -/
  | movToCr (qp : BitVec 6) (cr3 : BitVec 7) (r2 : BitVec 7)
  /-- mov psr.l = r2 (40 R345) -/
  | movToPsrL (qp : BitVec 6) (r2 : BitVec 7)
  /-- itc.d r2 (42 R387) -/
  | itcD (qp : BitVec 6) (r2 : BitVec 7)
  /-- itc.i r2 (42 R386) -/
  | itcI (qp : BitVec 6) (r2 : BitVec 7)
  /-- fc r3 (43 R437) -/
  | fc (qp : BitVec 6) (r3 : BitVec 7)
  /-- fc.i r3 (43 R438) -/
  | fcI (qp : BitVec 6) (r3 : BitVec 7)
  /-- probe.rw.fault r3, imm2 (42 R392) -/
  | probeRwFault (qp : BitVec 6) (r3 : BitVec 7) (imm : BitVec 2)
  /-- probe.r.fault r3, imm2 (42 R392) -/
  | probeRFault (qp : BitVec 6) (r3 : BitVec 7) (imm : BitVec 2)
  /-- probe.w.fault r3, imm2 (42 R392) -/
  | probeWFault (qp : BitVec 6) (r3 : BitVec 7) (imm : BitVec 2)
  /-- ptc.e r3 (42 R396) -/
  | ptcE (qp : BitVec 6) (r3 : BitVec 7)
  /-- probe.r r1 = r3, r2 (42 R392) -/
  | probeR (qp : BitVec 6) (r1 : BitVec 7) (r3 : BitVec 7) (r2 : BitVec 7)
  /-- probe.w r1 = r3, r2 (42 R392) -/
  | probeW (qp : BitVec 6) (r1 : BitVec 7) (r3 : BitVec 7) (r2 : BitVec 7)
  /-- chk.s r2, target25, M and I forms (43 R445) -/
  | chkSM (qp : BitVec 6) (r2 : BitVec 7) (imm : BitVec 21)
  /-- chk.s f2, target25 (43 R445) -/
  | chkSF (qp : BitVec 6) (f2 : BitVec 7) (imm : BitVec 21)
  /-- alloc r1 = ar.pfs, i, l, o, r (43 R458) -/
  | alloc (r1 : BitVec 7) (sof : BitVec 7) (sol : BitVec 7) (sor : BitVec 4)
  /-- break.i imm21 (41 R377) -/
  | breakI (qp : BitVec 6) (imm : BitVec 21)
  /-- nop.i imm21, and the F and X forms (30 R316) -/
  | nopI (qp : BitVec 6) (imm : BitVec 21)
  /-- hint.i imm21, and the F and X forms (30 R316) -/
  | hintI (qp : BitVec 6) (imm : BitVec 21)
  /-- break.b imm21 (41 R377) -/
  | breakB (qp : BitVec 6) (imm : BitVec 21)
  /-- cover (41 R372) -/
  | cover
  /-- clrrrb (30 R311) -/
  | clrrrb
  /-- clrrrb.pr (30 R311) -/
  | clrrrbPr
  /-- rfi (40 R343) -/
  | rfi
  /-- bsw.0 (40 R341) -/
  | bsw0
  /-- bsw.1 (40 R342) -/
  | bsw1
  /-- epc (41 R375) -/
  | epc
  /-- vmsw.0 (40 R347) -/
  | vmsw0
  /-- vmsw.1 (40 R347) -/
  | vmsw1
  /-- br.cond b2 (30 R311) -/
  | brCond (qp : BitVec 6) (b2 : BitVec 3) (p : BitVec 1) (wh : BitVec 2) (d : BitVec 1)
  /-- br.ia b2 (40 R348) -/
  | brIa (b2 : BitVec 3) (p : BitVec 1) (wh : BitVec 2) (d : BitVec 1)
  /-- br.ret b2 (41 R376) -/
  | brRet (qp : BitVec 6) (b2 : BitVec 3) (p : BitVec 1) (wh : BitVec 2) (d : BitVec 1)
  /-- nop.b imm21 (30 R316) -/
  | nopB (qp : BitVec 6) (imm : BitVec 21)
  /-- hint.b imm21 (30 R316) -/
  | hintB (qp : BitVec 6) (imm : BitVec 21)
  /-- ld1 r1 = [r3] (43 R426) -/
  | ld1 (qp : BitVec 6) (r1 : BitVec 7) (r3 : BitVec 7) (hint : BitVec 2)
  /-- ld2 r1 = [r3] (43 R426) -/
  | ld2 (qp : BitVec 6) (r1 : BitVec 7) (r3 : BitVec 7) (hint : BitVec 2)
  /-- ld4 r1 = [r3] (43 R426) -/
  | ld4 (qp : BitVec 6) (r1 : BitVec 7) (r3 : BitVec 7) (hint : BitVec 2)
  /-- ld8 r1 = [r3] (43 R426) -/
  | ld8 (qp : BitVec 6) (r1 : BitVec 7) (r3 : BitVec 7) (hint : BitVec 2)
  /-- ld1.s r1 = [r3] (43 R427) -/
  | ld1S (qp : BitVec 6) (r1 : BitVec 7) (r3 : BitVec 7) (hint : BitVec 2)
  /-- ld2.s r1 = [r3] (43 R427) -/
  | ld2S (qp : BitVec 6) (r1 : BitVec 7) (r3 : BitVec 7) (hint : BitVec 2)
  /-- ld4.s r1 = [r3] (43 R427) -/
  | ld4S (qp : BitVec 6) (r1 : BitVec 7) (r3 : BitVec 7) (hint : BitVec 2)
  /-- ld8.s r1 = [r3] (43 R427) -/
  | ld8S (qp : BitVec 6) (r1 : BitVec 7) (r3 : BitVec 7) (hint : BitVec 2)
  /-- ld1.a r1 = [r3] (43 R441) -/
  | ld1A (qp : BitVec 6) (r1 : BitVec 7) (r3 : BitVec 7) (hint : BitVec 2)
  /-- ld2.a r1 = [r3] (43 R441) -/
  | ld2A (qp : BitVec 6) (r1 : BitVec 7) (r3 : BitVec 7) (hint : BitVec 2)
  /-- ld4.a r1 = [r3] (43 R441) -/
  | ld4A (qp : BitVec 6) (r1 : BitVec 7) (r3 : BitVec 7) (hint : BitVec 2)
  /-- ld8.a r1 = [r3] (43 R441) -/
  | ld8A (qp : BitVec 6) (r1 : BitVec 7) (r3 : BitVec 7) (hint : BitVec 2)
  /-- ld1.sa r1 = [r3] (43 R442) -/
  | ld1Sa (qp : BitVec 6) (r1 : BitVec 7) (r3 : BitVec 7) (hint : BitVec 2)
  /-- ld2.sa r1 = [r3] (43 R442) -/
  | ld2Sa (qp : BitVec 6) (r1 : BitVec 7) (r3 : BitVec 7) (hint : BitVec 2)
  /-- ld4.sa r1 = [r3] (43 R442) -/
  | ld4Sa (qp : BitVec 6) (r1 : BitVec 7) (r3 : BitVec 7) (hint : BitVec 2)
  /-- ld8.sa r1 = [r3] (43 R442) -/
  | ld8Sa (qp : BitVec 6) (r1 : BitVec 7) (r3 : BitVec 7) (hint : BitVec 2)
  /-- ld1.bias r1 = [r3] (43 R429) -/
  | ld1Bias (qp : BitVec 6) (r1 : BitVec 7) (r3 : BitVec 7) (hint : BitVec 2)
  /-- ld2.bias r1 = [r3] (43 R429) -/
  | ld2Bias (qp : BitVec 6) (r1 : BitVec 7) (r3 : BitVec 7) (hint : BitVec 2)
  /-- ld4.bias r1 = [r3] (43 R429) -/
  | ld4Bias (qp : BitVec 6) (r1 : BitVec 7) (r3 : BitVec 7) (hint : BitVec 2)
  /-- ld8.bias r1 = [r3] (43 R429) -/
  | ld8Bias (qp : BitVec 6) (r1 : BitVec 7) (r3 : BitVec 7) (hint : BitVec 2)
  /-- ld1.acq r1 = [r3] (43 R428) -/
  | ld1Acq (qp : BitVec 6) (r1 : BitVec 7) (r3 : BitVec 7) (hint : BitVec 2)
  /-- ld2.acq r1 = [r3] (43 R428) -/
  | ld2Acq (qp : BitVec 6) (r1 : BitVec 7) (r3 : BitVec 7) (hint : BitVec 2)
  /-- ld4.acq r1 = [r3] (43 R428) -/
  | ld4Acq (qp : BitVec 6) (r1 : BitVec 7) (r3 : BitVec 7) (hint : BitVec 2)
  /-- ld8.acq r1 = [r3] (43 R428) -/
  | ld8Acq (qp : BitVec 6) (r1 : BitVec 7) (r3 : BitVec 7) (hint : BitVec 2)
  /-- ld1.c.clr r1 = [r3] (43 R443) -/
  | ld1CClr (qp : BitVec 6) (r1 : BitVec 7) (r3 : BitVec 7) (hint : BitVec 2)
  /-- ld2.c.clr r1 = [r3] (43 R443) -/
  | ld2CClr (qp : BitVec 6) (r1 : BitVec 7) (r3 : BitVec 7) (hint : BitVec 2)
  /-- ld4.c.clr r1 = [r3] (43 R443) -/
  | ld4CClr (qp : BitVec 6) (r1 : BitVec 7) (r3 : BitVec 7) (hint : BitVec 2)
  /-- ld8.c.clr r1 = [r3] (43 R443) -/
  | ld8CClr (qp : BitVec 6) (r1 : BitVec 7) (r3 : BitVec 7) (hint : BitVec 2)
  /-- ld1.c.nc r1 = [r3] (43 R443) -/
  | ld1CNc (qp : BitVec 6) (r1 : BitVec 7) (r3 : BitVec 7) (hint : BitVec 2)
  /-- ld2.c.nc r1 = [r3] (43 R443) -/
  | ld2CNc (qp : BitVec 6) (r1 : BitVec 7) (r3 : BitVec 7) (hint : BitVec 2)
  /-- ld4.c.nc r1 = [r3] (43 R443) -/
  | ld4CNc (qp : BitVec 6) (r1 : BitVec 7) (r3 : BitVec 7) (hint : BitVec 2)
  /-- ld8.c.nc r1 = [r3] (43 R443) -/
  | ld8CNc (qp : BitVec 6) (r1 : BitVec 7) (r3 : BitVec 7) (hint : BitVec 2)
  /-- ld1.c.clr.acq r1 = [r3] (43 R443) -/
  | ld1CClrAcq (qp : BitVec 6) (r1 : BitVec 7) (r3 : BitVec 7) (hint : BitVec 2)
  /-- ld2.c.clr.acq r1 = [r3] (43 R443) -/
  | ld2CClrAcq (qp : BitVec 6) (r1 : BitVec 7) (r3 : BitVec 7) (hint : BitVec 2)
  /-- ld4.c.clr.acq r1 = [r3] (43 R443) -/
  | ld4CClrAcq (qp : BitVec 6) (r1 : BitVec 7) (r3 : BitVec 7) (hint : BitVec 2)
  /-- ld8.c.clr.acq r1 = [r3] (43 R443) -/
  | ld8CClrAcq (qp : BitVec 6) (r1 : BitVec 7) (r3 : BitVec 7) (hint : BitVec 2)
  /-- ld8.fill r1 = [r3] (43 R430) -/
  | ld8Fill (qp : BitVec 6) (r1 : BitVec 7) (r3 : BitVec 7) (hint : BitVec 2)
  /-- st1 [r3] = r2 (43 R432) -/
  | st1 (qp : BitVec 6) (r2 : BitVec 7) (r3 : BitVec 7) (hint : BitVec 2)
  /-- st2 [r3] = r2 (43 R432) -/
  | st2 (qp : BitVec 6) (r2 : BitVec 7) (r3 : BitVec 7) (hint : BitVec 2)
  /-- st4 [r3] = r2 (43 R432) -/
  | st4 (qp : BitVec 6) (r2 : BitVec 7) (r3 : BitVec 7) (hint : BitVec 2)
  /-- st8 [r3] = r2 (43 R432) -/
  | st8 (qp : BitVec 6) (r2 : BitVec 7) (r3 : BitVec 7) (hint : BitVec 2)
  /-- st1.rel [r3] = r2 (43 R433) -/
  | st1Rel (qp : BitVec 6) (r2 : BitVec 7) (r3 : BitVec 7) (hint : BitVec 2)
  /-- st2.rel [r3] = r2 (43 R433) -/
  | st2Rel (qp : BitVec 6) (r2 : BitVec 7) (r3 : BitVec 7) (hint : BitVec 2)
  /-- st4.rel [r3] = r2 (43 R433) -/
  | st4Rel (qp : BitVec 6) (r2 : BitVec 7) (r3 : BitVec 7) (hint : BitVec 2)
  /-- st8.rel [r3] = r2 (43 R433) -/
  | st8Rel (qp : BitVec 6) (r2 : BitVec 7) (r3 : BitVec 7) (hint : BitVec 2)
  /-- st8.spill [r3] = r2 (43 R434) -/
  | st8Spill (qp : BitVec 6) (r2 : BitVec 7) (r3 : BitVec 7) (hint : BitVec 2)
  /-- cmpxchg1.acq r1 = [r3], r2, ar.ccv (43 R449) -/
  | cmpxchg1Acq (qp : BitVec 6) (r1 : BitVec 7) (r2 : BitVec 7) (r3 : BitVec 7) (hint : BitVec 2)
  /-- cmpxchg2.acq r1 = [r3], r2, ar.ccv (43 R449) -/
  | cmpxchg2Acq (qp : BitVec 6) (r1 : BitVec 7) (r2 : BitVec 7) (r3 : BitVec 7) (hint : BitVec 2)
  /-- cmpxchg4.acq r1 = [r3], r2, ar.ccv (43 R449) -/
  | cmpxchg4Acq (qp : BitVec 6) (r1 : BitVec 7) (r2 : BitVec 7) (r3 : BitVec 7) (hint : BitVec 2)
  /-- cmpxchg8.acq r1 = [r3], r2, ar.ccv (43 R449) -/
  | cmpxchg8Acq (qp : BitVec 6) (r1 : BitVec 7) (r2 : BitVec 7) (r3 : BitVec 7) (hint : BitVec 2)
  /-- cmpxchg1.rel r1 = [r3], r2, ar.ccv (43 R449) -/
  | cmpxchg1Rel (qp : BitVec 6) (r1 : BitVec 7) (r2 : BitVec 7) (r3 : BitVec 7) (hint : BitVec 2)
  /-- cmpxchg2.rel r1 = [r3], r2, ar.ccv (43 R449) -/
  | cmpxchg2Rel (qp : BitVec 6) (r1 : BitVec 7) (r2 : BitVec 7) (r3 : BitVec 7) (hint : BitVec 2)
  /-- cmpxchg4.rel r1 = [r3], r2, ar.ccv (43 R449) -/
  | cmpxchg4Rel (qp : BitVec 6) (r1 : BitVec 7) (r2 : BitVec 7) (r3 : BitVec 7) (hint : BitVec 2)
  /-- cmpxchg8.rel r1 = [r3], r2, ar.ccv (43 R449) -/
  | cmpxchg8Rel (qp : BitVec 6) (r1 : BitVec 7) (r2 : BitVec 7) (r3 : BitVec 7) (hint : BitVec 2)
  /-- xchg1 r1 = [r3], r2 (43 R450) -/
  | xchg1 (qp : BitVec 6) (r1 : BitVec 7) (r2 : BitVec 7) (r3 : BitVec 7) (hint : BitVec 2)
  /-- xchg2 r1 = [r3], r2 (43 R450) -/
  | xchg2 (qp : BitVec 6) (r1 : BitVec 7) (r2 : BitVec 7) (r3 : BitVec 7) (hint : BitVec 2)
  /-- xchg4 r1 = [r3], r2 (43 R450) -/
  | xchg4 (qp : BitVec 6) (r1 : BitVec 7) (r2 : BitVec 7) (r3 : BitVec 7) (hint : BitVec 2)
  /-- xchg8 r1 = [r3], r2 (43 R450) -/
  | xchg8 (qp : BitVec 6) (r1 : BitVec 7) (r2 : BitVec 7) (r3 : BitVec 7) (hint : BitVec 2)
  /-- fetchadd4.acq r1 = [r3], inc3 (43 R451); inc is s : i2b -/
  | fetchadd4Acq (qp : BitVec 6) (r1 : BitVec 7) (inc : BitVec 3) (r3 : BitVec 7) (hint : BitVec 2)
  /-- fetchadd8.acq r1 = [r3], inc3 (43 R451); inc is s : i2b -/
  | fetchadd8Acq (qp : BitVec 6) (r1 : BitVec 7) (inc : BitVec 3) (r3 : BitVec 7) (hint : BitVec 2)
  /-- fetchadd4.rel r1 = [r3], inc3 (43 R451); inc is s : i2b -/
  | fetchadd4Rel (qp : BitVec 6) (r1 : BitVec 7) (inc : BitVec 3) (r3 : BitVec 7) (hint : BitVec 2)
  /-- fetchadd8.rel r1 = [r3], inc3 (43 R451); inc is s : i2b -/
  | fetchadd8Rel (qp : BitVec 6) (r1 : BitVec 7) (inc : BitVec 3) (r3 : BitVec 7) (hint : BitVec 2)
  /-- cmp8xchg16.acq r1 = [r3], r2, ar.csd, ar.ccv (43 R453) -/
  | cmp8xchg16Acq (qp : BitVec 6) (r1 : BitVec 7) (r2 : BitVec 7) (r3 : BitVec 7) (hint : BitVec 2)
  /-- cmp8xchg16.rel r1 = [r3], r2, ar.csd, ar.ccv (43 R453) -/
  | cmp8xchg16Rel (qp : BitVec 6) (r1 : BitVec 7) (r2 : BitVec 7) (r3 : BitVec 7) (hint : BitVec 2)
  /-- ld16 r1, ar.csd = [r3] (43 R431) -/
  | ld16 (qp : BitVec 6) (r1 : BitVec 7) (r3 : BitVec 7) (hint : BitVec 2)
  /-- ld16.acq r1, ar.csd = [r3] (43 R431) -/
  | ld16Acq (qp : BitVec 6) (r1 : BitVec 7) (r3 : BitVec 7) (hint : BitVec 2)
  /-- st16 [r3] = r2, ar.csd (43 R435) -/
  | st16 (qp : BitVec 6) (r2 : BitVec 7) (r3 : BitVec 7) (hint : BitVec 2)
  /-- st16.rel [r3] = r2, ar.csd (43 R435) -/
  | st16Rel (qp : BitVec 6) (r2 : BitVec 7) (r3 : BitVec 7) (hint : BitVec 2)
  /-- lfetch [r3] (43 R454) -/
  | lfetch (qp : BitVec 6) (r3 : BitVec 7) (hint : BitVec 2)
  /-- lfetch.excl [r3] (43 R454) -/
  | lfetchExcl (qp : BitVec 6) (r3 : BitVec 7) (hint : BitVec 2)
  /-- lfetch.fault [r3] (43 R454) -/
  | lfetchFault (qp : BitVec 6) (r3 : BitVec 7) (hint : BitVec 2)
  /-- lfetch.fault.excl [r3] (43 R454) -/
  | lfetchFaultExcl (qp : BitVec 6) (r3 : BitVec 7) (hint : BitVec 2)
  /-- ldfe f1 = [r3] (43 R455) -/
  | ldfe (qp : BitVec 6) (f1 : BitVec 7) (r3 : BitVec 7) (hint : BitVec 2)
  /-- stfe [r3] = f2 (43 R455) -/
  | stfe (qp : BitVec 6) (f2 : BitVec 7) (r3 : BitVec 7) (hint : BitVec 2)
  /-- ldfs f1 = [r3] (43 R455) -/
  | ldfs (qp : BitVec 6) (f1 : BitVec 7) (r3 : BitVec 7) (hint : BitVec 2)
  /-- ldfd f1 = [r3] (43 R455) -/
  | ldfd (qp : BitVec 6) (f1 : BitVec 7) (r3 : BitVec 7) (hint : BitVec 2)
  /-- ldf8 f1 = [r3] (43 R455) -/
  | ldf8 (qp : BitVec 6) (f1 : BitVec 7) (r3 : BitVec 7) (hint : BitVec 2)
  /-- ldf.fill f1 = [r3] (43 R455) -/
  | ldfFill (qp : BitVec 6) (f1 : BitVec 7) (r3 : BitVec 7) (hint : BitVec 2)
  /-- ldfps, ldfpd, ldfp8 and their flavours (43 R455) -/
  | ldfp (qp : BitVec 6) (fmt : PairFmt) (flav : FpFlavour) (f1 : BitVec 7) (f2 : BitVec 7) (r3 : BitVec 7) (hint : BitVec 2)
  /-- stfs [r3] = f2 (43 R455) -/
  | stfs (qp : BitVec 6) (f2 : BitVec 7) (r3 : BitVec 7) (hint : BitVec 2)
  /-- stfd [r3] = f2 (43 R455) -/
  | stfd (qp : BitVec 6) (f2 : BitVec 7) (r3 : BitVec 7) (hint : BitVec 2)
  /-- stf8 [r3] = f2 (43 R455) -/
  | stf8 (qp : BitVec 6) (f2 : BitVec 7) (r3 : BitVec 7) (hint : BitVec 2)
  /-- stf.spill [r3] = f2 (43 R455) -/
  | stfSpill (qp : BitVec 6) (f2 : BitVec 7) (r3 : BitVec 7) (hint : BitVec 2)
  /-- ldfs, ldfd, ldf8, ldfe with .s .a .sa .c.clr .c.nc (43 R455) -/
  | ldfFlav (qp : BitVec 6) (fmt : FpFmt) (flav : FpSpec) (f1 : BitVec 7) (r3 : BitVec 7) (hint : BitVec 2)
  /-- every load, store and lfetch with base update (43 R423) -/
  | memUpd (qp : BitVec 6) (op : UpdOp) (r3 : BitVec 7) (upd : Upd) (hint : BitVec 2)
  /-- break.f imm21, break.x imm62 (41 R377) -/
  | breakFX (qp : BitVec 6) (form : BreakForm)
  /-- mov.i ar3 = r2, r1 = ar3, ar3 = imm8 (41 R373) -/
  | movI (qp : BitVec 6) (form : MovIForm)
  /-- the IP-relative branches and brp (30 R311) -/
  | brRel (form : BrRelForm)
  /-- addp4 r1 = r2, r3 (43 R456) -/
  | addp4 (qp : BitVec 6) (r1 : BitVec 7) (r2 : BitVec 7) (r3 : BitVec 7)
  /-- shladdp4 r1 = r2, count2, r3 (43 R457); count2 = ct2d + 1 -/
  | shladdp4 (qp : BitVec 6) (r1 : BitVec 7) (r2 : BitVec 7) (ct2d : BitVec 2) (r3 : BitVec 7)
  /-- addp4 r1 = imm14, r3 (43 R456) -/
  | addp4Imm (qp : BitVec 6) (r1 : BitVec 7) (imm : BitVec 14) (r3 : BitVec 7)
  deriving DecidableEq, Repr

end Sys2Proof
end

