-- ==== Sys2Proof/Machine/State.lean ====
section
/-!
DEFINITION. The state of one processor and its memory as plain data, what stops the machine, and reset
(10_state.md, 11_state_control_registers.md). INVENTORY.md lists every field with its rule and reset value.
-/
namespace Sys2Proof
namespace Machine

/-- A general register: its value and its NaT bit (10_state.md R22). -/
structure GReg where
  val : Word := 0
  nat : Bool := false
  deriving DecidableEq, Repr

/-- A valid TLB entry (21_memory_translation.md R224). The hidden valid bit is the entry's presence. `base` is the
region offset of the page, its low ps bits zero; `ppn` is bits 49:12 of the physical address. -/
structure TlbEntry where
  rid : BitVec 24
  vrn : BitVec 3
  base : BitVec 61
  ps : BitVec 6
  p : Bool
  ma : BitVec 3
  a : Bool
  d : Bool
  pl : BitVec 2
  ar : BitVec 3
  ppn : BitVec 38
  ed : Bool
  key : BitVec 24
  deriving DecidableEq, Repr

/-- The resources whose side effects need explicit serialization (70_reset_and_hazards.md R550 to R554): the PSR, the
control registers, the interval time counter, the translation resources, the debug and monitor registers, the interrupts in
service that a write of EOI ends. -/
structure Sys where
  psr : Word
  cr : Vector Word 128
  itc : Word
  rr : Vector Word 8
  pkr : Vector Word 256
  itr : Vector (Option TlbEntry) 256
  dtr : Vector (Option TlbEntry) 256
  itcTlb : List TlbEntry
  dtcTlb : List TlbEntry
  dbr : Vector Word 256
  ibr : Vector Word 256
  pmc : Vector Word 256
  pmd : Vector Word 256
  inService : BitVec 256
  deriving DecidableEq, Repr

/-- An entry of the ALAT: register type and number, physical address, size (43_memory_instructions.md R440). -/
structure AlatEntry where
  fp : Bool
  reg : BitVec 7
  pa : Nat
  size : Nat
  deriving DecidableEq, Repr

/-- The attributes that the spec holds coherent with one another: the cacheable ones, write coalescing, the uncacheable ones
(Table 4-10: 20_memory.md R161, R163). -/
inductive Coherence where
  | cached | coalesced | uncached
  deriving DecidableEq, Repr

/-- How far the sequence fc, sync.i, instruction serialization has come for a stale byte; a sync.i counts for a
serialization of a later group only, so it stands as syncing until its group ends (43_memory_instructions.md R436,
70_reset_and_hazards.md R551). -/
inductive Stage where
  | live | flushed | syncing | synced
  deriving DecidableEq, Repr

/-- A value a byte of memory held that an instruction fetch may still return (20_memory.md R164). -/
structure StaleByte where
  addr : Nat
  old : Byte
  stage : Stage
  deriving DecidableEq, Repr

/-- What the fetch of the current instruction found: whether its page was translated, the page's ed, ar and pl, whether
the instruction is the L+X of an MLX bundle, whether a stop follows it (log entry 18). -/
structure Ctx where
  translated : Bool
  ed : Bool
  ar : BitVec 3
  pl : BitVec 2
  mlx : Bool
  stopAfter : Bool
  deriving DecidableEq, Repr

/-- The whole machine. `dataWrites` and `fetchWrites` count the entries the current group has put in flight, `lines` lists the
32-byte lines that accesses have used and no fc has flushed since, each with the coherence class of its use (20_memory.md R161,
R162, R211; log entry 56), `waited` counts the boundaries a deliverable interrupt has waited (60_exceptions.md R514), `lastTc` is
the translation inserted last while forward progress depends on it and `tcLost` how often it was lost
(21_memory_translation.md R226). `sys` holds the values written last; `dataOld` and `fetchOld` hold, newest first, the values
before each unserialized write, for the data and the fetch consumer (70_reset_and_hazards.md R556; log entry 7). -/
structure State where
  gr : Vector GReg 144
  fr : Vector FWord 128
  pr : BitVec 64
  br : Vector Word 8
  ar : Vector Word 128
  ip : Word
  slot : BitVec 2
  cfm : BitVec 38
  sys : Sys
  dataOld : List Sys
  fetchOld : List Sys
  dataWrites : Nat
  fetchWrites : Nat
  srlzI : Bool
  groupRegs : List Nat
  lastBundle : Word
  irr : BitVec 256
  xtp : Byte
  waited : Nat
  alat : List AlatEntry
  mem : List Host.Cell
  stale : List StaleByte
  lines : List (Nat × Coherence)
  lastTc : Option TlbEntry
  tcLost : Nat
  holes : List (Nat × Nat)
  mcOwed : Bool
  palOwed : Bool
  pmdKnown : BitVec 256
  ctx : Ctx
  tick : Nat
  deriving DecidableEq, Repr

/-- What ends a run as the spec says it ends. -/
inductive Fault where
  /-- A Machine Check abort is delivered: raised by step while PSR.mc is 0 and one is owed (60_exceptions.md R474).
  Safe: the state PAL firmware would leave is not specified and the run stops. -/
  | machineCheck
  /-- INIT or PMI, sent to itself through the Processor Interrupt Block, is delivered: raised by step
  (60_exceptions.md R475). Safe: the run stops. -/
  | palInterruption
  deriving DecidableEq, Repr

/-- What the model turns away, by name. Each is safe: the model stops where the hardware may go on. -/
inductive Refusal where
  /-- Dispatch: the instruction has no meaning yet. -/
  | notModelled (mnemonic : String)
  /-- alloc, flushrs, loadrs, br.call and the rotating branches, these where they are not predicated off: the register stack engine is not in the source
  (92_eei_decisions.md D5). -/
  | rseNotDefined
  /-- step: PSR.is is 1, IA-32 code runs (00_scope.md R5). -/
  | ia32
  /-- br.ia: entry to IA-32 code in a state whose operation is undefined (70_reset_and_hazards.md R562, 1 to 3). -/
  | ia32EntryUndefined
  /-- step: an instruction of the application architecture that the spec does not hold (00_scope.md R5, R6). -/
  | outsideSpec
  /-- Taking an interruption with an unimplemented address in IVA (70_reset_and_hazards.md R562, 7). -/
  | ivaUnimplemented
  /-- A lookup that finds more than one entry (21_memory_translation.md R285). -/
  | multipleTlbMatch
  /-- itr into a live slot (42_translation_instructions.md R388). -/
  | trSlotLive
  /-- probe, tpa, tak with PSR.dt = 0 (92_eei_decisions.md D24). -/
  | physicalQuery
  /-- step: the restart slot is 3 (40_psr_instructions.md R343). -/
  | reservedRestartSlot
  /-- step: an instruction that must end its group does not (70_reset_and_hazards.md R562, 15). -/
  | lastInGroup
  /-- step: a group reads or writes a register it has written, serializes what it has written, or fetches by what its own
  srlz.i is to serialize (70_reset_and_hazards.md R560). -/
  | dependencyViolation
  /-- mov psr.l or rfi changes PSR.rt with the RSE not in enforced lazy mode (70_reset_and_hazards.md R562, 4). -/
  | rtChange
  /-- A walk of a VHPT that is not aligned to its size (70_reset_and_hazards.md R562, 6). -/
  | vhptMisaligned
  /-- vmsw.1 in a bundle whose address becomes unimplemented (70_reset_and_hazards.md R562, 12). -/
  | vmswUndefined
  /-- A walk of a long-format VHPT that breaks the rules of its page sizes (70_reset_and_hazards.md R562, 11). -/
  | vhptRulesBroken
  /-- An insert of a memory attribute that the platform lacks (70_reset_and_hazards.md R562, 13). -/
  | platformAttribute
  /-- An access to memory that is mapped with another cacheability, or was last used with an attribute that is not coherent with
  this one (70_reset_and_hazards.md R562, 17). -/
  | attributeAliasing
  /-- An access to the non-architected part of the Processor Interrupt Block (70_reset_and_hazards.md R562, 14). -/
  | pibUndefined
  deriving DecidableEq, Repr

/-- The three outcomes of a step of this machine. -/
abbrev Out := Host.Outcome State Fault Refusal

/-- The address execution starts at (RESET_IP; PRESUMED, log entry 2). -/
def resetIp : Word := 0xFFFFFFB0

/-- The serializable resources after reset: translation off, privilege level 0, no TLB entry (10_state.md R68). -/
def Sys.reset : Sys where
  psr := 0
  cr := Vector.replicate 128 0
  itc := 0
  rr := Vector.replicate 8 0
  pkr := Vector.replicate 256 0
  itr := Vector.replicate 256 none
  dtr := Vector.replicate 256 none
  itcTlb := []
  dtcTlb := []
  dbr := Vector.replicate 256 0
  ibr := Vector.replicate 256 0
  pmc := Vector.replicate 256 0
  pmd := Vector.replicate 256 0
  inService := 0

/-- No fetch has happened (log entry 18). -/
def Ctx.none : Ctx :=
  { translated := false, ed := false, ar := 0, pl := 0, mlx := false, stopAfter := false }

/-- The machine right after reset (10_state.md R68; log entries 1 to 4 for the values the spec leaves open; that no Machine
Check and no PAL interruption is owed is a DESIGN CHOICE, log entry 1). -/
def State.reset : State where
  gr := Vector.replicate 144 { val := 0, nat := false }
  fr := Vector.replicate 128 0
  pr := 1
  br := Vector.replicate 8 0
  ar := Vector.replicate 128 0
  ip := resetIp
  slot := 0
  cfm := 0
  sys := Sys.reset
  dataOld := []
  fetchOld := []
  dataWrites := 0
  fetchWrites := 0
  srlzI := false
  groupRegs := []
  lastBundle := 0
  irr := 0
  xtp := 0
  waited := 0
  alat := []
  mem := []
  stale := []
  lines := []
  lastTc := none
  tcLost := 0
  holes := []
  mcOwed := false
  palOwed := false
  pmdKnown := BitVec.allOnes 256
  ctx := Ctx.none
  tick := 0

end Machine
end Sys2Proof
end

