-- ==== Sys2Proof/Machine/Flags.lean ====
section
/-!
DEFINITION. Bit fields, the Processor Status Register and every computation on its bits, and the Interruption Status
Register (10_state.md R35 to R61, 11_state_control_registers.md R110, 40_psr_instructions.md).
-/
namespace Sys2Proof
namespace Machine

/-- One bit of a word. -/
def bit (w : Word) (n : Nat) : Bool := w.getLsbD n
/-- The mask with one bit set. -/
def bitMask (n : Nat) : Word := 1#64 <<< n
/-- A word with one bit written. -/
def setBit (w : Word) (n : Nat) (b : Bool) : Word := if b then w ||| bitMask n else w &&& ~~~bitMask n
/-- The bits lo+n-1 to lo of a word. -/
def field (w : Word) (lo n : Nat) : BitVec n := w.extractLsb' lo n
/-- A word with the bits lo+n-1 to lo written. -/
def setField (w : Word) (lo : Nat) {n : Nat} (v : BitVec n) : Word :=
  (w &&& ~~~(((BitVec.allOnes n).setWidth 64) <<< lo)) ||| ((v.setWidth 64) <<< lo)
/-- The bits of a word inside a mask taken from another word. -/
def mergeMask (mask old new : Word) : Word := (old &&& ~~~mask) ||| (new &&& mask)

/-! The PSR fields (10_state.md R35). -/
namespace Psr
abbrev be : Nat := 1
abbrev up : Nat := 2
abbrev ac : Nat := 3
abbrev mfl : Nat := 4
abbrev mfh : Nat := 5
abbrev ic : Nat := 13
abbrev i : Nat := 14
abbrev pk : Nat := 15
abbrev dt : Nat := 17
abbrev dfl : Nat := 18
abbrev dfh : Nat := 19
abbrev sp : Nat := 20
abbrev pp : Nat := 21
abbrev di : Nat := 22
abbrev si : Nat := 23
abbrev db : Nat := 24
abbrev lp : Nat := 25
abbrev tb : Nat := 26
abbrev rt : Nat := 27
abbrev cplLo : Nat := 32
abbrev is : Nat := 34
abbrev mc : Nat := 35
abbrev it : Nat := 36
abbrev id : Nat := 37
abbrev da : Nat := 38
abbrev dd : Nat := 39
abbrev ss : Nat := 40
abbrev riLo : Nat := 41
abbrev ed : Nat := 43
abbrev bn : Nat := 44
abbrev ia : Nat := 45
abbrev vm : Nat := 46
end Psr

/-- PSR.cpl (10_state.md R57). -/
def psrCpl (psr : Word) : BitVec 2 := field psr Psr.cplLo 2
/-- A PSR with another privilege level. -/
def setCpl (psr : Word) (c : BitVec 2) : Word := setField psr Psr.cplLo c

/-- The reserved PSR bits apart from vm: 0, 12:6, 16, 31:28, 63:47 (10_state.md R35). -/
def psrReserved : Word := 0xFFFF8000F0011FC1
/-- A value holds a 1 in a reserved PSR position; bit 46 is reserved when PSR.vm is not implemented (40_psr_instructions.md
R333). -/
def psrReservedSet (v : Word) : Bool :=
  decide (v &&& psrReserved ≠ 0) || (bit v Psr.vm && !Config.hasPsrVm)

/-- The user mask bits that exist, 5:1 (40_psr_instructions.md R333). -/
def userMask : Word := 0x3E
/-- The user mask bits a user mask instruction may change: PSR.up only while PSR.sp is 0 (40_psr_instructions.md R334). -/
def userWritable (sp : Bool) : Word := if sp then 0x3A else 0x3E
/-- The system mask bits reserved in an immediate: 0, 12:6, 16 (40_psr_instructions.md R340). -/
def systemReserved : Word := 0x11FC1
/-- The reserved bits of PSR{31:0} (40_psr_instructions.md R345). -/
def lowerReserved : Word := 0xF0011FC1
/-- PSR{31:0}. -/
def lowerMask : Word := 0xFFFFFFFF
/-- What mov r1 = psr returns: bits 36:35 and 31:0 (40_psr_instructions.md R346). -/
def readableMask : Word := 0x18FFFFFFFF

/-- sum: set the user mask bits of an immediate (40_psr_instructions.md R336). -/
def sumPsr (sp : Bool) (imm psr : Word) : Word := psr ||| (imm &&& userWritable sp)
/-- rum: reset the user mask bits of an immediate (40_psr_instructions.md R337). -/
def rumPsr (sp : Bool) (imm psr : Word) : Word := psr &&& ~~~(imm &&& userWritable sp)
/-- mov psr.um: the user mask from a register (40_psr_instructions.md R338). -/
def movUmPsr (sp : Bool) (v psr : Word) : Word := mergeMask (userWritable sp) psr v
/-- ssm (40_psr_instructions.md R340). -/
def ssmPsr (imm psr : Word) : Word := psr ||| imm
/-- rsm (40_psr_instructions.md R344). -/
def rsmPsr (imm psr : Word) : Word := psr &&& ~~~imm
/-- mov psr.l (40_psr_instructions.md R345). -/
def movLowerPsr (v psr : Word) : Word := mergeMask lowerMask psr v

/-- The bits that a successful instruction clears: id, da, dd, ed, ia (10_state.md R59). -/
def oneShotMask : Word := 0x28E000000000
/-- The PSR after the one-instruction modifiers are cleared. -/
def clearOneShot (psr : Word) : Word := psr &&& ~~~oneShotMask

/-- The bits an interruption leaves alone: up, mfl, mfh, pk, dt, rt, mc, it (10_state.md R61). -/
def keptMask : Word := 0x1808028034
/-- The PSR after an IVA-based interruption: be and pp as DCR has them, the kept bits, every other bit 0 (10_state.md R61). -/
def interruptPsr (be pp : Bool) (psr : Word) : Word := setBit (setBit (psr &&& keptMask) Psr.be be) Psr.pp pp

/-- PSR.mfl and PSR.mfh after an instruction with a floating-point target (10_state.md R42, R43). -/
def markFpWritten (f : BitVec 7) (psr : Word) : Word :=
  if f.toNat < 2 then psr else if f.toNat < 32 then setBit psr Psr.mfl true else setBit psr Psr.mfh true

/-- The PSR that IPSR receives: the slot to restart in ri (11_state_control_registers.md R108). -/
def collectedPsr (psr : Word) (ri : BitVec 2) : Word := setField psr Psr.riLo ri

/-- The Interruption Status Register for Itanium code: vector, rs, ir and so are 0 (60_exceptions.md R502). -/
def isrWord (code : BitVec 16) (x w r na sp ni ed : Bool) (ei : BitVec 2) : Word :=
  let b (n : Nat) (v : Bool) : Word := if v then bitMask n else 0
  code.setWidth 64 ||| b 32 x ||| b 33 w ||| b 34 r ||| b 35 na ||| b 36 sp ||| b 39 ni ||| ((ei.setWidth 64) <<< 41) |||
    b 43 ed

/-- ISR.code of the traps of one delivery (60_exceptions.md R497). -/
def trapCode (lp tb ss uia : Bool) : BitVec 16 :=
  let b (n : Nat) (v : Bool) : BitVec 16 := if v then 1#16 <<< n else 0
  b 1 lp ||| b 2 tb ||| b 3 ss ||| b 4 uia

end Machine
end Sys2Proof
end

