-- ==== Sys2Proof/Machine/Memory.lean ====
section
/-!
DEFINITION. Memory as a list of (address, byte) in one canonical form: addresses strictly rising, no byte 0, because an
unlisted address reads 0 (log entry 4). Byte order is decided here once (20_memory.md R141).
-/
namespace Sys2Proof
namespace Machine

/-- The canonical form from an address on. -/
def Memory.wfFrom (lo : Nat) : List Host.Cell → Bool
  | [] => true
  | (k, v) :: t => decide (lo ≤ k) && decide (v ≠ 0) && Memory.wfFrom (k + 1) t

/-- The canonical form of a memory. -/
def Memory.wf (m : List Host.Cell) : Bool := Memory.wfFrom 0 m

/-- What an unlisted address reads as (DESIGN CHOICE, log entry 4). -/
def unlistedByte : Byte := 0

/-- The byte at an address. -/
def readByte : List Host.Cell → Nat → Byte
  | [], _ => unlistedByte
  | (k, v) :: t, a => if k = a then v else readByte t a

/-- Write one byte, keeping the canonical form. -/
def writeByte : List Host.Cell → Nat → Byte → List Host.Cell
  | [], a, b => if b = unlistedByte then [] else [(a, b)]
  | (k, v) :: t, a, b =>
    if a < k then (if b = unlistedByte then (k, v) :: t else (a, b) :: (k, v) :: t)
    else if a = k then (if b = unlistedByte then t else (a, b) :: t)
    else (k, v) :: writeByte t a b

/-- The n bytes from an address on. -/
def readList (m : List Host.Cell) (a : Nat) : Nat → List Byte
  | 0 => []
  | n + 1 => readByte m a :: readList m (a + 1) n

/-- The number whose little-endian bytes these are (20_memory.md R141). -/
def leVal : List Byte → Nat
  | [] => 0
  | b :: t => b.toNat + 256 * leVal t

/-- The number n bytes mean in a byte order (20_memory.md R141). -/
def bytesVal (be : Bool) (l : List Byte) : Nat := if be then leVal l.reverse else leVal l

/-- n bytes of memory as a number. -/
def readBytes (be : Bool) (m : List Host.Cell) (a n : Nat) : Nat := bytesVal be (readList m a n)

/-- The n little-endian bytes of a number. -/
def leBytes : Nat → Nat → List Byte
  | 0, _ => []
  | n + 1, v => BitVec.ofNat 8 v :: leBytes n (v / 256)

/-- The n bytes of a number in a byte order. -/
def valBytes (be : Bool) (n v : Nat) : List Byte := if be then (leBytes n v).reverse else leBytes n v

/-- Write bytes from an address on. -/
def writeList (m : List Host.Cell) (a : Nat) : List Byte → List Host.Cell
  | [] => m
  | b :: t => writeList (writeByte m a b) (a + 1) t

/-! The instruction fetch view (20_memory.md R164). -/

/-- A store to a byte: older values stay fetchable, and a flush that came before does not count any more. -/
def staleByteStored (m : List Host.Cell) (st : List StaleByte) (a : Nat) : List StaleByte :=
  { addr := a, old := readByte m a, stage := .live } ::
    st.map fun e => if e.addr = a then { e with stage := .live } else e

/-- Stores of n bytes from an address. -/
def staleStored (m : List Host.Cell) (a : Nat) : Nat → List StaleByte → List StaleByte
  | 0, st => st
  | n + 1, st => staleStored m (a + 1) n (staleByteStored m st a)

/-- fc or fc.i of the 32-byte line of an address (43_memory_instructions.md R436, R437). -/
def staleFlush (pa : Nat) (st : List StaleByte) : List StaleByte :=
  st.map fun e => if e.addr / 32 = pa / 32 ∧ e.stage = .live then { e with stage := .flushed } else e

/-- sync.i (43_memory_instructions.md R439). -/
def staleSync (st : List StaleByte) : List StaleByte :=
  st.map fun e => if e.stage = .flushed then { e with stage := .syncing } else e

/-- The end of a group: its sync.i counts from now on. -/
def staleEndGroup (st : List StaleByte) : List StaleByte :=
  st.map fun e => if e.stage = .syncing then { e with stage := .synced } else e

/-- An instruction serialization ends the sequence for the bytes that an earlier group synchronized
(43_memory_instructions.md R436, 70_reset_and_hazards.md R551). -/
def staleSerialize (st : List StaleByte) : List StaleByte :=
  staleEndGroup (st.filter fun e => decide (e.stage ≠ .synced))

/-- The old values a fetch of an address may return. -/
def staleValues (st : List StaleByte) (a : Nat) : List Byte := (st.filter fun e => decide (e.addr = a)).map (·.old)

/-! The lines that accesses have used. -/

/-- The 32-byte lines of a range: the size of a line is the implementation's, at least 32 bytes, and the model takes 32
(43_memory_instructions.md R437; DESIGN CHOICE, log entry 56). -/
def linesOf (a n : Nat) : List Nat := (List.range ((a % 32 + n + 31) / 32)).map fun i => a / 32 + i

/-- Use of a range: each line is listed with the coherence class it was used with. -/
def useLines (l : List (Nat × Coherence)) (k : Coherence) (a n : Nat) : List (Nat × Coherence) :=
  ((linesOf a n).map fun x => (x, k)).filter (fun x => !l.contains x) ++ l

/-- The range meets a line that was used with another coherence class. -/
def usedOtherwise (l : List (Nat × Coherence)) (k : Coherence) (a n : Nat) : Bool :=
  l.any fun u => decide (u.2 ≠ k) && (linesOf a n).contains u.1

/-- Two byte ranges share a byte. -/
def rangesOverlap (a n b k : Nat) : Bool := decide (a < b + k) && decide (b < a + n)

/-- The range meets an unpopulated part of physical memory (20_memory.md R160; log entry 24). -/
def unpopulated (holes : List (Nat × Nat)) (a n : Nat) : Bool := holes.any fun h => rangesOverlap a n h.1 h.2

end Machine
end Sys2Proof
end

