-- ==== Sys2Proof/Machine/Views.lean ====
section
/-!
DEFINITION. How the serializable resources are written and seen: explicit and implicit writes, the views of the data and
the fetch consumer, serialization, instruction groups (70_reset_and_hazards.md R550 to R556; log entry 7).
-/
namespace Sys2Proof
namespace Machine

/-- Read a register file at a number. -/
def rd {α : Type} {n : Nat} (v : Vector α n) (i : Nat) (d : α) : α := v[i]?.getD d
/-- Write a register file at a number. -/
def wr {α : Type} {n : Nat} (v : Vector α n) (i : Nat) (x : α) : Vector α n := v.setIfInBounds i x

/-- A control register. -/
def Sys.getCr (y : Sys) (n : Nat) : Word := rd y.cr n 0
/-- Write a control register. -/
def Sys.setCr (y : Sys) (n : Nat) (v : Word) : Sys := { y with cr := wr y.cr n v }
/-- Change the PSR. -/
def Sys.onPsr (f : Word → Word) (y : Sys) : Sys := { y with psr := f y.psr }

/-- One of the current value and the in-flight older values, by a free number. -/
def pick {α : Type} (cur : α) (olds : List α) (n : Nat) : α :=
  match olds with
  | [] => cur
  | o :: t => (cur :: o :: t).getD (n % (t.length + 2)) cur

/-- A register file as a consumer sees it: every register is read on its own (70_reset_and_hazards.md R556). -/
def pickFile {n : Nat} (cur : Sys) (olds : List Sys) (f : Sys → Vector Word n) (c : Nat → Config.Site) (tick : Nat) :
    Vector Word n :=
  match olds with
  | [] => f cur
  | o :: t => Vector.ofFn fun i => (f (pick cur (o :: t) (Config.freeNat (c i) tick)))[i]

/-- What a data-side consumer sees of the serializable resources (70_reset_and_hazards.md R556). -/
def State.dview (s : State) (c : Config.Site) : Sys := pick s.sys s.dataOld (Config.freeNat c s.tick)
/-- What the fetch consumer sees of the serializable resources (70_reset_and_hazards.md R556). -/
def State.fview (s : State) (c : Config.Site) : Sys := pick s.sys s.fetchOld (Config.freeNat c s.tick)

/-- A PSR bit as a data-side consumer sees it; u tells the reads of one step apart. -/
def State.dpsr (s : State) (b : Nat) (u : Nat := 0) : Bool := bit (s.dview (.psrBit u b)).psr b
/-- A PSR bit as the fetch consumer sees it. -/
def State.fpsr (s : State) (b : Nat) (u : Nat := 0) : Bool := bit (s.fview (.fPsrBit u b)).psr b
/-- A PSR bit that is never in flight. -/
def State.psrNow (s : State) (b : Nat) : Bool := bit s.sys.psr b
/-- A control register as a consumer other than a move sees it. -/
def State.dcr (s : State) (n : Nat) (u : Nat := 0) : Word := (s.dview (.cr u n)).getCr n
/-- A control register as the fetch consumer sees it. -/
def State.fcr (s : State) (n : Nat) (u : Nat := 0) : Word := (s.fview (.fCr u n)).getCr n
/-- A region register as a data-side consumer sees it. -/
def State.rrAt (s : State) (n : Nat) (u : Nat := 0) : Word := rd (s.dview (.rr u n)).rr n 0
/-- PSR.ic as the interruption logic sees it: a fault of the fetch uses the fetch consumer's view
(70_reset_and_hazards.md R557). -/
def State.icCollect (s : State) (fetch : Bool) : Bool := if fetch then s.fpsr Psr.ic 1 else s.dpsr Psr.ic 1
/-- PSR.ic as the completion of an instruction sees it (IIPA, 11_state_control_registers.md R116). -/
def State.icRetire (s : State) : Bool := s.dpsr Psr.ic 2
/-- PSR.ic is in flight. -/
def State.icInFlight (s : State) (fetch : Bool) : Bool :=
  (if fetch then s.fetchOld else s.dataOld).any fun y => bit y.psr Psr.ic != bit s.sys.psr Psr.ic
/-- PSR.cpl, written by rfi, epc, br.ret and interruptions only. After an epc the rest of its group may run at the old or
the new level (41_cr_and_serialization_instructions.md R375). -/
def State.cpl (s : State) : BitVec 2 :=
  psrCpl (pick s.sys (s.dataOld.take s.dataWrites) (Config.freeNat .epcEarly s.tick)).psr
/-- PSR.vm where it is implemented (10_state.md R60). -/
def State.vm (s : State) : Bool := bit s.sys.psr Psr.vm && Config.hasPsrVm

/-- A write that needs explicit serialization: the values before it stay visible (70_reset_and_hazards.md R556). -/
def State.pushSys (f : Sys → Sys) (s : State) : State :=
  { s with sys := f s.sys, dataOld := s.sys :: s.dataOld, fetchOld := s.sys :: s.fetchOld,
           dataWrites := s.dataWrites + 1, fetchWrites := s.fetchWrites + 1 }

/-- A write that every consumer sees at once: implicit serialization (70_reset_and_hazards.md R552). That later instructions of
the same group see it too is the model's choice where the spec ensures it for the next group only (log entry 7). -/
def State.mapSys (f : Sys → Sys) (s : State) : State :=
  { s with sys := f s.sys, dataOld := s.dataOld.map f, fetchOld := s.fetchOld.map f }

/-- A write of the user mask by a user mask instruction: every data-side consumer sees it at once, a later instruction of the
same group too (DESIGN CHOICE, log entry 7; 40_psr_instructions.md R332). A new PSR.up stays in flight for the fetch
consumer, for it is implicit for monitoring data execution events only (10_state.md R38 note b). -/
def State.writeUm (f : Word → Word) (s : State) : State :=
  let keepUp (y : Sys) : Sys := y.onPsr fun p => setBit (f p) Psr.up (bit p Psr.up)
  let t : State := { s with sys := s.sys.onPsr f, dataOld := s.dataOld.map (Sys.onPsr f), fetchOld := s.fetchOld.map keepUp }
  if bit (f s.sys.psr) Psr.up = bit s.sys.psr Psr.up then t
  else { t with fetchOld := keepUp s.sys :: t.fetchOld, fetchWrites := s.fetchWrites + 1 }

/-- Data serialization: what earlier groups wrote becomes certain for execution and data references; a write of the
same group stays in flight (70_reset_and_hazards.md R553). -/
def State.dataSerialize (s : State) : State := { s with dataOld := s.dataOld.take s.dataWrites }

/-- srlz.i: a data and an instruction serialization for the groups after this one (70_reset_and_hazards.md R551). -/
def State.requestSrlzI (s : State) : State := { s with srlzI := true }

/-- The end of an instruction group. -/
def State.endGroup (s : State) : State :=
  if s.srlzI then
    { s with dataOld := s.dataOld.take s.dataWrites, fetchOld := s.fetchOld.take s.fetchWrites,
             stale := staleSerialize s.stale, dataWrites := 0, fetchWrites := 0, srlzI := false, groupRegs := [] }
  else { s with stale := staleEndGroup s.stale, dataWrites := 0, fetchWrites := 0, groupRegs := [] }

/-- The serialization an interruption and an rfi perform: every resource takes its last value, a new group begins
(70_reset_and_hazards.md R551). -/
def State.serializeAll (s : State) : State :=
  { s with dataOld := [], fetchOld := [], stale := staleSerialize s.stale, dataWrites := 0, fetchWrites := 0,
           srlzI := false, groupRegs := [] }

/-- The operands rfi and the inserts take from control registers: writes of earlier groups are observed, a write of the
same group may be (11_state_control_registers.md R82 note d). -/
def State.impliedCr (s : State) (n : Nat) : Word :=
  (pick s.sys (s.dataOld.take s.dataWrites) (Config.freeNat (.cr 200 n) s.tick)).getCr n

end Machine
end Sys2Proof
end

