-- ==== Sys2Proof/Machine/Operands.lean ====
section
/-!
DEFINITION. The operands: general registers with their banks and NaT bits, floating-point, predicate, branch and application
registers, immediates, base updates (10_state.md R22 to R33, 30_encoding.md R314, 43_memory_instructions.md R423).
-/
namespace Sys2Proof
namespace Machine

/-- Whether a register number is banked (10_state.md R23). -/
def banked (r : BitVec 7) : Bool := decide (16 ≤ r.toNat) && decide (r.toNat < 32)

/-- The physical place of a general register: bank 0 of GR16 to GR31 lies above the 128 others (10_state.md R23). -/
def grIndex (bn : Bool) (r : BitVec 7) : Nat := if banked r && !bn then r.toNat + 112 else r.toNat

/-- Read a general register; GR0 is 0 with NaT 0 (10_state.md R22). -/
def State.getGr (s : State) (r : BitVec 7) : GReg :=
  if r = 0 then { val := 0, nat := false } else rd s.gr (grIndex (s.psrNow Psr.bn) r) { val := 0, nat := false }

/-- Write a general register; a write to GR0 is discarded here and is an Illegal Operation fault before (10_state.md R22). -/
def State.setGr (s : State) (r : BitVec 7) (g : GReg) : State :=
  if r = 0 then s else { s with gr := wr s.gr (grIndex (s.psrNow Psr.bn) r) g }

/-- Write a value with NaT 0. -/
def State.setVal (s : State) (r : BitVec 7) (v : Word) : State := s.setGr r { val := v, nat := false }

/-- The value of a general register. -/
def State.val (s : State) (r : BitVec 7) : Word := (s.getGr r).val
/-- The NaT bit of a general register. -/
def State.nat (s : State) (r : BitVec 7) : Bool := (s.getGr r).nat

/-- Read a floating-point register; FR0 is +0.0 and FR1 is +1.0 (10_state.md R28). -/
def State.getFr (s : State) (f : BitVec 7) : FWord :=
  if f = 0 then Config.frZero else if f = 1 then Config.frOne else rd s.fr f.toNat 0

/-- Write a floating-point register and set PSR.mfl or PSR.mfh (10_state.md R42, R43). -/
def State.setFr (s : State) (f : BitVec 7) (v : FWord) : State :=
  if f.toNat < 2 then s else
    ({ s with fr := wr s.fr f.toNat v } : State).mapSys (Sys.onPsr (markFpWritten f))

/-- CFM.rrb.pr (10_state.md R32). -/
def rrbPr (cfm : BitVec 38) : BitVec 6 := cfm.extractLsb' 32 6

/-- The physical predicate of a number: PR16 to PR63 rotate (10_state.md R29; log entry 10). -/
def prIndex (cfm : BitVec 38) (p : BitVec 6) : Nat :=
  if p.toNat < 16 then p.toNat else 16 + (p.toNat - 16 + (rrbPr cfm).toNat) % 48

/-- Read a predicate register; PR0 is 1 (10_state.md R29). -/
def State.pred (s : State) (p : BitVec 6) : Bool := decide (p = 0) || s.pr.getLsbD (prIndex s.cfm p)

/-- Read a branch register. -/
def State.getBr (s : State) (b : BitVec 3) : Word := rd s.br b.toNat 0

/-! Application registers (10_state.md R33). -/
namespace Ar
abbrev rsc : Nat := 16
abbrev csd : Nat := 25
abbrev ccv : Nat := 32
abbrev unat : Nat := 36
abbrev itc : Nat := 44
abbrev pfs : Nat := 64
abbrev lc : Nat := 65
abbrev ec : Nat := 66
end Ar

/-- The application registers that 10_state.md R33 names; the others are reserved (log entry 12). -/
def arNamed (n : Nat) : Bool :=
  decide (n < 8) || [16, 17, 18, 19, 21, 24, 25, 26, 27, 28, 29, 30, 32, 36, 40, 44, 64, 65, 66].contains n

/-- Read an application register; ITC is held with the serializable resources. -/
def State.getAr (s : State) (n : Nat) : Word :=
  if n = Ar.itc then (s.dview (.itc 0)).itc else rd s.ar n 0

/-- Write an application register: implicitly serialized, but for ITC (70_reset_and_hazards.md R552). -/
def State.setAr (s : State) (n : Nat) (v : Word) : State :=
  if n = Ar.itc then s.pushSys fun y => { y with itc := v } else { s with ar := wr s.ar n v }

/-- PFS.pfm (PRESUMED layout, log entry 11). -/
def pfsPfm (pfs : Word) : BitVec 38 := field pfs 0 38
/-- PFS.pec (PRESUMED layout, log entry 11). -/
def pfsPec (pfs : Word) : BitVec 6 := field pfs 52 6
/-- PFS.ppl (PRESUMED layout, log entry 11). -/
def pfsPpl (pfs : Word) : BitVec 2 := field pfs 62 2
/-- RSC.mode (PRESUMED position, log entry 11). -/
def rscMode (rsc : Word) : BitVec 2 := field rsc 0 2

/-! Immediates. -/

/-- A sign-extended immediate. -/
def simm {n : Nat} (i : BitVec n) : Word := i.signExtend 64
/-- The fetchadd increment s : i2b: ±16, ±8, ±4, ±1 (30_encoding.md R312). -/
def fetchInc (inc : BitVec 3) : Word :=
  let mag : Word := match (inc.extractLsb' 0 2).toNat with | 0 => 16 | 1 => 8 | 2 => 4 | _ => 1
  if inc.getLsbD 2 then 0 - mag else mag
/-- The target of a 25-bit displacement, counted in bundles (43_memory_instructions.md R444). -/
def dispTarget (ip : Word) (imm : BitVec 21) : Word := ip + (simm imm <<< 4)

/-- The base update of a memory form: nothing, a register, an immediate, a size (43_memory_instructions.md R423). -/
inductive BaseUpd where
  | none
  | reg (r2 : BitVec 7)
  | imm (i : Word)
  deriving DecidableEq, Repr

/-- The new base: the sum, with the NaT bit of either operand. -/
def updatedBase (s : State) (r3 : BitVec 7) : BaseUpd → GReg
  | .none => s.getGr r3
  | .reg r2 => { val := s.val r3 + s.val r2, nat := s.nat r3 || s.nat r2 }
  | .imm i => { val := s.val r3 + i, nat := s.nat r3 }

/-- Perform the base update; the value comes from the state before the instruction wrote anything. -/
def State.updBase (s0 : State) (r3 : BitVec 7) (u : BaseUpd) (s : State) : State :=
  match u with
  | .none => s
  | _ => s.setGr r3 (updatedBase s0 r3 u)

/-- 32-bit pointer formation: bits 62:61 from the base, the 32-bit sum below (20_memory.md R148). -/
def addp4Val (off base : Word) : Word :=
  ((field base 30 2).setWidth 64 <<< 61) ||| ((off + base).setWidth 32).setWidth 64

end Machine
end Sys2Proof
end

