-- ==== Sys2Proof/Machine/Tlb.lean ====
section
/-!
DEFINITION. Translation: unimplemented addresses, the TLB and its entries, access rights, protection keys, the VHPT and its
walker, inserts and purges (20_memory.md, 21_memory_translation.md, 42_translation_instructions.md).
-/
namespace Sys2Proof
namespace Machine

/-- The two TLBs. -/
inductive Side where
  | instr | data
  deriving DecidableEq, Repr

/-- The virtual region number, VA{63:61} (20_memory.md R144). -/
def vrnOf (va : Word) : BitVec 3 := field va 61 3
/-- The offset in the region, VA{60:0}. -/
def offOf (va : Word) : BitVec 61 := field va 0 61

/-- An unimplemented virtual address: bits above the most significant implemented one differ from it
(20_memory.md R153, R155). When bits 60:50 are all equal no implementation calls it so. -/
def unimplVa (vm : Bool) (va : Word) : Bool :=
  if field va 50 11 = 0 ∨ field va 50 11 = BitVec.allOnes 11 then false
  else
    let m := if vm then Config.implVaMsb - 1 else Config.implVaMsb
    (List.range 61).any fun i => decide (m < i) && (bit va i != bit va m)

/-- An unimplemented physical address (20_memory.md R152). -/
def unimplPa (a : Word) : Bool :=
  if field a 32 31 = 0 then false
  else (List.range 63).any fun i => decide (Config.implPaMsb < i) && bit a i

/-- The page sizes every processor can insert (21_memory_translation.md R245). -/
def stdInsertable (ps : Nat) : Bool := [12, 13, 14, 16, 18, 20, 22, 24, 26, 28].contains ps
/-- PAGE_SIZES_INSERTABLE; no page is smaller than 4K or larger than a region. -/
def insertable (ps : Nat) : Bool :=
  stdInsertable ps || (decide (12 < ps) && decide (ps ≤ 60) && Config.extraInsertable ps)
/-- PAGE_SIZES_PURGEABLE (21_memory_translation.md R245). -/
def purgeable (ps : Nat) : Bool :=
  insertable ps || decide (ps = 32) || (decide (12 < ps) && decide (ps ≤ 60) && Config.extraPurgeable ps)

/-- VHPT_WALKER_PAGE_SIZES, a part of the insertable sizes (21_memory_translation.md R275). -/
def walkerSupports (ps : Nat) : Bool := insertable ps && Config.walkerPageSizeRaw ps

/-- RR.ve. -/
def rrVe (rr : Word) : Bool := bit rr 0
/-- RR.ps. -/
def rrPs (rr : Word) : Nat := (field rr 2 6).toNat
/-- RR.rid. -/
def rrRid (rr : Word) : BitVec 24 := field rr 8 24
/-- The region register of an address. -/
def Sys.rrOf (y : Sys) (va : Word) : Word := rd y.rr (vrnOf va).toNat 0

/-- The entry maps the region offset. -/
def TlbEntry.covers (e : TlbEntry) (off : BitVec 61) : Bool :=
  decide (e.base.toNat >>> e.ps.toNat = off.toNat >>> e.ps.toNat)
/-- The entry translates a reference (21_memory_translation.md R285). -/
def TlbEntry.hits (e : TlbEntry) (rid : BitVec 24) (va : Word) : Bool :=
  decide (e.rid = rid) && e.covers (offOf va) && (decide (e.vrn = vrnOf va) || !Config.vrnMatching)
/-- Overlap of an entry with a range; the VRN takes no part (21_memory_translation.md R229). -/
def TlbEntry.overlaps (e : TlbEntry) (rid : BitVec 24) (off : BitVec 61) (ps : Nat) : Bool :=
  decide (e.rid = rid) && decide (e.base.toNat >>> max e.ps.toNat ps = off.toNat >>> max e.ps.toNat ps)

/-- The translation registers of a side. -/
def Sys.trs (y : Sys) : Side → Vector (Option TlbEntry) 256
  | .instr => y.itr
  | .data => y.dtr
/-- The translation cache of a side. -/
def Sys.tc (y : Sys) : Side → List TlbEntry
  | .instr => y.itcTlb
  | .data => y.dtcTlb
/-- The other side. -/
def Side.other : Side → Side
  | .instr => .data
  | .data => .instr
/-- Replace a translation cache. -/
def Sys.setTc (y : Sys) (side : Side) (l : List TlbEntry) : Sys :=
  match side with
  | .instr => { y with itcTlb := l }
  | .data => { y with dtcTlb := l }
/-- Replace the translation registers of a side. -/
def Sys.setTrs (y : Sys) (side : Side) (v : Vector (Option TlbEntry) 256) : Sys :=
  match side with
  | .instr => { y with itr := v }
  | .data => { y with dtr := v }

/-- The entries that translate an address (21_memory_translation.md R285, R228). That a cache entry of the other side counts
beside a translation register that hits, so that the reference is refused, is R285's text; no entry takes precedence
(DESIGN CHOICE, log entry 51). -/
def Sys.lookup (y : Sys) (side : Side) (rid : BitVec 24) (va : Word) : List TlbEntry :=
  ((y.trs side).toList.filterMap id).filter (fun e => e.hits rid va) ++
    (y.tc side).filter (fun e => e.hits rid va) ++
    (y.tc side.other).filter (fun e => e.hits rid va && Config.tcUnified)

/-- The physical address a hit gives (21_memory_translation.md R247). -/
def TlbEntry.pa (e : TlbEntry) (va : Word) : Nat :=
  ((e.ppn.toNat * 4096) >>> e.ps.toNat) * 2 ^ e.ps.toNat + va.toNat % 2 ^ e.ps.toNat

/-! Access rights and keys. -/

/-- The kinds of access a page grants. -/
inductive Acc where
  | r | w | x
  deriving DecidableEq, Repr

/-- Table 4-3 as a function: rights ar at page level pl for an access of level c (21_memory_translation.md R238, R239). -/
def rights (ar : BitVec 3) (pl c : BitVec 2) (k : Acc) : Bool :=
  let inside := decide (c.toNat ≤ pl.toNat)
  let zero := decide (c = 0)
  let strict := decide (c.toNat < pl.toNat) || zero && decide (pl = 0)
  match ar.toNat, k with
  | 0, .r => inside
  | 0, _ => false
  | 1, .r => inside
  | 1, .x => inside
  | 1, .w => false
  | 2, .r => inside
  | 2, .w => inside
  | 2, .x => false
  | 3, _ => inside
  | 4, .r => inside
  | 4, .w => strict
  | 4, .x => false
  | 5, .r => inside
  | 5, .x => inside
  | 5, .w => zero
  | 6, .r => inside
  | 6, .w => inside
  | 6, .x => inside && !strict
  | _, .r => zero
  | _, .x => true
  | _, .w => false

/-- PKR.v, wd, rd, xd. -/
def pkrValid (w : Word) : Bool := bit w 0
/-- PKR.key. -/
def pkrKey (w : Word) : BitVec 24 := field w 8 24
/-- The protection key register disables the access (21_memory_translation.md R250). -/
def pkrDisables (w : Word) : Acc → Bool
  | .w => bit w 1
  | .r => bit w 2
  | .x => bit w 3
/-- The valid protection key registers with a key. -/
def matchingPkrs (pkr : Vector Word 256) (key : BitVec 24) : List Word :=
  pkr.toList.filter fun w => pkrValid w && decide (pkrKey w = key)

/-! What a reference sees. -/

/-- The views one search uses: each resource, and each register of a file, is read on its own, and the search reads it once
(70_reset_and_hazards.md R556). -/
structure TransView where
  rr : Vector Word 8
  tlb : Sys
  pkr : Vector Word 256
  dbr : List Word
  pta : Word
  dcr : Word
  dt : Bool
  it : Bool
  ic : Bool
  pk : Bool
  db : Bool
  da : Bool
  vm : Bool

/-- The region register of an address in a view. -/
def TransView.rrOf (v : TransView) (va : Word) : Word := rd v.rr (vrnOf va).toNat 0

/-- The views of a data-side search; n tells the searches of one instruction apart, and 100 + n is the walker's own view. -/
def State.dataView (s : State) (n : Nat) : TransView :=
  { rr := pickFile s.sys s.dataOld (·.rr) (.rr (20 + n)) s.tick, tlb := s.dview (.tlb n)
    pkr := pickFile s.sys s.dataOld (·.pkr) (.pkr n) s.tick
    dbr := (pickFile s.sys s.dataOld (·.dbr) (.dbr n) s.tick).toList, pta := s.dcr 8 (20 + n), dcr := s.dcr 0 (20 + n)
    dt := s.dpsr Psr.dt (20 + n), it := s.psrNow Psr.it, ic := s.dpsr Psr.ic (20 + n), pk := s.dpsr Psr.pk (20 + n)
    db := s.dpsr Psr.db (20 + n), da := s.psrNow Psr.da, vm := s.vm }

/-- The views of a fetch; n tells its searches apart, and 100 + n is the walker's own view. -/
def State.fetchView (s : State) (n : Nat) : TransView :=
  { rr := pickFile s.sys s.fetchOld (·.rr) (.fRr n) s.tick, tlb := s.fview (.fTlb n)
    pkr := pickFile s.sys s.fetchOld (·.pkr) (.fPkr n) s.tick
    dbr := (pickFile s.sys s.dataOld (·.dbr) (.dbr (500 + n)) s.tick).toList, pta := s.fcr 8 n, dcr := s.fcr 0 n
    dt := s.fpsr Psr.dt (20 + n), it := s.psrNow Psr.it, ic := s.fpsr Psr.ic (20 + n), pk := s.fpsr Psr.pk (20 + n)
    db := s.fpsr Psr.db (20 + n), da := s.psrNow Psr.da, vm := s.vm }

/-! Memory attributes and the caches. -/

/-- The memory attribute of a reference (20_memory.md R161, R163). -/
inductive Attr where
  | wb | wc | uc | uce | natPage | wbl
  deriving DecidableEq, Repr

/-- The attribute of ma; the reserved encodings never enter a TLB and count as uncacheable. -/
def attrOf (ma : BitVec 3) : Attr :=
  match ma.toNat with
  | 0 => .wb | 6 => .wc | 5 => .uce | 7 => .natPage | _ => .uc

/-- Cacheable with write-back policy, the only pages semaphores work on (20_memory.md R207). -/
def Attr.writeBack : Attr → Bool
  | .wb | .wbl => true
  | _ => false
/-- The coherence class of an attribute; Table 4-10 counts NaTPage among the cacheable ones (20_memory.md R161, R163). -/
def Attr.coherence : Attr → Coherence
  | .wb | .wbl | .natPage => .cached
  | .wc => .coalesced
  | .uc | .uce => .uncached
/-- Pages a cache may hold (20_memory.md R164). -/
def Attr.cacheable (attr : Attr) : Bool := decide (attr.coherence = .cached)
/-- Non-speculative pages (20_memory.md R181). -/
def Attr.nonSpeculative : Attr → Bool
  | .uc | .uce => true
  | _ => false
/-- A live translation maps a byte of the range with the other cacheability (20_memory.md R162). -/
def TlbEntry.aliases (e : TlbEntry) (attr : Attr) (pa n : Nat) : Bool :=
  e.p && ((attrOf e.ma).cacheable != attr.cacheable) && rangesOverlap (e.pa 0) (2 ^ e.ps.toNat) pa n

/-- The bytes are mapped with another cacheability, or a line of them was used with an attribute that is not coherent with this
one and not flushed since: undefined (20_memory.md R161, R162, R211; 70_reset_and_hazards.md R562, 17; log entry 56). -/
def State.aliased (s : State) (attr : Attr) (pa n : Nat) : Bool :=
  (s.sys.itcTlb ++ s.sys.dtcTlb).any (·.aliases attr pa n) ||
  (s.sys.itr.toList ++ s.sys.dtr.toList).any (fun o => match o with | some e => e.aliases attr pa n | none => false) ||
  usedOtherwise s.lines attr.coherence pa n

/-- An access uses its lines with the coherence class of its page. -/
def State.touch (s : State) (attr : Attr) (pa n : Nat) : State :=
  { s with lines := useLines s.lines attr.coherence pa n }

/-! The VHPT. -/

/-- PTA.ve, size, vf, base (11_state_control_registers.md R101). -/
def ptaVe (pta : Word) : Bool := bit pta 0
def ptaSize (pta : Word) : Nat := (field pta 2 6).toNat
def ptaVf (pta : Word) : Bool := bit pta 8
def ptaBase (pta : Word) : Word := pta &&& 0xFFFFFFFFFFFF8000

/-- VA{IMPL_VA_MSB:0}. -/
def implOff (va : Word) : Nat :=
  if va.toNat < 2 ^ 51 then va.toNat else va.toNat % 2 ^ (Config.implVaMsb + 1)

/-- The hash page number VA{IMPL_VA_MSB:0} u>> RR.ps (21_memory_translation.md R265). -/
def hpn (rr va : Word) : Nat := implOff (va &&& 0x1FFFFFFFFFFFFFFF) >>> rrPs rr

/-- A table address from its region bits, the table base and the offset of the entry (21_memory_translation.md R264, R265). -/
def vhptAddrOf (region : BitVec 3) (pta : Word) (offset : Nat) : Word :=
  let mask : Word := BitVec.ofNat 64 (2 ^ ptaSize pta - 1)
  let off : Word := BitVec.ofNat 64 offset
  ((region.setWidth 64) <<< 61) |||
    (((ptaBase pta &&& ~~~mask) ||| (off &&& mask)) &&& 0x1FFFFFFFFFFF8000) ||| (off &&& 0x7FFF)

/-- The address of the VHPT entry of an address: short format R264, long format R265; what thash and IHA give. -/
def vhptAddr (pta rr va : Word) : Word :=
  if ptaVf pta then vhptAddrOf (vrnOf pta) pta (Config.hashLong (hpn rr va) (rrRid rr).toNat * 32)
  else vhptAddrOf (vrnOf va) pta (hpn rr va * 8)

/-- The long-format tag of an address, bit 63 zero (21_memory_translation.md R266). -/
def vhptTag (rr va : Word) : Word := (Config.tagLong (hpn rr va) (rrRid rr).toNat).setWidth 64

/-- Reserved bits or attributes in the first word of a present translation (21_memory_translation.md R233). -/
def pteReserved (pte : Word) : Bool :=
  bit pte 1 || bit pte 50 || bit pte 51 || [1, 2, 3].contains (field pte 2 3).toNat
/-- The physical page number names unimplemented bits. -/
def ppnUnimpl (pte : Word) : Bool := unimplPa (pte &&& 0x3FFFFFFFFF000)
/-- Key bits above KEY_BITS; the low 18 always exist. -/
def keyUnimpl (key : BitVec 24) : Bool :=
  decide (2 ^ 18 ≤ key.toNat) && decide (2 ^ Config.keyBits ≤ key.toNat)
/-- Region identifier bits above RID_BITS; the low 18 always exist. -/
def ridUnimpl (rid : BitVec 24) : Bool :=
  decide (2 ^ 18 ≤ rid.toNat) && decide (2 ^ Config.ridBits ≤ rid.toNat)

/-- The entry an insertion format describes (21_memory_translation.md R232): the first word, page size, key, region
identifier, virtual address. -/
def mkEntry (pte : Word) (ps : Nat) (key rid : BitVec 24) (va : Word) : TlbEntry :=
  { rid := rid, vrn := vrnOf va
    base := BitVec.ofNat 61 ((offOf va).toNat >>> ps * 2 ^ ps)
    ps := BitVec.ofNat 6 ps, p := bit pte 0, ma := field pte 2 3, a := bit pte 5, d := bit pte 6
    pl := field pte 7 2, ar := field pte 9 3
    ppn := BitVec.ofNat 38 ((field pte 12 38).toNat >>> (ps - 12) * 2 ^ (ps - 12))
    ed := bit pte 52, key := key }

/-- Keep the entries that do not overlap; the others go, or for `may` go by a free bit (21_memory_translation.md R231). -/
def purgeList (l : List TlbEntry) (rid : BitVec 24) (off : BitVec 61) (ps : Nat) : List TlbEntry :=
  l.filter fun e => !e.overlaps rid off ps
/-- A "may purge": each overlapping entry goes or stays (21_memory_translation.md R231); in a unified cache it goes, since it
would be a second match of every reference (21_memory_translation.md R285; DESIGN CHOICE, log entry 51). -/
def mayPurgeList (l : List TlbEntry) (rid : BitVec 24) (off : BitVec 61) (ps tick : Nat) : List TlbEntry :=
  l.filter fun e => !(e.overlaps rid off ps && (Config.tcUnified || Config.freeBit (.mayPurge e.base.toNat) tick))
/-- The TRs that overlap. -/
def trOverlaps (v : Vector (Option TlbEntry) 256) (rid : BitVec 24) (off : BitVec 61) (ps : Nat) : Bool :=
  v.toList.any fun o => match o with | some e => e.overlaps rid off ps | none => false
/-- The TRs without those that overlap. -/
def purgeTrs (v : Vector (Option TlbEntry) 256) (rid : BitVec 24) (off : BitVec 61) (ps : Nat) :
    Vector (Option TlbEntry) 256 :=
  v.map fun o => match o with
    | some e => if e.overlaps rid off ps then none else some e
    | none => none

/-- The number of entries of a translation cache. -/
def tcSize : Side → Nat
  | .instr => Config.numItcEntries
  | .data => Config.numDtcEntries

/-- Room for one more entry in a cache of n: which entry a full cache gives up is free (21_memory_translation.md R225). -/
def tcRoom (n tick : Nat) (l : List TlbEntry) : List TlbEntry :=
  match l with
  | [] => []
  | e :: t => if t.length + 1 < n then e :: t else ((e :: t).eraseIdx (Config.freeNat .replaceTc tick % (t.length + 1))).take (n - 1)

/-- What an insert purges first: the cache entries of its side that overlap go, those of the other side may
(21_memory_translation.md R231). -/
def Sys.purgeForInsert (tick : Nat) (side : Side) (e : TlbEntry) (y : Sys) : Sys :=
  (y.setTc side.other (mayPurgeList (y.tc side.other) e.rid e.base e.ps.toNat tick)).setTc side
    (purgeList (y.tc side) e.rid e.base e.ps.toNat)

/-- Insert into a translation cache, after the purges (21_memory_translation.md R231). -/
def Sys.insertTc (tick : Nat) (side : Side) (e : TlbEntry) (y : Sys) : Sys :=
  let z := y.purgeForInsert tick side e
  z.setTc side (e :: tcRoom (tcSize side) tick (z.tc side))

/-- Insert into a translation register, after the purges (21_memory_translation.md R231). -/
def Sys.insertTr (tick : Nat) (side : Side) (n : Nat) (e : TlbEntry) (y : Sys) : Sys :=
  let z := y.purgeForInsert tick side e
  z.setTrs side (wr (z.trs side) n (some e))

/-- The platform has the attribute: WC and UCE by its choice, the others always (20_memory.md R162; log entry 56). -/
def platformSupports (ma : BitVec 3) : Bool :=
  match ma.toNat with
  | 6 => Config.platformHas true
  | 5 => Config.platformHas false
  | _ => true

/-- What a search ends in: an entry (and the state, into which a walk may have inserted), a miss of one of the three kinds,
or a refusal. -/
inductive Search where
  | found (e : TlbEntry) (s : State)
  | alternate
  | vhptFault (iha : Word)
  | miss (s : State)
  | refuse (r : Refusal)

/-- The walker's own reference would fault on this entry, or the table page is not cacheable (21_memory_translation.md R271). -/
def walkBlocked (v : TransView) (t : TlbEntry) : Bool :=
  !t.p || decide (t.ma ≠ 0) || (!t.a && !v.da) ||
    (v.pk && (matchingPkrs v.pkr t.key).all (fun w => pkrDisables w .r))

/-- Read an 8-byte word of a table entry in the walker's byte order (21_memory_translation.md R270). -/
def vhptWord (s : State) (dcr : Word) (pa : Nat) : Word := BitVec.ofNat 64 (readBytes (bit dcr 1) s.mem pa 8)

/-- Another region register uses the same region identifier with another preferred page size (21_memory_translation.md R267
rule 1). A register whose page size no processor could have taken from software, as after reset, uses none
(DESIGN CHOICE, log entry 29). -/
def twoPageSizes (v : TransView) (rr : Word) : Bool :=
  v.rr.toList.any fun r => decide (rrRid r = rrRid rr) && decide (rrPs r ≠ rrPs rr) && insertable (rrPs r)

/-- The machine check a walk into an overlapped translation register may raise must be raised, unless the lookups match the
region number and the register's differs (21_memory_translation.md R231). -/
def walkClashMust (v : Vector (Option TlbEntry) 256) (e : TlbEntry) : Bool :=
  !Config.vrnMatching || v.toList.any fun o =>
    match o with
    | some x => x.overlaps e.rid e.base e.ps.toNat && decide (x.vrn = e.vrn)
    | none => false

/-- A walk's entry that overlaps a translation register of its side: the insert is free, a machine check is owed where it is
required and free elsewhere (21_memory_translation.md R231; log entry 29). -/
def walkClash (s : State) (side : Side) (e : TlbEntry) : Search :=
  let s1 : State :=
    { s with mcOwed := s.mcOwed || walkClashMust (s.sys.trs side) e || Config.freeBit .mayMca s.tick }
  if Config.freeBit .mayInsert s.tick then .found e (s1.mapSys (Sys.insertTc s.tick side e)) else .miss s1

/-- Install what the table entry holds, if it may be installed (21_memory_translation.md R268, R231); a long-format
entry of a page smaller than the preferred one is refused (21_memory_translation.md R267 rule 3, 70_reset_and_hazards.md R562).
Of a long-format entry that is not present the page size is still checked, and against the preferred one too, but +8{1:0},
+8{63:32} and the key are not: R268 checks encodings only where p is 1, and R262 lets only +8{63:32} and +8{31:8} be ignored
(DESIGN CHOICE, log entry 29). -/
def walkInsert (s : State) (v : TransView) (side : Side) (va : Word) (pa : Nat) : Search :=
  let rr := v.rrOf va
  let w0 := vhptWord s v.dcr pa
  let w1 := vhptWord s v.dcr (pa + 8)
  let long := ptaVf v.pta
  let ps := if long then (field w1 2 6).toNat else rrPs rr
  let key : BitVec 24 := if long then field w1 8 24 else rrRid rr
  let badTag := long && decide (vhptWord s v.dcr (pa + 16) ≠ vhptTag rr va)
  let badSize := !insertable ps
  let badWord := bit w0 0 &&
    (pteReserved w0 || ppnUnimpl w0 ||
      (long && (decide (w1 &&& 0xFFFFFFFF00000003 ≠ 0) || keyUnimpl key)))
  let e := mkEntry w0 ps key (rrRid rr) va
  if badTag || badSize || badWord then .miss s
  else if long && decide (ps < rrPs rr) then .refuse .vhptRulesBroken
  else if e.p && !platformSupports e.ma then .refuse .platformAttribute
  else if trOverlaps (s.sys.trs side) e.rid e.base ps then walkClash s side e
  else .found e (s.mapSys (Sys.insertTc s.tick side e))

/-- The bytes of a table entry: 8 in the short, 32 in the long format (20_memory.md R142). -/
def vhptBytes (v : TransView) : Nat := if ptaVf v.pta then 32 else 8

/-- The walk of the VHPT for an address that missed, in the walker's view (21_memory_translation.md R268 to R273). A table that
is misaligned, and region registers that break the rules of the long format, are refused whether or not the walk would find its
entry (70_reset_and_hazards.md R562, 6, 11); with an unimplemented base every walk misses (11_state_control_registers.md R104;
log entry 29). The walker reads through the caches (20_memory.md R162, R211). An entry in an unpopulated range gives a miss, and
the Machine Check that is owed comes later: 20_memory.md R160 does not say what the walk gives before it (DESIGN CHOICE, log
entry 24). -/
def walk (s : State) (v : TransView) (side : Side) (va : Word) : Search :=
  let a := vhptAddr v.pta (v.rrOf va) va
  if ptaBase v.pta &&& BitVec.ofNat 64 (2 ^ ptaSize v.pta - 1) ≠ 0 then .refuse .vhptMisaligned
  else if unimplVa v.vm (ptaBase v.pta) then .miss s
  else if ptaVf v.pta && twoPageSizes v (v.rrOf va) then .refuse .vhptRulesBroken
  else if !Config.hasVhptWalker || !walkerSupports (rrPs (v.rrOf va)) || Config.freeBit .walkAbort s.tick then .miss s
  else if unimplVa v.vm a || (v.db && Config.dataBreak v.dbr a (vhptBytes v) true false 0) then .miss s
  else
    match v.tlb.lookup .data (rrRid (v.rrOf a)) a with
    | [] => .vhptFault a
    | [t] =>
      if walkBlocked v t then .miss s
      else if unpopulated s.holes (t.pa a) (vhptBytes v) then .miss { s with mcOwed := true }
      else if s.aliased .wb (t.pa a) (vhptBytes v) then .refuse .attributeAliasing
      else walkInsert (s.touch .wb (t.pa a) (vhptBytes v)) v side va (t.pa a)
    | _ => .refuse .multipleTlbMatch

/-- The walker is enabled for a reference (21_memory_translation.md R272). -/
def walkerEnabled (v : TransView) (side : Side) (va : Word) : Bool :=
  ptaVe v.pta && rrVe (v.rrOf va) && v.dt && (decide (side = .data) || (v.it && v.ic))

/-- The search for a translation, a walk included: v is the view of the reference, w the walker's
(21_memory_translation.md R280). -/
def searchTlb (s : State) (v w : TransView) (side : Side) (va : Word) : Search :=
  match v.tlb.lookup side (rrRid (v.rrOf va)) va with
  | [e] => .found e s
  | _ :: _ :: _ => .refuse .multipleTlbMatch
  | [] => if walkerEnabled w side va then walk s w side va else .alternate

end Machine
end Sys2Proof
end

