-- ==== Sys2Proof/Machine/Ops.lean ====
section
/-!
DEFINITION. The shared operations: taking an interruption and returning from one, completing an instruction with its traps,
taken branches, predication and the ordered fault checks (60_exceptions.md R500 to R505, 40_psr_instructions.md R343).
-/
namespace Sys2Proof
namespace Machine

/-- What distinguishes one interruption from another: its vector offset and ISR fields, the interruption registers its vector
writes (60_exceptions.md R501), whether it is one of the data TLB misses that PSR.ic = 0 turns into Data Nested TLB,
and whether ISR.code{3:0} or the whole code is left open. -/
structure Exc where
  off : Word
  code : BitVec 16 := 0
  x : Bool := false
  w : Bool := false
  r : Bool := false
  na : Bool := false
  sp : Bool := false
  dataMiss : Bool := false
  codeFree : BitVec 16 := 0
  ifa : Option Word := none
  itir : Option Word := none
  iim : Option Word := none
  iha : Option Word := none
  deriving DecidableEq, Repr

/-! The interruptions that need no reference (60_exceptions.md R476 to R482, R496, R503). -/
def excIllegalOperation : Exc := { off := 0x5400, code := 0x00 }
def excPrivilegedOperation : Exc := { off := 0x5400, code := 0x10 }
def excPrivilegedRegister : Exc := { off := 0x5400, code := 0x20 }
def excReservedField : Exc := { off := 0x5400, code := 0x30 }
def excDisabledIsa : Exc := { off := 0x5400, code := 0x40 }
/-- Disabled Floating-Point Register; the code names the low or the high set (60_exceptions.md R482). -/
def excDisabledFp (code : BitVec 16) : Exc := { off := 0x5500, code := code }
/-- Register NaT Consumption; w, r and na describe the instruction (60_exceptions.md R480); ISR.code{3:0} of a non-access
instruction is not given (91_not_in_source.md N13; log entry 32). -/
def excRegNat (w r na : Bool) : Exc :=
  { off := 0x5600, code := 0x10, w := w, r := r, na := na, codeFree := if na then 0xF else 0 }
/-- Unimplemented Data Address (60_exceptions.md R481). -/
def excUnimplData (va : Word) (w r na sp : Bool) : Exc :=
  { off := 0x5400, code := 0x30, w := w, r := r, na := na, sp := sp, ifa := some va, codeFree := if na then 0xF else 0 }
/-- Break Instruction with its immediate (60_exceptions.md R496). -/
def excBreak (imm : Word) : Exc := { off := 0x2C00, iim := some imm }
/-- Speculative Operation with its immediate and the code that tells the checks apart (60_exceptions.md R496,
43_memory_instructions.md R444). -/
def excSpeculation (imm : Word) (code : BitVec 16) : Exc := { off := 0x5700, code := code, iim := some imm }
/-- Virtualization: cause and opcode are implementation defined (60_exceptions.md R520; log entry 34). -/
def excVirtualization : Exc := { off := 0x6100, codeFree := 0xFFFF }
/-- External interrupt (60_exceptions.md R514). -/
def excExternal : Exc := { off := 0x3000 }
/-- Unimplemented Instruction Address fault at a fetch (60_exceptions.md R497). R497 gives code bits to the traps only: that the
fault has the trap's code bit 4, and ISR.x = 1 as the fault of a fetch, is the model's choice (DESIGN CHOICE, log entry 35). -/
def excUnimplInstr : Exc := { off := 0x5E00, code := trapCode false false false true, x := true }
/-- The traps of one delivery at the vector of the highest (60_exceptions.md R497). -/
def excTrap (lp tb ss uia : Bool) : Exc :=
  { off := if uia || lp then 0x5E00 else if tb then 0x5F00 else 0x6000, code := trapCode lp tb ss uia }

/-- A fault of a non-access instruction: ISR.na is 1 and ISR.code{3:0} is not given (20_memory.md R157, 60_exceptions.md R502;
91_not_in_source.md N13; log entries 32 and 54). -/
def Exc.nonAccess (e : Exc) : Exc := { e with na := true, codeFree := e.codeFree ||| 0xF }

/-- The address interruptions use as their table base is unimplemented (70_reset_and_hazards.md R562, 7). -/
def ivaBad (s : State) (iva : Word) : Bool :=
  if s.psrNow Psr.it then unimplVa false iva else unimplPa iva

/-- ISR.ed of the instruction being executed (11_state_control_registers.md R110). -/
def State.isrEd (s : State) : Bool := s.ctx.translated && s.ctx.ed

/-- A listed interruption register gets its value, any other gets a free one (60_exceptions.md R501; log entry 32). -/
def listedOr (v : Option Word) (c : Config.Site) (tick : Nat) : Word := v.getD (Config.freeWord c tick)

/-- ISR of an interruption (60_exceptions.md R502). -/
def excIsr (s : State) (e : Exc) (ei : BitVec 2) : Word :=
  let free : BitVec 16 := (Config.freeWord .undefCode s.tick).setWidth 16
  let code := if e.codeFree = 0 then e.code else (e.code &&& ~~~e.codeFree) ||| (free &&& e.codeFree)
  isrWord code e.x e.w e.r e.na e.sp (!s.icCollect e.x || s.icInFlight e.x) s.isrEd ei

/-- The interruption registers collected when PSR.ic is 1 (60_exceptions.md R500 step 1, R501). -/
def collect (s : State) (e : Exc) (iip : Word) (ri : BitVec 2) (y : Sys) : Sys :=
  let y1 := (y.setCr 16 (collectedPsr y.psr ri)).setCr 19 iip
  let y2 := (y1.setCr 22 s.lastBundle).setCr 23 (Config.freeWord .undefIfs s.tick &&& 0x3FFFFFFFFF)
  let y3 := (y2.setCr 20 (listedOr e.ifa .undefIfa s.tick)).setCr 21 (e.itir.getD (Config.freeWord .undefItir s.tick &&& 0xFFFFFFFC))
  (y3.setCr 24 (listedOr e.iim .undefIim s.tick)).setCr 25 (listedOr e.iha .undefIha s.tick &&& ~~~3#64)

/-- The resources after an interruption: the collected registers, ISR, the new PSR (60_exceptions.md R500). The copies of DCR.pp
and DCR.be are reads of the data side, certain after a data serialization: 11_state_control_registers.md R84 asks an
instruction serialization of DCR.be for the walks of instruction misses, and gives the copy no class (DESIGN CHOICE, log
entry 7). -/
def interruptSys (s : State) (e : Exc) (iip : Word) (ri ei : BitVec 2) (nested : Bool) : Sys :=
  let y := if s.icCollect e.x && !nested then collect s e iip ri s.sys else s.sys
  let y := if nested then y else y.setCr 17 (excIsr s e ei)
  y.onPsr (interruptPsr (bit (s.dcr 0 2) 1) (bit (s.dcr 0 1) 0))

/-- Data Nested TLB: a data TLB miss with PSR.ic 0 and not in flight (60_exceptions.md R487). -/
def isNested (s : State) (e : Exc) : Bool := e.dataMiss && !s.icCollect e.x && !s.icInFlight e.x

/-- TAKING AN INTERRUPTION (60_exceptions.md R500): iip and ri say where to restart, ei is the slot for ISR. -/
def deliver (s : State) (e : Exc) (iip : Word) (ri ei : BitVec 2) : Out :=
  let iva := s.fcr 2 3 &&& 0xFFFFFFFFFFFF8000
  if ivaBad s iva then .refused .ivaUnimplemented
  else
    let nested := isNested s e
    .next { s.serializeAll with
      sys := interruptSys s e iip ri ei nested
      ip := iva ||| (if nested then 0x1400 else e.off)
      slot := 0 }

/-- Raise a fault of the instruction being executed: it restarts (60_exceptions.md R471). -/
def raise (s : State) (e : Exc) : Out := deliver s e s.ip s.slot s.slot

/-- An instruction address is unimplemented (20_memory.md R158). -/
def unimplInstr (s : State) (ip : Word) : Bool :=
  if s.psrNow Psr.it then unimplVa s.vm ip else unimplPa ip

/-- The address IIP receives for an unimplemented instruction address (11_state_control_registers.md R112). -/
def uiaIip (s : State) (ip : Word) : Word :=
  if Config.iipUnimplTruncated then
    if s.psrNow Psr.it then
      let m := if s.vm then Config.implVaMsb - 1 else Config.implVaMsb
      let low : Word := BitVec.ofNat 64 (ip.toNat % 2 ^ (m + 1))
      let ext : Word := if bit ip m then low ||| ~~~(BitVec.ofNat 64 (2 ^ (m + 1) - 1)) else low
      setField ext 61 (vrnOf ip)
    else BitVec.ofNat 64 (ip.toNat % 2 ^ (Config.implPaMsb + 1)) ||| (ip &&& bitMask 63)
  else ip

/-- What every successful instruction does: it becomes the last one executed, when PSR.ic was 1 before it, the one-instruction
modifiers are cleared, and with PSR.ic = 1 the translation inserted last has served its purpose
(11_state_control_registers.md R116, 10_state.md R59, 21_memory_translation.md R226). -/
def retire (s0 s : State) : State :=
  let done := bit s.sys.psr Psr.ic
  ({ s with lastBundle := if s0.icRetire then s0.ip else s.lastBundle
            lastTc := if done then none else s.lastTc
            tcLost := if done then 0 else s.tcLost } : State).mapSys (Sys.onPsr clearOneShot)

/-- The slot a trap reports: the L+X instruction reports 2 (11_state_control_registers.md R110). -/
def trapSlot (s0 : State) : BitVec 2 := if s0.ctx.mlx then 2 else s0.slot

/-- Take the traps that apply after an instruction, or go on (60_exceptions.md R497, R505). -/
def withTraps (s0 s : State) (lp tb uia : Bool) : Out :=
  let ss := s0.psrNow Psr.ss
  if lp || tb || uia || ss then
    deliver s (excTrap lp tb ss uia) (if uia then uiaIip s s.ip else s.ip) s.slot (trapSlot s0)
  else .next s

/-- The last slot of a bundle. -/
def lastSlot (s0 : State) : Bool := decide (2 ≤ s0.slot.toNat) || s0.ctx.mlx

/-- The state after an instruction that does not branch: s0 before it, s after its effects (10_state.md R31). -/
def advanced (s0 s : State) : State :=
  let s1 := retire s0 s
  let s2 : State := { s1 with ip := if lastSlot s0 then s0.ip + 16 else s0.ip
                              slot := if lastSlot s0 then 0 else s0.slot + 1 }
  if s0.ctx.stopAfter then s2.endGroup else s2

/-- The bundle address that follows the last one of the address space: virtual 0, physical 0 with either value of bit 63. -/
def pastTop (s : State) (ip : Word) : Bool :=
  if s.psrNow Psr.it then decide (ip = 0) else decide (ip.toNat % 2 ^ 63 = 0)

/-- The Unimplemented Instruction Address trap of sequential flow: into an unimplemented address where that is a trap
(20_memory.md R158, D17), and past the last bundle of the address space, from which IP does not silently wrap (10_state.md R31),
where that is a trap or PSR.ss takes a trap at the same instruction (log entry 35). -/
def seqUia (s0 s : State) : Bool :=
  lastSlot s0 && ((unimplInstr s s.ip && Config.uiaAsTrap) || (pastTop s s.ip && (Config.uiaAsTrap || s0.psrNow Psr.ss)))

/-- COMPLETING AN INSTRUCTION that does not branch. Where sequential flow passes the last bundle and takes no trap, the fetch that
follows takes the Unimplemented Instruction Address fault (10_state.md R31, 20_memory.md R158; log entry 35). -/
def finish (s0 s : State) : Out :=
  let t := advanced s0 s
  if lastSlot s0 && pastTop t t.ip && !seqUia s0 t then
    deliver { t with ctx := Ctx.none } excUnimplInstr (uiaIip t t.ip) t.slot t.slot
  else withTraps s0 t false false (seqUia s0 t)

/-- The state after a taken branch: a new bundle, slot 0, a new instruction group. That a taken branch ends its group also
where no stop follows it is the model's choice (30_encoding.md R318; DESIGN CHOICE, log entry 38). -/
def branched (s0 s : State) (target : Word) : State :=
  ({ retire s0 s with ip := target &&& ~~~15#64, slot := 0 } : State).endGroup

/-- COMPLETING A TAKEN BRANCH to a target; lowered: it lowered the privilege level (60_exceptions.md R497). -/
def finishBranch (s0 s : State) (target : Word) (lowered : Bool) : Out :=
  let s1 := branched s0 s target
  withTraps s0 s1 (s0.dpsr Psr.lp && lowered) (s0.dpsr Psr.tb) (unimplInstr s1 s1.ip)

/-- Predication: with a false predicate the instruction does nothing and completes (30_encoding.md R317). -/
def predicated (qp : BitVec 6) (s : State) (k : Out) : Out := if s.pred qp then k else finish s s

/-- The first failing check is the fault taken (60_exceptions.md R505). -/
def guarded (s : State) (checks : List (Bool × Exc)) (k : Out) : Out :=
  match checks with
  | [] => k
  | (c, e) :: t => if c then raise s e else guarded s t k

/-- A check is a condition and the fault it raises. -/
abbrev Check := Bool × Exc

/-- The checks of a non-access instruction. -/
def naChecks (l : List Check) : List Check := l.map fun c => (c.1, c.2.nonAccess)

/-- The checks of a load: ISR.sp tells a control-speculative one (11_state_control_registers.md R110, 60_exceptions.md R502; log
entry 54). -/
def spChecks (sp : Bool) (l : List Check) : List Check := l.map fun c => (c.1, { c.2 with sp := sp })

/-- GR0 as a target (40_psr_instructions.md R335). -/
def chkTarget (r1 : BitVec 7) : Check := (decide (r1 = 0), excIllegalOperation)
/-- A privileged instruction at another level than 0 (60_exceptions.md R477). -/
def chkPriv (s : State) : Check := (decide (s.cpl ≠ 0), excPrivilegedOperation)
/-- A NaT source of an instruction that references no memory (60_exceptions.md R480). -/
def chkNat (s : State) (r : BitVec 7) : Check := (s.nat r, excRegNat false false false)
/-- A virtualized instruction with PSR.vm = 1 (60_exceptions.md R520). -/
def chkVirt (s : State) : Check := (s.vm, excVirtualization)
/-- A reserved field or register (60_exceptions.md R479). -/
def chkReserved (c : Bool) : Check := (c, excReservedField)
/-- Any Illegal Operation cause (60_exceptions.md R476). -/
def chkIllegal (c : Bool) : Check := (c, excIllegalOperation)

/-- RETURNING FROM AN INTERRUPTION: the whole PSR from IPSR, without ed and ia for IA-32 code (10_state.md R59 note l), CFM
from IFS when it is valid, IP and slot, everything serialized (40_psr_instructions.md R343). -/
def returned (s : State) : State :=
  let ipsr := s.impliedCr 16
  let ifs := s.impliedCr 23
  let iip := s.impliedCr 19
  let s1 := retire s s
  { s1.serializeAll with
    sys := s1.sys.onPsr (fun _ => if bit ipsr Psr.is then ipsr &&& ~~~(bitMask Psr.ed ||| bitMask Psr.ia) else ipsr)
    cfm := if bit ifs 63 then ifs.extractLsb' 0 38 else s.cfm
    ip := if bit ipsr Psr.is then (iip.setWidth 32).setWidth 64 else iip &&& ~~~15#64
    slot := if bit ipsr Psr.is then 0 else field ipsr Psr.riLo 2 }

/-- The traps of an rfi: that of an unimplemented address, where IIP may keep what it held, and the Single Step trap of an rfi
that is itself the restart instruction; no Taken Branch trap (11_state_control_registers.md R112, R113; 10_state.md R56, R59;
60_exceptions.md R497). -/
def rfiTraps (s0 s : State) (ss uia : Bool) : Out :=
  let iip := if uia then (if Config.rfiLeavesIip then s0.impliedCr 19 else uiaIip s s.ip) else s.ip
  deliver s (excTrap false false ss uia) iip s.slot (trapSlot s0)

/-- rfi after its checks. -/
def returnFromInterruption (s : State) : Out :=
  let t := returned s
  let uia := !t.psrNow Psr.is && unimplInstr t t.ip
  if uia || s.psrNow Psr.ss then rfiTraps s t (s.psrNow Psr.ss) uia else .next t

end Machine
end Sys2Proof
end

