-- ==== Sys2Proof/Machine/DataRef.lean ====
section
/-!
DEFINITION. The data reference procedure: faults in their order, deferral of speculative loads, memory attributes, the access
itself, the Processor Interrupt Block, the ALAT (43_memory_instructions.md R421, R440; 20_memory.md R141 to R163;
11_state_control_registers.md R87, R88; 60_exceptions.md R513).
-/
namespace Sys2Proof
namespace Machine

/-- Pages a control-speculative load may read (20_memory.md R182). -/
def Attr.speculative : Attr → Bool
  | .wb | .wc => true
  | _ => false

/-- Which pages support the access (20_memory.md R206 to R208). -/
inductive Support where
  | any | writeBackOnly | fetchadd | tenByte
  deriving DecidableEq, Repr

/-- A data reference: address, size, alignment; read and write permission (also ISR.r, ISR.w); whether the Dirty bit, and
whether breakpoints, alignment and support are checked; non-access, control-speculative, advanced; unaligned always
faults; supported pages; the aligned 16 bytes around the address are accessed; privilege level. -/
structure Ref where
  va : Word
  size : Nat
  align : Nat
  r : Bool := false
  w : Bool := false
  dirty : Bool := false
  chk : Bool := true
  na : Bool := false
  sp : Bool := false
  adv : Bool := false
  strict : Bool := false
  sup : Support := .any
  wide : Bool := false
  pl : BitVec 2
  deriving DecidableEq, Repr

/-- The data faults in priority order (21_memory_translation.md R284, 60_exceptions.md R505). -/
inductive DFault where
  | unimplemented | tlb | notPresent | natPage | keyMiss | keyPermission | accessRights | dirtyBit | accessBit | debug
  | unaligned | unsupported
  deriving DecidableEq, Repr

/-- The default ITIR of a translation fault: RR.ps and RR.rid of the region (21_memory_translation.md R283). -/
def defaultItir (rr : Word) : Word := rr &&& 0xFFFFFFFC

/-- The first byte a reference accesses. -/
def Ref.first (ref : Ref) : Word := if ref.wide then ref.va &&& ~~~15#64 else ref.va

/-- A fault of a reference: its vector and code, with IFA and ITIR; non-access faults leave ISR.code{3:0} open. -/
def refExc (ref : Ref) (off : Word) (code : BitVec 16) (itir : Option Word) : Exc :=
  { off := off, code := code, w := ref.w, r := ref.r, na := ref.na, sp := ref.sp, ifa := some ref.va, itir := itir
    codeFree := if ref.na then 0xF else 0 }

/-- IHA of a miss from the PTA and region register it reads: the entry address, undefined if it is unimplemented or no walker
exists (60_exceptions.md R501). -/
def ihaOf (vm : Bool) (pta rr va : Word) : Option Word :=
  let a := vhptAddr pta rr va
  if unimplVa vm a || !Config.hasVhptWalker then none else some a

/-- The region register that ITIR of a data-side fault reports, read on its own: the search may have seen another value
(10_state.md R64, 70_reset_and_hazards.md R556). -/
def State.faultRr (s : State) (va : Word) : Word := s.rrAt (vrnOf va).toNat 400

/-- IHA of a data-side miss, from reads of its own (10_state.md R64). -/
def State.faultIha (s : State) (va : Word) : Option Word := ihaOf s.vm (s.dcr 8 401) (s.rrAt (vrnOf va).toNat 401) va

/-- A miss of the three kinds: the vector, the ITIR and IHA it writes (60_exceptions.md R484). -/
def missExc (ref : Ref) (off : Word) (itir : Word) (iha : Option Word) : Exc :=
  { refExc ref off 0 (some itir) with dataMiss := true, iha := iha }

/-- The faults of the breakpoint, alignment and support checks (20_memory.md R143, R206 to R208). -/
def lateFaults (s : State) (v : TransView) (ref : Ref) (attr : Attr) : List (DFault × Bool × Exc) :=
  let unaligned := decide (ref.va.toNat % ref.align ≠ 0)
  let crosses := decide (16 < ref.va.toNat % 16 + ref.size)
  let unsupported : Bool :=
    match ref.sup with
    | .any => false
    | .writeBackOnly => !attr.writeBack
    | .fetchadd => !attr.writeBack && (decide (attr ≠ .uce) || !Config.supportsUce)
    | .tenByte => !attr.writeBack && !Config.supportsLdfeUncached
  [(.debug, v.db && !s.psrNow Psr.dd && Config.dataBreak v.dbr ref.first ref.size ref.r ref.w ref.pl,
      refExc ref 0x5900 0 none),
   (.unaligned, unaligned && (ref.strict || s.dpsr Psr.ac || crosses || Config.ac0MisalignedFaults ref.va ref.size),
      refExc ref 0x5A00 0 none),
   (.unsupported, unsupported, refExc ref 0x5B00 0 none)]

/-- The checks of a found translation, in the order of Figure 4-16 (21_memory_translation.md R284). -/
def pageFaults (s : State) (v : TransView) (ref : Ref) (e : TlbEntry) : List (DFault × Bool × Exc) :=
  let rr := s.faultRr ref.va
  let itir := some (defaultItir rr)
  let keys := matchingPkrs v.pkr e.key
  let denied := fun (w : Word) => (ref.r && pkrDisables w .r) || (ref.w && pkrDisables w .w)
  let noRights := (ref.r && !rights e.ar e.pl ref.pl .r) || (ref.w && !rights e.ar e.pl ref.pl .w)
  let da := s.psrNow Psr.da
  [(.notPresent, !e.p, refExc ref 0x5000 0 itir),
   (.natPage, decide (e.ma = 7), refExc ref 0x5600 0x20 itir),
   (.keyMiss, v.pk && keys.isEmpty,
      refExc ref 0x1C00 0 (some ((defaultItir rr &&& 0xFC) ||| ((e.key.setWidth 64) <<< 8)))),
   (.keyPermission, v.pk && keys.any denied, refExc ref 0x5100 0 itir),
   (.accessRights, noRights, refExc ref 0x5300 0 itir),
   (.dirtyBit, ref.dirty && !e.d && !da, refExc ref 0x2000 0 itir),
   (.accessBit, !e.a && !da, refExc ref 0x2800 0 itir)]

/-- The failing checks, in order. -/
def failing (l : List (DFault × Bool × Exc)) : List (DFault × Exc) :=
  l.filterMap fun (k, c, e) => if c then some (k, e) else none

/-- A reference with its translation: the failing checks, the physical address and attribute, the state (a walk may have
inserted), or a refusal. -/
structure Checked where
  faults : List (DFault × Exc)
  pa : Nat
  attr : Attr
  st : State

/-- A reference that has no translation: its fault, then the breakpoint check (11_state_control_registers.md R87). -/
def noTranslation (s : State) (v : TransView) (ref : Ref) (k : DFault) (e : Exc) : Checked :=
  { faults := (k, e) :: (failing (lateFaults s v ref .wb)).filter (fun p => decide (p.1 = .debug) && ref.chk)
    pa := 0, attr := .wb, st := s }

/-- The breakpoint, alignment and support checks of a reference that is to have them. -/
def Ref.late (s : State) (v : TransView) (ref : Ref) (attr : Attr) : List (DFault × Bool × Exc) :=
  if ref.chk then lateFaults s v ref attr else []

/-- What the search for its translation makes of a reference: the miss it takes, or the checks of the page found. -/
def afterSearch (s : State) (v : TransView) (ref : Ref) : Search → Except Refusal Checked
  | .refuse r => .error r
  | .alternate =>
    .ok (noTranslation s v ref .tlb
      (missExc ref 0x1000 (defaultItir (s.faultRr ref.va)) (if Config.altMissWritesIha then s.faultIha ref.va else none)))
  | .vhptFault a => .ok (noTranslation s v ref .tlb (missExc ref 0x0000 (defaultItir (s.faultRr a)) (some a)))
  | .miss t => .ok (noTranslation t v ref .tlb (missExc ref 0x0800 (defaultItir (s.faultRr ref.va)) (s.faultIha ref.va)))
  | .found e t =>
    .ok { faults := failing (pageFaults s v ref e ++ ref.late s v (attrOf e.ma)), pa := e.pa ref.va
          attr := attrOf e.ma, st := t }

/-- A reference that goes by its own address: physical, or by an unimplemented address. -/
def unsearched (s : State) (v : TransView) (ref : Ref) : Checked :=
  let attr : Attr := if v.dt then .wb else if bit ref.va 63 then .uc else .wbl
  if v.dt || unimplPa ref.va then
    { faults := [(.unimplemented, excUnimplData ref.va ref.w ref.r ref.na ref.sp)], pa := 0, attr := attr, st := s }
  else { faults := failing (ref.late s v attr), pa := ref.va.toNat % 2 ^ 63, attr := attr, st := s }

/-- Steps 1 to 4 of the data reference procedure (43_memory_instructions.md R421). -/
def checkRef (s : State) (n : Nat) (ref : Ref) : Except Refusal Checked :=
  let v := s.dataView n
  if v.dt && !unimplVa v.vm ref.va then afterSearch s v ref (searchTlb s v (s.dataView (100 + n)) .data ref.va)
  else .ok (unsearched s v ref)

/-! Deferral of speculative loads. -/

/-- The DCR bit that governs a fault (11_state_control_registers.md R87). -/
def DFault.dcrBit : DFault → Option Nat
  | .tlb => some 8
  | .notPresent => some 9
  | .keyMiss => some 10
  | .keyPermission => some 11
  | .accessRights => some 12
  | .accessBit => some 13
  | .debug => some 14
  | _ => none

/-- What tells the deferral checks of one instruction apart (70_reset_and_hazards.md R556). -/
def DFault.use (k : DFault) : Nat := 5 + k.dcrBit.getD 0

/-- A speculative load defers the fault (11_state_control_registers.md R88, 20_memory.md R156, R205, R206). With PSR.ic = 1 an
Unaligned Data Reference is not deferred: no bit of DCR governs it (DESIGN CHOICE, log entry 53; 91_not_in_source.md N12). -/
def defers (s : State) (k : DFault) : Bool :=
  decide (k = .unimplemented) || decide (k = .natPage) || decide (k = .unsupported) || !s.dpsr Psr.ic k.use ||
    (s.isrEd && match k.dcrBit with | some b => bit (s.dcr 0 k.use) b | none => false)

/-- After a deferred fault these lower-priority faults may still be delivered (11_state_control_registers.md R87, 20_memory.md
R205). -/
def DFault.allowsAfter : DFault → DFault → Bool
  | .tlb, .debug => true
  | .notPresent, .debug => true
  | .natPage, _ => true
  | .keyMiss, .accessRights => true
  | .keyMiss, .accessBit => true
  | .keyMiss, .debug => true
  | .keyPermission, .accessRights => true
  | .keyPermission, .accessBit => true
  | .keyPermission, .debug => true
  | .accessRights, .accessBit => true
  | .accessRights, .debug => true
  | .accessBit, .debug => true
  | _, _ => false

/-- What a speculative load does about its failing checks: none, defer, or raise. -/
inductive SpecOutcome where
  | proceed
  | defer
  | raise (e : Exc)

/-- The outcome of a speculative load's checks; whether an allowed later fault is delivered is free (log entry 53). -/
def specOutcome (s : State) : List (DFault × Exc) → SpecOutcome
  | [] => .proceed
  | (k, e) :: t =>
    if defers s k then
      match t.find? fun p => k.allowsAfter p.1 && !defers s p.1 with
      | none => .defer
      | some p => if Config.freeBit (.laterFault s.slot.toNat) s.tick then .raise p.2 else .defer
    else .raise e

/-! The ALAT (43_memory_instructions.md R440). -/

/-- An entry for a register exists. -/
def State.alatHit (s : State) (fp : Bool) (r : BitVec 7) : Bool := s.alat.any fun e => e.fp == fp && decide (e.reg = r)
/-- Remove the entry of a register. -/
def State.alatRemove (s : State) (fp : Bool) (r : BitVec 7) : State :=
  { s with alat := s.alat.filter fun e => !(e.fp == fp && decide (e.reg = r)) }
/-- Allocate an entry, replacing the register's. -/
def State.alatAlloc (s : State) (fp : Bool) (r : BitVec 7) (pa n : Nat) : State :=
  { s with alat := { fp := fp, reg := r, pa := pa, size := n } :: (s.alatRemove fp r).alat }
/-- Remove the entries that overlap a range. -/
def alatWithout (l : List AlatEntry) (pa n : Nat) : List AlatEntry := l.filter fun e => !rangesOverlap e.pa e.size pa n

/-! The Processor Interrupt Block (60_exceptions.md R513; PRESUMED, log entry 22). -/

/-- Its base. -/
def pibBase : Nat := 0xFEE00000
/-- The offset in the block of a reference through an uncacheable attribute. -/
def pibOffset (attr : Attr) (pa : Nat) : Option Nat :=
  if attr.nonSpeculative && decide (pibBase ≤ pa) && decide (pa < pibBase + 0x200000) then some (pa - pibBase) else none

/-- An interrupt message to this processor, by its delivery mode. A reserved vector (1, 3 to 15) of mode INT sets its pending
bit and is never delivered; the reserved modes 1, 3 and 6 have no effect (DESIGN CHOICE, log entry 22). -/
def postMessage (s : State) (data : Nat) : State :=
  match data / 256 % 8 with
  | 0 => { s with irr := s.irr ||| (1#256 <<< (data % 256)) }
  | 2 => { s with palOwed := true }
  | 4 => { s with irr := s.irr ||| (1#256 <<< 2) }
  | 5 => { s with palOwed := true }
  | 7 => { s with irr := s.irr ||| 1#256 }
  | _ => s

/-- A store to the block: an interrupt message, or the external task priority. -/
def pibStore (s : State) (o n v : Nat) : Except Refusal State :=
  if o < 0x100000 then
    if n = 8 ∧ o % 8 = 0 then
      let lid := s.dcr 64 4
      if o / 4096 = (field lid 24 8).toNat ∧ o / 16 % 256 = (field lid 16 8).toNat then .ok (postMessage s v) else .ok s
    else .error .pibUndefined
  else if o = 0x1E0008 ∧ n = 1 then .ok { s with xtp := BitVec.ofNat 8 v }
  else .error .pibUndefined

/-! The access itself. -/

/-- The bytes a load returns, and the state after it. -/
def State.memLoad (s : State) (attr : Attr) (pa n : Nat) : Except Refusal (List Byte × State) :=
  if s.aliased attr pa n then .error .attributeAliasing
  else match pibOffset attr pa with
  | some o =>
    if o = 0x1E0000 ∧ n = 1 then .ok ([(Config.freeWord .inta s.tick).setWidth 8], s) else .error .pibUndefined
  | none =>
    if unpopulated s.holes pa n then
      let v := (Config.freeWord .unpopulated s.tick).toNat + 2 ^ 64 * (Config.freeWord .unpopulatedHigh s.tick).toNat
      .ok (leBytes n v, { s with mcOwed := true })
    else .ok (readList s.mem pa n, s.touch attr pa n)

/-- Store bytes: memory, the fetch view, the ALAT. -/
def State.storeBytes (s : State) (pa : Nat) (bs : List Byte) : State :=
  { s with mem := writeList s.mem pa bs, stale := staleStored s.mem pa bs.length s.stale
           alat := alatWithout s.alat pa bs.length }

/-- A store that no byte of memory takes: it still removes the ALAT entries it overlaps (10_state.md R65). -/
def State.storeNowhere (s : State) (pa n : Nat) : State := { s with alat := alatWithout s.alat pa n }

/-- A store of n bytes of a value, in the Processor Interrupt Block, in an unpopulated range, or in memory (10_state.md R65).
The byte order does not reorder an interrupt message, which is one 8-byte value (DESIGN CHOICE, log entry 22;
43_memory_instructions.md R433). -/
def State.memStore (s : State) (attr : Attr) (pa n : Nat) (be : Bool) (v : Nat) : Except Refusal State :=
  if s.aliased attr pa n then .error .attributeAliasing
  else match pibOffset attr pa with
  | some o => pibStore (s.storeNowhere pa n) o n v
  | none =>
    if unpopulated s.holes pa n then .ok { s.storeNowhere pa n with mcOwed := true }
    else .ok ((s.storeBytes pa (valBytes be n v)).touch attr pa n)

/-- The outcome of an operation that may refuse. -/
def orRefuse {α : Type} (x : Except Refusal α) (k : α → Out) : Out :=
  match x with
  | .ok a => k a
  | .error r => .refused r

/-- A reference that is not speculative: take its first fault, or go on with the address, attribute and state. -/
def withRef (s : State) (n : Nat) (ref : Ref) (k : Checked → Out) : Out :=
  orRefuse (checkRef s n ref) fun c =>
    match c.faults with
    | [] => k c
    | (_, e) :: _ => raise c.st e

end Machine
end Sys2Proof
end

