-- ==== Sys2Proof/Machine/ExtInt.lean ====
section
/-!
DEFINITION. External interrupts: pending and in-service vectors, priorities, masking, IVR and EOI, the interval timer
(60_exceptions.md R511 to R514; 11_state_control_registers.md R95, R97; log entries 19 and 21).
-/
namespace Sys2Proof
namespace Machine

/-- The priority of a vector: NMI, then ExtINT, then 255 down to 16 (60_exceptions.md R512). -/
def vectorPriority (v : Nat) : Nat := if v = 2 then 257 else if v = 0 then 256 else v

/-- The deliverable vectors, highest priority first; 1 and 3 to 15 are reserved (60_exceptions.md R512). -/
def vectorsByPriority : List Nat := 2 :: 0 :: (List.range 240).map (255 - ·)

/-- The highest-priority member of a set of vectors. -/
def highestVector (set : BitVec 256) : Option Nat :=
  if set = 0 then none else vectorsByPriority.find? fun v => set.getLsbD v

/-- TPR masks the vector: mmi all but NMI, mic the classes up to it (60_exceptions.md R512). -/
def tprMasks (tpr : Word) (v : Nat) : Bool :=
  decide (v ≠ 2) && (bit tpr 16 || decide (16 ≤ v) && decide (v / 16 ≤ (field tpr 4 4).toNat))

/-- The vector that may be delivered: pending, unmasked, above every one in service; u tells the reads of one step apart
(60_exceptions.md R512). -/
def State.deliverable (s : State) (u : Nat := 0) : Option Nat :=
  if s.irr = 0 then none
  else
    let floor := match highestVector (s.dview (.inService u)).inService with | none => 0 | some v => vectorPriority v
    vectorsByPriority.find? fun v => s.irr.getLsbD v && !tprMasks (s.dcr 66 u) v && decide (floor < vectorPriority v)

/-- A vector goes in service. -/
def Sys.serve (v : Nat) (y : Sys) : Sys := { y with inService := y.inService ||| (1#256 <<< v) }

/-- The highest-priority interrupt in service ends (60_exceptions.md R512). -/
def Sys.endInterrupt (y : Sys) : Sys :=
  match highestVector y.inService with
  | none => y
  | some v => { y with inService := y.inService &&& ~~~(1#256 <<< v) }

/-- Reading IVR: the vector goes from pending to in service; 15 when there is none (60_exceptions.md R511). That every consumer
sees it in service at once, before a data serialization, is the model's choice (DESIGN CHOICE, log entry 19). -/
def State.readIvr (s : State) : Word × State :=
  match s.deliverable with
  | none => (15, s)
  | some v => (BitVec.ofNat 64 v, ({ s with irr := s.irr &&& ~~~(1#256 <<< v) } : State).mapSys (Sys.serve v))

/-- Writing EOI: the highest-priority in-service interrupt ends, for certain only after a data serialization
(60_exceptions.md R511, R512; 11_state_control_registers.md R82 note a). -/
def State.writeEoi (s : State) : State := s.pushSys Sys.endInterrupt

/-- A local source raises the interrupt its vector register names, unless the register masks it (60_exceptions.md R512). A
reserved vector, below 16, sets its pending bit too: 0 and 2 then act as ExtINT and NMI, the others stay pending
(DESIGN CHOICE, log entry 20). -/
def State.postLocal (s : State) (vec : Word) : State :=
  if bit vec 16 then s else { s with irr := s.irr ||| (1#256 <<< (field vec 0 8).toNat) }

/-- The count passes through the match value within the next d counts (60_exceptions.md R514). -/
def timerHits (itc itm : Word) (d : Nat) : Bool := decide (0 < (itm - itc).toNat) && decide ((itm - itc).toNat ≤ d)

/-- The interval timer advances by a positive free amount and may raise its interrupt
(11_state_control_registers.md R95, R97; 60_exceptions.md R514). -/
def State.advanceTimer (s : State) : State :=
  let d := 1 + Config.freeNat .itcStep s.tick % 2 ^ 32
  let hit := timerHits (s.dview (.itc 1)).itc (s.dcr 1 3) d
  let s1 := s.mapSys fun y => { y with itc := y.itc + BitVec.ofNat 64 d }
  { s1 with irr := if hit then (s1.postLocal (s.dcr 72 3)).irr else s1.irr }

/-- An external interrupt may be taken: PSR.i is 1 as seen, one is deliverable; while the write of PSR.i or a mask is in
flight the view decides (60_exceptions.md R514, 40_psr_instructions.md R340). -/
def State.interruptPending (s : State) : Bool := s.dpsr Psr.i 3 && (s.deliverable 1).isSome

end Machine
end Sys2Proof
end

