-- ==== Sys2Proof/Machine/Between.lean ====
section
/-!
DEFINITION. What the machine does by itself at every step: the interval timer, the registers that firmware and the processor
may overwrite while PSR.ic is 1, replacement in the translation caches and the ALAT, the walker's own walks, the performance
monitors; and what is taken before a fetch (log entries 19, 21, 23, 26, 28, 29, 30, 33). Every free choice only enters the
state; none decides whether a step has a next state.
-/
namespace Sys2Proof
namespace Machine

/-- PSR.ic is 1 for execution: a data serialization is enough to end it (70_reset_and_hazards.md R557). -/
def State.icAnywhere (s : State) : Bool := bit s.sys.psr Psr.ic || s.dataOld.any fun y => bit y.psr Psr.ic

/-- The reserved and ignored bits of CR16 to CR25, which read as 0; those of ITIR read as zeros or as the value last written
(30_encoding.md R304, 41_cr_and_serialization_instructions.md R361). -/
def crHoles (n : Nat) : Word :=
  match n with
  | 16 => psrReserved ||| (if Config.hasPsrVm then 0 else bitMask Psr.vm)
  | 17 => 0xFFFFF000FF000000
  | 21 => 0xFFFFFFFF00000003
  | 23 => 0x7FFFFFC000000000
  | 25 => 3
  | _ => 0

/-- CR16 to CR25 with free contents but for their reserved and ignored bits (11_state_control_registers.md R106, R107). -/
def freeInterruptionCrs (tick : Nat) (y : Sys) : Sys :=
  [16, 17, 19, 20, 21, 22, 23, 24, 25].foldl
    (fun z n => z.setCr n ((Config.freeWord (.volatileCr n) tick &&& ~~~crHoles n) ||| (if n = 21 then y.getCr 21 &&& crHoles 21 else 0))) y

/-- Bank-0 GR24 to GR31 with free contents (10_state.md R27). -/
def freeBankRegs (tick : Nat) (gr : Vector GReg 144) : Vector GReg 144 :=
  [136, 137, 138, 139, 140, 141, 142, 143].foldl
    (fun g n => wr g n { val := Config.freeWord (.volatileGr n) tick, nat := Config.freeBit (.volatileNat n) tick }) gr

/-- While PSR.ic is 1 the interruption registers are undefined and firmware may use bank-0 GR24 to GR31. -/
def State.volatile (s : State) : State :=
  if s.icAnywhere then ({ s with gr := freeBankRegs s.tick s.gr } : State).mapSys (freeInterruptionCrs s.tick) else s

/-- The entries a free choice leaves, told apart by their places in a list; the entries of `keep` stay. -/
def survivors {α : Type} (keep : α → Bool) (c : Nat → Config.Site) (tick : Nat) : Nat → List α → List α
  | _, [] => []
  | n, e :: t =>
    if Config.freeBit (c n) tick && !keep e then survivors keep c tick (n + 1) t
    else e :: survivors keep c tick (n + 1) t

/-- The processor may drop entries of the translation caches (21_memory_translation.md R225). -/
def evictTc (keep : TlbEntry → Bool) (tick : Nat) (y : Sys) : Sys :=
  { y with itcTlb := survivors keep .evictI tick 0 y.itcTlb, dtcTlb := survivors keep .evictD tick 0 y.dtcTlb }

/-- The entry is the one inserted last, and it was lost as often as it may be (21_memory_translation.md R226). -/
def State.tcKept (s : State) (e : TlbEntry) : Bool := decide (s.lastTc = some e) && decide (Config.maxTcLoss ≤ s.tcLost)

/-- The entry inserted last is in a translation cache. -/
def State.holdsLast (s : State) : Bool := (s.sys.itcTlb ++ s.sys.dtcTlb).any fun e => decide (s.lastTc = some e)

/-- Replacement in the translation caches and the ALAT (21_memory_translation.md R225; 43_memory_instructions.md R440); the
loss of the entry inserted last is counted (21_memory_translation.md R226; log entry 30). -/
def State.evict (s : State) : State :=
  let t := ({ s with alat := survivors (fun _ => false) .evictAlat s.tick 0 s.alat } : State).mapSys (evictTc s.tcKept s.tick)
  { t with tcLost := if s.holdsLast && !t.holdsLast then s.tcLost + 1 else s.tcLost }

/-- Some consumer sees a VHPT that may be walked. -/
def State.walkPossible (s : State) : Bool :=
  (s.sys :: (s.dataOld ++ s.fetchOld)).any fun y => ptaVe (y.getCr 8)

/-- A walk by itself that would lose the entry inserted last does not happen when that was lost as often as it may be, else the
loss is counted (21_memory_translation.md R226; 70_reset_and_hazards.md R563 (f)). -/
def State.countLoss (s t : State) : State :=
  if s.holdsLast && !t.holdsLast then (if Config.maxTcLoss ≤ s.tcLost then s else { t with tcLost := s.tcLost + 1 }) else t

/-- A walk of the walker by itself for any address, in the views of its side; one that finds nothing leaves only the lines it
read (21_memory_translation.md R269, R272). -/
def State.selfWalk (s : State) : State :=
  let va := Config.freeWord .walkVa s.tick
  let side : Side := if Config.freeBit .walkSide s.tick then .instr else .data
  let v := if Config.freeBit .walkSide s.tick then s.fetchView 9 else s.dataView 9
  if s.walkPossible && Config.freeBit .walkSelf s.tick && walkerEnabled v side va && !unimplVa v.vm va &&
      (v.tlb.lookup side (rrRid (v.rrOf va)) va).isEmpty then
    match walk s v side va with
    | .found _ t => s.countLoss t
    | .miss t => { s with lines := t.lines }
    | _ => s
  else s

/-- PSR.up or PSR.pp is 1 for some consumer. -/
def State.monitoring (s : State) : Bool :=
  (s.sys :: (s.dataOld ++ s.fetchOld)).any fun y => bit y.psr Psr.up || bit y.psr Psr.pp

/-- The performance monitors count while PSR.up or PSR.pp is 1: what they hold is no longer known, and one may overflow and
raise its interrupt (10_state.md R63; 60_exceptions.md R510; log entry 26). -/
def State.monitors (s : State) : State :=
  if s.monitoring then
    { s with pmdKnown := 0, irr := if Config.freeBit .pmOverflow s.tick then (s.postLocal (s.dcr 73 3)).irr else s.irr }
  else s

/-- A corrected machine check is signalled at a moment of the processor's choice (60_exceptions.md R510,
21_memory_translation.md R225; log entry 20). -/
def State.corrected (s : State) : State :=
  { s with irr := if Config.freeBit .corrected s.tick then (s.postLocal (s.dcr 74 3)).irr else s.irr }

/-- The boundaries a deliverable interrupt has waited, the next one included. -/
def State.countWait (s : State) : State := { s with waited := if s.interruptPending then s.waited + 1 else 0 }

/-- What happens by itself after an instruction or an interruption: the free-value counter moves on. -/
def tickOver (s : State) : State :=
  let s1 := s.advanceTimer.volatile.evict.selfWalk.monitors.corrected
  ({ s1 with tick := s1.tick + 1 } : State).countWait

/-- Apply tickOver to a next state. -/
def ticked : Out → Out
  | .next s => .next (tickOver s)
  | .fault f => .fault f
  | .refused r => .refused r

/-- What is taken instead of a fetch: an owed machine check or PAL interruption, an external interrupt at a moment of the
processor's choice, within a bounded wait (60_exceptions.md R474, R475, R514); IA-32 code is refused (00_scope.md R5). -/
def withBoundary (s : State) (k : State → Out) : Out :=
  if s.mcOwed && !s.psrNow Psr.mc then .fault .machineCheck
  else if s.palOwed then .fault .palInterruption
  else if s.psrNow Psr.is then .refused .ia32
  else if s.interruptPending && (Config.freeBit .takeInterrupt s.tick || decide (Config.maxLatency < s.waited)) then
    deliver { s with ctx := Ctx.none } excExternal s.ip s.slot s.slot
  else k s

end Machine
end Sys2Proof
end

