-- ==== Sys2Proof/WellFormed.lean ====
section
/-!
DEFINITION. Which instruction terms have an encoding. Only the base-update row can hold an ill-formed term: stores have
no register-update form, and only the pair loads update by their size (43_memory_instructions.md R423).
-/
namespace Sys2Proof

/-- The update form exists for the operation. -/
def UpdOp.allows : UpdOp → Upd → Bool
  | .store .., .reg _ => false
  | .spill _, .reg _ => false
  | .fpStore .., .reg _ => false
  | .fpSpill _, .reg _ => false
  | .fpPair .., .reg _ => false
  | .fpPair .., .imm _ => false
  | .fpPair .., .size => true
  | _, .size => false
  | _, _ => true

/-- Well-formedness of an instruction. -/
def Instr.wf : Instr → Bool
  | .memUpd _ op _ upd _ => op.allows upd
  | _ => true

/-- Well-formedness as a proposition. -/
abbrev Instr.WF (i : Instr) : Prop := i.wf = true

end Sys2Proof
end

