-- ==== Sys2Proof/Decode.lean ====
section
/-!
DEFINITION. Bundles, templates, the decoder and, after it, the encoder (30_encoding.md). The decoder works on the
41 bits cut into the ten pieces that every format is made of. Encodings the table gives no bits for are the
family's (PRESUMED, log entry 14).
-/
namespace Sys2Proof

/-- The execution-unit types of slots (30_encoding.md R305). -/
inductive UnitKind where
  | m | i | f | b | x
  deriving DecidableEq, Repr

/-- Why a slot does not decode: a reserved encoding (30_encoding.md R315), or an instruction of the application
architecture that this spec does not hold (00_scope.md R5; log entry 17). -/
inductive DecodeError where
  | reserved | outside
  deriving DecidableEq, Repr

/-- The pieces of a slot: bits 40:37, 36, 35:33, 32:30, 29:28, 27, 26:20, 19:13, 12:6, 5:0. -/
structure Raw where
  op : BitVec 4 := 0
  b36 : BitVec 1 := 0
  x3 : BitVec 3 := 0
  xh : BitVec 3 := 0
  xm : BitVec 2 := 0
  xl : BitVec 1 := 0
  f3 : BitVec 7 := 0
  f2 : BitVec 7 := 0
  f1 : BitVec 7 := 0
  qp : BitVec 6 := 0
  deriving DecidableEq, Repr

/-- Cut a slot into its pieces. -/
def Raw.ofWord (w : Slot) : Raw :=
  { op := w.extractLsb' 37 4, b36 := w.extractLsb' 36 1, x3 := w.extractLsb' 33 3, xh := w.extractLsb' 30 3
    xm := w.extractLsb' 28 2, xl := w.extractLsb' 27 1, f3 := w.extractLsb' 20 7, f2 := w.extractLsb' 13 7
    f1 := w.extractLsb' 6 7, qp := w.extractLsb' 0 6 }

/-- Join the pieces of a slot. -/
def Raw.toWord (r : Raw) : Slot :=
  r.op ++ r.b36 ++ r.x3 ++ r.xh ++ r.xm ++ r.xl ++ r.f3 ++ r.f2 ++ r.f1 ++ r.qp

/-- Bits 32:27, the extension x6 of most formats (30_encoding.md R309, R311). -/
def Raw.x6 (r : Raw) : Nat := (r.xh ++ r.xm ++ r.xl).toNat
/-- Bits 35:30, the extension x6 of the memory formats (30_encoding.md R312). -/
def Raw.x6m (r : Raw) : BitVec 6 := r.x3 ++ r.xh
/-- Bits 32:31 and 30:27 (30_encoding.md R308). -/
def Raw.x2 (r : Raw) : Nat := (r.xh.extractLsb' 1 2).toNat
/-- Bits 30:27 (30_encoding.md R308). -/
def Raw.x4 (r : Raw) : Nat := (r.xh.extractLsb' 0 1 ++ r.xm ++ r.xl).toNat
/-- The 21-bit immediate i : imm20a of break, nop and hint (30_encoding.md R310). -/
def Raw.imm21 (r : Raw) : BitVec 21 := r.b36 ++ r.f3.extractLsb' 0 6 ++ r.f2 ++ r.f1
/-- Bit 26 of the no-operation formats (30_encoding.md R310). -/
def Raw.y (r : Raw) : Nat := (r.f3.extractLsb' 6 1).toNat
/-- The 24-bit mask i : i2d : imm21a (30_encoding.md R310). -/
def Raw.imm24 (r : Raw) : BitVec 24 := r.b36 ++ r.xh.extractLsb' 1 2 ++ r.f3 ++ r.f2 ++ r.f1
/-- The displacement s : imm20b of chk.a and of the IP-relative branches (30_encoding.md R310, R311). -/
def Raw.disp20b (r : Raw) : BitVec 21 := r.b36 ++ r.xh ++ r.xm ++ r.xl ++ r.f3 ++ r.f2
/-- The displacement s : imm13c : imm7a of chk.s (opcode_table.json). -/
def Raw.disp13c (r : Raw) : BitVec 21 := r.b36 ++ r.xh ++ r.xm ++ r.xl ++ r.f3 ++ r.f1
/-- imm14 = s : imm6d : imm7b (30_encoding.md R313). -/
def Raw.imm14 (r : Raw) : BitVec 14 := r.b36 ++ r.xh ++ r.xm ++ r.xl ++ r.f2
/-- imm8 = s : imm7b (30_encoding.md R310). -/
def Raw.imm8 (r : Raw) : BitVec 8 := r.b36 ++ r.f2
/-- imm9 of the loads, s : i : imm7b (PRESUMED, log entry 14). -/
def Raw.imm9b (r : Raw) : BitVec 9 := r.b36 ++ r.xl ++ r.f2
/-- imm9 of the stores, s : i : imm7a (PRESUMED, log entry 14). -/
def Raw.imm9a (r : Raw) : BitVec 9 := r.b36 ++ r.xl ++ r.f1

abbrev DecodeResult := Except DecodeError Instr
/-- A reserved encoding. -/
def reservedEnc : DecodeResult := .error .reserved
/-- An encoding outside this spec. -/
def outsideEnc : DecodeResult := .error .outside

/-- M-unit major opcode 0 (30_encoding.md R308). -/
def decodeM0 (r : Raw) : DecodeResult :=
  match r.x3.toNat with
  | 0 =>
    match r.x4, r.x2 with
    | 0, 0 => .ok (.breakM r.qp r.imm21)
    | 0, 1 => .ok (.invala r.qp)
    | 0, 2 => .ok (.fwb r.qp)
    | 0, 3 => .ok (.srlzD r.qp)
    | 1, 0 => if r.y = 0 then .ok (.nopM r.qp r.imm21) else .ok (.hintM r.qp r.imm21)
    | 1, 3 => .ok (.srlzI r.qp)
    | 2, 1 => .ok (.invalaER r.qp r.f1)
    | 2, 2 => .ok (.mf r.qp)
    | 3, 1 => .ok (.invalaEF r.qp r.f1)
    | 3, 2 => .ok (.mfA r.qp)
    | 3, 3 => .ok (.syncI r.qp)
    | 8, 2 => .ok (.movArImm r.qp r.f3 r.imm8)
    | 10, 0 => .ok (.loadrs)
    | 12, 0 => .ok (.flushrs)
    | 4, _ => .ok (.sum r.qp r.imm24)
    | 5, _ => .ok (.rum r.qp r.imm24)
    | 6, _ => .ok (.ssm r.qp r.imm24)
    | 7, _ => .ok (.rsm r.qp r.imm24)
    | _, _ => reservedEnc
  | 4 => .ok (.chkANcR r.qp r.f1 r.disp20b)
  | 5 => .ok (.chkAClrR r.qp r.f1 r.disp20b)
  | 6 => .ok (.chkANcF r.qp r.f1 r.disp20b)
  | 7 => .ok (.chkAClrF r.qp r.f1 r.disp20b)
  | _ => reservedEnc

/-- The two-bit immediate of probe, bits 14:13 (30_encoding.md R310). -/
def Raw.imm2 (r : Raw) : BitVec 2 := r.f2.extractLsb' 0 2

/-- M-unit major opcode 1, x3 = 0, by x6 (30_encoding.md R309). -/
def decodeM1 (r : Raw) : DecodeResult :=
  match r.x6 with
  | 0x00 => .ok (.movToRr r.qp r.f3 r.f2)
  | 0x01 => .ok (.movToDbr r.qp r.f3 r.f2)
  | 0x02 => .ok (.movToIbr r.qp r.f3 r.f2)
  | 0x03 => .ok (.movToPkr r.qp r.f3 r.f2)
  | 0x04 => .ok (.movToPmc r.qp r.f3 r.f2)
  | 0x05 => .ok (.movToPmd r.qp r.f3 r.f2)
  | 0x09 => .ok (.ptcL r.qp r.f3 r.f2)
  | 0x0a => .ok (.ptcG r.qp r.f3 r.f2)
  | 0x0b => .ok (.ptcGa r.qp r.f3 r.f2)
  | 0x0c => .ok (.ptrD r.qp r.f3 r.f2)
  | 0x0d => .ok (.ptrI r.qp r.f3 r.f2)
  | 0x0e => .ok (.itrD r.qp r.f3 r.f2)
  | 0x0f => .ok (.itrI r.qp r.f3 r.f2)
  | 0x10 => .ok (.movFromRr r.qp r.f1 r.f3)
  | 0x11 => .ok (.movFromDbr r.qp r.f1 r.f3)
  | 0x12 => .ok (.movFromIbr r.qp r.f1 r.f3)
  | 0x13 => .ok (.movFromPkr r.qp r.f1 r.f3)
  | 0x14 => .ok (.movFromPmc r.qp r.f1 r.f3)
  | 0x15 => .ok (.movFromPmd r.qp r.f1 r.f3)
  | 0x17 => .ok (.movFromCpuid r.qp r.f1 r.f3)
  | 0x18 => .ok (.probeRImm r.qp r.f1 r.f3 r.imm2)
  | 0x19 => .ok (.probeWImm r.qp r.f1 r.f3 r.imm2)
  | 0x1a => .ok (.thash r.qp r.f1 r.f3)
  | 0x1b => .ok (.ttag r.qp r.f1 r.f3)
  | 0x1e => .ok (.tpa r.qp r.f1 r.f3)
  | 0x1f => .ok (.tak r.qp r.f1 r.f3)
  | 0x21 => .ok (.movFromUm r.qp r.f1)
  | 0x22 => .ok (.movFromAr r.qp r.f1 r.f3)
  | 0x24 => .ok (.movFromCr r.qp r.f1 r.f3)
  | 0x25 => .ok (.movFromPsr r.qp r.f1)
  | 0x29 => .ok (.movToUm r.qp r.f2)
  | 0x2a => .ok (.movToAr r.qp r.f3 r.f2)
  | 0x2c => .ok (.movToCr r.qp r.f3 r.f2)
  | 0x2d => .ok (.movToPsrL r.qp r.f2)
  | 0x2e => .ok (.itcD r.qp r.f2)
  | 0x2f => .ok (.itcI r.qp r.f2)
  | 0x30 => if r.b36 = 0 then .ok (.fc r.qp r.f3) else .ok (.fcI r.qp r.f3)
  | 0x31 => .ok (.probeRwFault r.qp r.f3 r.imm2)
  | 0x32 => .ok (.probeRFault r.qp r.f3 r.imm2)
  | 0x33 => .ok (.probeWFault r.qp r.f3 r.imm2)
  | 0x34 => .ok (.ptcE r.qp r.f3)
  | 0x38 => .ok (.probeR r.qp r.f1 r.f3 r.f2)
  | 0x39 => .ok (.probeW r.qp r.f1 r.f3 r.f2)
  | _ => reservedEnc

/-- M-unit major opcode 1 by x3 (30_encoding.md R309). -/
def decodeM1x (r : Raw) : DecodeResult :=
  match r.x3.toNat with
  | 0 => decodeM1 r
  | 1 => .ok (.chkSM r.qp r.f2 r.disp13c)
  | 3 => .ok (.chkSF r.qp r.f2 r.disp13c)
  | 6 => .ok (.alloc r.f1 r.f2 r.f3 (r.xh.extractLsb' 0 1 ++ r.xm ++ r.xl))
  | _ => reservedEnc

/-- M-unit major opcode 4 with x = 0: integer loads and stores (30_encoding.md R312). A load with hint 2, which R312 calls
reserved, and a store with hint 1 or 2 are the plain access with its hint ignored, as in every other form with a hint field: R312
does not say what they do (DESIGN CHOICE, log entry 17). -/
def decodeM4 (r : Raw) : DecodeResult :=
  match r.x6m.toNat with
  | 0x00 => .ok (.ld1 r.qp r.f1 r.f3 r.xm)
  | 0x01 => .ok (.ld2 r.qp r.f1 r.f3 r.xm)
  | 0x02 => .ok (.ld4 r.qp r.f1 r.f3 r.xm)
  | 0x03 => .ok (.ld8 r.qp r.f1 r.f3 r.xm)
  | 0x04 => .ok (.ld1S r.qp r.f1 r.f3 r.xm)
  | 0x05 => .ok (.ld2S r.qp r.f1 r.f3 r.xm)
  | 0x06 => .ok (.ld4S r.qp r.f1 r.f3 r.xm)
  | 0x07 => .ok (.ld8S r.qp r.f1 r.f3 r.xm)
  | 0x08 => .ok (.ld1A r.qp r.f1 r.f3 r.xm)
  | 0x09 => .ok (.ld2A r.qp r.f1 r.f3 r.xm)
  | 0x0a => .ok (.ld4A r.qp r.f1 r.f3 r.xm)
  | 0x0b => .ok (.ld8A r.qp r.f1 r.f3 r.xm)
  | 0x0c => .ok (.ld1Sa r.qp r.f1 r.f3 r.xm)
  | 0x0d => .ok (.ld2Sa r.qp r.f1 r.f3 r.xm)
  | 0x0e => .ok (.ld4Sa r.qp r.f1 r.f3 r.xm)
  | 0x0f => .ok (.ld8Sa r.qp r.f1 r.f3 r.xm)
  | 0x10 => .ok (.ld1Bias r.qp r.f1 r.f3 r.xm)
  | 0x11 => .ok (.ld2Bias r.qp r.f1 r.f3 r.xm)
  | 0x12 => .ok (.ld4Bias r.qp r.f1 r.f3 r.xm)
  | 0x13 => .ok (.ld8Bias r.qp r.f1 r.f3 r.xm)
  | 0x14 => .ok (.ld1Acq r.qp r.f1 r.f3 r.xm)
  | 0x15 => .ok (.ld2Acq r.qp r.f1 r.f3 r.xm)
  | 0x16 => .ok (.ld4Acq r.qp r.f1 r.f3 r.xm)
  | 0x17 => .ok (.ld8Acq r.qp r.f1 r.f3 r.xm)
  | 0x1b => .ok (.ld8Fill r.qp r.f1 r.f3 r.xm)
  | 0x20 => .ok (.ld1CClr r.qp r.f1 r.f3 r.xm)
  | 0x21 => .ok (.ld2CClr r.qp r.f1 r.f3 r.xm)
  | 0x22 => .ok (.ld4CClr r.qp r.f1 r.f3 r.xm)
  | 0x23 => .ok (.ld8CClr r.qp r.f1 r.f3 r.xm)
  | 0x24 => .ok (.ld1CNc r.qp r.f1 r.f3 r.xm)
  | 0x25 => .ok (.ld2CNc r.qp r.f1 r.f3 r.xm)
  | 0x26 => .ok (.ld4CNc r.qp r.f1 r.f3 r.xm)
  | 0x27 => .ok (.ld8CNc r.qp r.f1 r.f3 r.xm)
  | 0x28 => .ok (.ld1CClrAcq r.qp r.f1 r.f3 r.xm)
  | 0x29 => .ok (.ld2CClrAcq r.qp r.f1 r.f3 r.xm)
  | 0x2a => .ok (.ld4CClrAcq r.qp r.f1 r.f3 r.xm)
  | 0x2b => .ok (.ld8CClrAcq r.qp r.f1 r.f3 r.xm)
  | 0x30 => .ok (.st1 r.qp r.f2 r.f3 r.xm)
  | 0x31 => .ok (.st2 r.qp r.f2 r.f3 r.xm)
  | 0x32 => .ok (.st4 r.qp r.f2 r.f3 r.xm)
  | 0x33 => .ok (.st8 r.qp r.f2 r.f3 r.xm)
  | 0x34 => .ok (.st1Rel r.qp r.f2 r.f3 r.xm)
  | 0x35 => .ok (.st2Rel r.qp r.f2 r.f3 r.xm)
  | 0x36 => .ok (.st4Rel r.qp r.f2 r.f3 r.xm)
  | 0x37 => .ok (.st8Rel r.qp r.f2 r.f3 r.xm)
  | 0x3b => .ok (.st8Spill r.qp r.f2 r.f3 r.xm)
  | _ => reservedEnc

/-- M-unit major opcode 4 with x = 1: semaphores and 16-byte accesses (30_encoding.md R312). -/
def decodeM4x (r : Raw) : DecodeResult :=
  match r.x6m.toNat with
  | 0x00 => .ok (.cmpxchg1Acq r.qp r.f1 r.f2 r.f3 r.xm)
  | 0x01 => .ok (.cmpxchg2Acq r.qp r.f1 r.f2 r.f3 r.xm)
  | 0x02 => .ok (.cmpxchg4Acq r.qp r.f1 r.f2 r.f3 r.xm)
  | 0x03 => .ok (.cmpxchg8Acq r.qp r.f1 r.f2 r.f3 r.xm)
  | 0x04 => .ok (.cmpxchg1Rel r.qp r.f1 r.f2 r.f3 r.xm)
  | 0x05 => .ok (.cmpxchg2Rel r.qp r.f1 r.f2 r.f3 r.xm)
  | 0x06 => .ok (.cmpxchg4Rel r.qp r.f1 r.f2 r.f3 r.xm)
  | 0x07 => .ok (.cmpxchg8Rel r.qp r.f1 r.f2 r.f3 r.xm)
  | 0x08 => .ok (.xchg1 r.qp r.f1 r.f2 r.f3 r.xm)
  | 0x09 => .ok (.xchg2 r.qp r.f1 r.f2 r.f3 r.xm)
  | 0x0a => .ok (.xchg4 r.qp r.f1 r.f2 r.f3 r.xm)
  | 0x0b => .ok (.xchg8 r.qp r.f1 r.f2 r.f3 r.xm)
  | 0x12 => .ok (.fetchadd4Acq r.qp r.f1 (r.f2.extractLsb' 0 3) r.f3 r.xm)
  | 0x13 => .ok (.fetchadd8Acq r.qp r.f1 (r.f2.extractLsb' 0 3) r.f3 r.xm)
  | 0x16 => .ok (.fetchadd4Rel r.qp r.f1 (r.f2.extractLsb' 0 3) r.f3 r.xm)
  | 0x17 => .ok (.fetchadd8Rel r.qp r.f1 (r.f2.extractLsb' 0 3) r.f3 r.xm)
  | 0x20 => .ok (.cmp8xchg16Acq r.qp r.f1 r.f2 r.f3 r.xm)
  | 0x24 => .ok (.cmp8xchg16Rel r.qp r.f1 r.f2 r.f3 r.xm)
  | 0x28 => .ok (.ld16 r.qp r.f1 r.f3 r.xm)
  | 0x2c => .ok (.ld16Acq r.qp r.f1 r.f3 r.xm)
  | 0x30 => .ok (.st16 r.qp r.f2 r.f3 r.xm)
  | 0x34 => .ok (.st16Rel r.qp r.f2 r.f3 r.xm)
  | _ => reservedEnc

/-- The integer operation selected by x6 in the base-update forms; a load names its target, a store its data. -/
def intUpdOp (r : Raw) : Option UpdOp :=
  let sz := r.x6m.extractLsb' 0 2
  match (r.x6m.extractLsb' 2 4).toNat with
  | 0x0 => some (.load sz .plain r.f1)
  | 0x1 => some (.load sz .s r.f1)
  | 0x2 => some (.load sz .a r.f1)
  | 0x3 => some (.load sz .sa r.f1)
  | 0x4 => some (.load sz .bias r.f1)
  | 0x5 => some (.load sz .acq r.f1)
  | 0x6 => if sz = 3 then some (.fill r.f1) else none
  | 0x8 => some (.load sz .cClr r.f1)
  | 0x9 => some (.load sz .cNc r.f1)
  | 0xa => some (.load sz .cClrAcq r.f1)
  | 0xc => some (.store sz false r.f2)
  | 0xd => some (.store sz true r.f2)
  | 0xe => if sz = 3 then some (.spill r.f2) else none
  | _ => none

/-- The floating-point format in x6{1:0} (PRESUMED, log entry 14). -/
def fpFmtOf (b : BitVec 2) : FpFmt :=
  match b.toNat with
  | 0 => .extended | 1 => .int8 | 2 => .single | _ => .double

/-- The floating-point or lfetch operation selected by x6 (30_encoding.md R312; PRESUMED where R312 gives no value). -/
def fpUpdOp (r : Raw) : Option UpdOp :=
  let c := r.x6m.extractLsb' 0 2
  match (r.x6m.extractLsb' 2 4).toNat with
  | 0x0 => some (.fpLoad (fpFmtOf c) .plain r.f1)
  | 0x1 => some (.fpLoad (fpFmtOf c) .s r.f1)
  | 0x2 => some (.fpLoad (fpFmtOf c) .a r.f1)
  | 0x3 => some (.fpLoad (fpFmtOf c) .sa r.f1)
  | 0x6 => if c = 3 then some (.fpFill r.f1) else none
  | 0x8 => some (.fpLoad (fpFmtOf c) .cClr r.f1)
  | 0x9 => some (.fpLoad (fpFmtOf c) .cNc r.f1)
  | 0xb => some (.lfetch (decide (c.extractLsb' 1 1 = 1)) (decide (c.extractLsb' 0 1 = 1)))
  | 0xc => some (.fpStore (fpFmtOf c) r.f2)
  | 0xe => if c = 3 then some (.fpSpill r.f2) else none
  | _ => none

/-- The pair format in x6{1:0} (PRESUMED, log entry 14). -/
def pairFmtOf (b : BitVec 2) : Option PairFmt :=
  match b.toNat with
  | 1 => some .int8 | 2 => some .single | 3 => some .double | _ => none

/-- The completer in x6{5:2} of a floating-point load. -/
def fpFlavourOf (b : BitVec 4) : Option FpFlavour :=
  match b.toNat with
  | 0x0 => some .plain | 0x1 => some .s | 0x2 => some .a | 0x3 => some .sa | 0x8 => some .cClr | 0x9 => some .cNc
  | _ => none

/-- The stores among the update operations: their immediate lies in the r1 position. -/
def UpdOp.isStore : UpdOp → Bool
  | .store .. | .spill _ | .fpStore .. | .fpSpill _ => true
  | _ => false

/-- A register-update form, where the operation has one. -/
def updReg (r : Raw) : Option UpdOp → DecodeResult
  | some op => if op.isStore then reservedEnc else .ok (.memUpd r.qp op r.f3 (.reg r.f2) r.xm)
  | none => reservedEnc

/-- An immediate-update form. -/
def updImm (r : Raw) : Option UpdOp → DecodeResult
  | some op => .ok (.memUpd r.qp op r.f3 (.imm (if op.isStore then r.imm9a else r.imm9b)) r.xm)
  | none => reservedEnc

/-- A single floating-point access or lfetch without update, as the table's constructors. -/
def fpPlain (r : Raw) : Option UpdOp → DecodeResult
  | some (.fpLoad .extended .plain f1) => .ok (.ldfe r.qp f1 r.f3 r.xm)
  | some (.fpLoad .int8 .plain f1) => .ok (.ldf8 r.qp f1 r.f3 r.xm)
  | some (.fpLoad .single .plain f1) => .ok (.ldfs r.qp f1 r.f3 r.xm)
  | some (.fpLoad .double .plain f1) => .ok (.ldfd r.qp f1 r.f3 r.xm)
  | some (.fpLoad fmt .s f1) => .ok (.ldfFlav r.qp fmt .s f1 r.f3 r.xm)
  | some (.fpLoad fmt .a f1) => .ok (.ldfFlav r.qp fmt .a f1 r.f3 r.xm)
  | some (.fpLoad fmt .sa f1) => .ok (.ldfFlav r.qp fmt .sa f1 r.f3 r.xm)
  | some (.fpLoad fmt .cClr f1) => .ok (.ldfFlav r.qp fmt .cClr f1 r.f3 r.xm)
  | some (.fpLoad fmt .cNc f1) => .ok (.ldfFlav r.qp fmt .cNc f1 r.f3 r.xm)
  | some (.fpFill f1) => .ok (.ldfFill r.qp f1 r.f3 r.xm)
  | some (.fpStore .extended f2) => .ok (.stfe r.qp f2 r.f3 r.xm)
  | some (.fpStore .int8 f2) => .ok (.stf8 r.qp f2 r.f3 r.xm)
  | some (.fpStore .single f2) => .ok (.stfs r.qp f2 r.f3 r.xm)
  | some (.fpStore .double f2) => .ok (.stfd r.qp f2 r.f3 r.xm)
  | some (.fpSpill f2) => .ok (.stfSpill r.qp f2 r.f3 r.xm)
  | some (.lfetch false false) => .ok (.lfetch r.qp r.f3 r.xm)
  | some (.lfetch false true) => .ok (.lfetchExcl r.qp r.f3 r.xm)
  | some (.lfetch true false) => .ok (.lfetchFault r.qp r.f3 r.xm)
  | some (.lfetch true true) => .ok (.lfetchFaultExcl r.qp r.f3 r.xm)
  | _ => reservedEnc

/-- The pair loads (PRESUMED encodings, log entry 14). -/
def fpPairs (r : Raw) : DecodeResult :=
  match pairFmtOf (r.x6m.extractLsb' 0 2), fpFlavourOf (r.x6m.extractLsb' 2 4) with
  | some fmt, some flav =>
    if r.b36 = 0 then .ok (.ldfp r.qp fmt flav r.f1 r.f2 r.f3 r.xm)
    else .ok (.memUpd r.qp (.fpPair fmt flav r.f1 r.f2) r.f3 .size r.xm)
  | _, _ => reservedEnc

/-- A-type instructions of major opcode 8 (30_encoding.md R313); the rest of the A type is outside this spec. -/
def decodeA (r : Raw) : DecodeResult :=
  if r.x3 = 0 ∧ r.xh = 1 ∧ r.xm = 0 ∧ r.xl = 0 then .ok (.addp4 r.qp r.f1 r.f2 r.f3)
  else if r.x3 = 0 ∧ r.xh = 3 ∧ r.xm.extractLsb' 1 1 = 0 then
    .ok (.shladdp4 r.qp r.f1 r.f2 (r.xm.extractLsb' 0 1 ++ r.xl) r.f3)
  else if r.x3 = 6 then .ok (.addp4Imm r.qp r.f1 r.imm14 r.f3)
  else outsideEnc

/-- M slots (30_encoding.md R308, R309, R312). That major opcodes 2 and 3, which no table names, are reserved and not of the
application architecture is the model's choice (DESIGN CHOICE, log entry 17). -/
def decodeM (r : Raw) : DecodeResult :=
  match r.op.toNat with
  | 0 => decodeM0 r
  | 1 => decodeM1x r
  | 4 =>
    if r.b36 = 0 then (if r.xl = 0 then decodeM4 r else decodeM4x r)
    else if r.xl = 0 then updReg r (intUpdOp r) else reservedEnc
  | 5 => updImm r (intUpdOp r)
  | 6 =>
    if r.xl = 0 then (if r.b36 = 0 then fpPlain r (fpUpdOp r) else updReg r (fpUpdOp r)) else fpPairs r
  | 7 => updImm r (fpUpdOp r)
  | 2 => reservedEnc
  | 3 => reservedEnc
  | 8 => decodeA r
  | _ => outsideEnc

/-- I slots: the rows of this spec (30_encoding.md R316; mov.i PRESUMED, log entry 14). -/
def decodeI (r : Raw) : DecodeResult :=
  match r.op.toNat with
  | 0 =>
    match r.x3.toNat with
    | 0 =>
      match r.x6 with
      | 0x00 => .ok (.breakI r.qp r.imm21)
      | 0x01 => if r.y = 0 then .ok (.nopI r.qp r.imm21) else .ok (.hintI r.qp r.imm21)
      | 0x0a => .ok (.movI r.qp (.toArImm r.f3 r.imm8))
      | 0x2a => .ok (.movI r.qp (.toAr r.f3 r.f2))
      | 0x32 => .ok (.movI r.qp (.fromAr r.f1 r.f3))
      | _ => outsideEnc
    | 1 => .ok (.chkSM r.qp r.f2 r.disp13c)
    | _ => outsideEnc
  | 8 => decodeA r
  | _ => outsideEnc

/-- F slots: break.f and the no-operations (PRESUMED, log entry 14). -/
def decodeF (r : Raw) : DecodeResult :=
  match r.op.toNat with
  | 0 =>
    if r.x3.extractLsb' 0 1 = 0 then
      match r.x6 with
      | 0x00 => .ok (.breakFX r.qp (.f r.imm21))
      | 0x01 => if r.y = 0 then .ok (.nopI r.qp r.imm21) else .ok (.hintI r.qp r.imm21)
      | _ => outsideEnc
    else outsideEnc
  | _ => outsideEnc

/-- The instructions that take no predicate: bits 5:0 must be 0 (30_encoding.md R311, the notes of opcode_table.json); that
another value is a reserved encoding is the model's choice (DESIGN CHOICE, log entry 17). -/
def unpredicated (r : Raw) (i : Instr) : DecodeResult := if r.qp = 0 then .ok i else reservedEnc

/-- The branch register, bits 15:13 (30_encoding.md R311). -/
def Raw.b2 (r : Raw) : BitVec 3 := r.f2.extractLsb' 0 3
/-- Bits 8:6, btype or b1. -/
def Raw.btype (r : Raw) : BitVec 3 := r.f1.extractLsb' 0 3
/-- Bit 12, the sequential-prefetch hint. -/
def Raw.p (r : Raw) : BitVec 1 := r.f1.extractLsb' 6 1
/-- Bits 34:33, the whether hint. -/
def Raw.wh (r : Raw) : BitVec 2 := r.x3.extractLsb' 0 2
/-- Bit 35, the deallocation hint. -/
def Raw.d (r : Raw) : BitVec 1 := r.x3.extractLsb' 2 1

/-- B slots (30_encoding.md R311; opcodes 4, 5, 7 PRESUMED, log entry 14). That major opcode 3, which no table names, is reserved
is the model's choice (DESIGN CHOICE, log entry 17). -/
def decodeB (r : Raw) : DecodeResult :=
  match r.op.toNat with
  | 0 =>
    match r.x6 with
    | 0x00 => .ok (.breakB r.qp r.imm21)
    | 0x02 => unpredicated r .cover
    | 0x04 => unpredicated r .clrrrb
    | 0x05 => unpredicated r .clrrrbPr
    | 0x08 => unpredicated r .rfi
    | 0x0c => unpredicated r .bsw0
    | 0x0d => unpredicated r .bsw1
    | 0x10 => unpredicated r .epc
    | 0x18 => unpredicated r .vmsw0
    | 0x19 => unpredicated r .vmsw1
    | 0x20 =>
      match r.btype.toNat with
      | 0 => .ok (.brCond r.qp r.b2 r.p r.wh r.d)
      | 1 => unpredicated r (.brIa r.b2 r.p r.wh r.d)
      | _ => reservedEnc
    | 0x21 => if r.btype = 4 then .ok (.brRet r.qp r.b2 r.p r.wh r.d) else reservedEnc
    | _ => reservedEnc
  | 2 =>
    match r.x6 with
    | 0x00 => .ok (.nopB r.qp r.imm21)
    | 0x01 => .ok (.hintB r.qp r.imm21)
    | _ => reservedEnc
  | 4 =>
    match r.btype.toNat with
    | 0 => .ok (.brRel (.cond r.qp r.disp20b r.p r.wh r.d))
    | 2 => .ok (.brRel (.wexit r.qp r.disp20b r.p r.wh r.d))
    | 3 => .ok (.brRel (.wtop r.qp r.disp20b r.p r.wh r.d))
    | 5 => unpredicated r (.brRel (.cloop r.disp20b r.p r.wh r.d))
    | 6 => unpredicated r (.brRel (.cexit r.disp20b r.p r.wh r.d))
    | 7 => unpredicated r (.brRel (.ctop r.disp20b r.p r.wh r.d))
    | _ => reservedEnc
  | 5 => .ok (.brRel (.call r.qp r.btype r.disp20b r.p r.wh r.d))
  | 7 => .ok (.brRel (.brp (r.b36 ++ r.x3 ++ r.xh ++ r.xm ++ r.xl ++ r.f3 ++ r.f2 ++ r.f1 ++ r.qp)))
  | 3 => reservedEnc
  | _ => outsideEnc

/-- The X instruction of an MLX bundle with its L slot (30_encoding.md R305; PRESUMED, log entry 14). -/
def decodeX (l : Slot) (r : Raw) : DecodeResult :=
  match r.op.toNat with
  | 0 =>
    if r.x3 = 0 then
      match r.x6 with
      | 0x00 => .ok (.breakFX r.qp (.x (l ++ r.imm21)))
      | 0x01 => if r.y = 0 then .ok (.nopI r.qp r.imm21) else .ok (.hintI r.qp r.imm21)
      | _ => outsideEnc
    else outsideEnc
  | _ => outsideEnc

/-- Decode the pieces of a slot of a unit type; `l` is the L slot of an X instruction. -/
def decodeRaw (u : UnitKind) (l : Slot) (r : Raw) : DecodeResult :=
  match u with
  | .m => decodeM r
  | .i => decodeI r
  | .f => decodeF r
  | .b => decodeB r
  | .x => decodeX l r

/-- Decode a slot of a unit type. -/
def decodeSlot (u : UnitKind) (l w : Slot) : DecodeResult := decodeRaw u l (Raw.ofWord w)

/-- A template: the unit of each slot and the stops (30_encoding.md R305). In MLX the X instruction is slot 1. -/
structure Template where
  unit : Nat → UnitKind
  stop : Nat → Bool
  mlx : Bool

/-- The three units of a template with its stops after slots 0, 1, 2. -/
def mkTemplate (u0 u1 u2 : UnitKind) (s0 s1 s2 : Bool) (mlx : Bool := false) : Template :=
  { unit := fun n => match n with | 0 => u0 | 1 => u1 | _ => u2
    stop := fun n => match n with | 0 => s0 | 1 => s1 | _ => s2
    mlx := mlx }

/-- The template table (30_encoding.md R305); none is a reserved template. -/
def templateOf (t : BitVec 5) : Option Template :=
  let e := decide (t.extractLsb' 0 1 = 1)
  match (t.extractLsb' 1 4).toNat with
  | 0x0 => some (mkTemplate .m .i .i false false e)
  | 0x1 => some (mkTemplate .m .i .i false true e)
  | 0x2 => some (mkTemplate .m .x .x false e e true)
  | 0x4 => some (mkTemplate .m .m .i false false e)
  | 0x5 => some (mkTemplate .m .m .i true false e)
  | 0x6 => some (mkTemplate .m .f .i false false e)
  | 0x7 => some (mkTemplate .m .m .f false false e)
  | 0x8 => some (mkTemplate .m .i .b false false e)
  | 0x9 => some (mkTemplate .m .b .b false false e)
  | 0xb => some (mkTemplate .b .b .b false false e)
  | 0xc => some (mkTemplate .m .m .b false false e)
  | 0xe => some (mkTemplate .m .f .b false false e)
  | _ => none

/-- A bundle is 128 bits (30_encoding.md R301). -/
abbrev Bundle := BitVec 128
/-- The template bits 4:0. -/
def Bundle.template (b : Bundle) : BitVec 5 := b.extractLsb' 0 5
/-- The slots: bits 45:5, 86:46, 127:87. -/
def Bundle.slot (b : Bundle) (n : Nat) : Slot :=
  match n with
  | 0 => b.extractLsb' 5 41
  | 1 => b.extractLsb' 46 41
  | _ => b.extractLsb' 87 41

/-- What the slot numbered n of a bundle holds; `mlxTail` is slot 2 of MLX, where no instruction starts. -/
structure SlotInfo where
  result : DecodeResult
  unit : UnitKind
  qp : BitVec 6
  mlx : Bool
  mlxTail : Bool
  stop : Bool

/-- Decode one slot of a bundle; none for a reserved template. The X instruction of MLX takes its word from slot 2. -/
def decodeBundleSlot (b : Bundle) (n : Nat) : Option SlotInfo :=
  match templateOf b.template with
  | none => none
  | some t =>
    let x := t.mlx && n == 1
    let w := if x then b.slot 2 else b.slot n
    some { result := decodeSlot (t.unit n) (b.slot 1) w, unit := t.unit n, qp := w.extractLsb' 0 6
           mlx := x, mlxTail := t.mlx && n == 2, stop := t.stop n }

/-! The encoder. -/

/-- The unit type an instruction is encoded for; the A type is written for an M slot. -/
def Instr.unitOf : Instr → UnitKind
  | .breakI .. => .i
  | .nopI .. => .i
  | .hintI .. => .i
  | .breakB .. => .b
  | .cover => .b
  | .clrrrb => .b
  | .clrrrbPr => .b
  | .rfi => .b
  | .bsw0 => .b
  | .bsw1 => .b
  | .epc => .b
  | .vmsw0 => .b
  | .vmsw1 => .b
  | .brCond .. => .b
  | .brIa .. => .b
  | .brRet .. => .b
  | .nopB .. => .b
  | .hintB .. => .b
  | .breakFX _ (.f _) => .f
  | .breakFX _ (.x _) => .x
  | .movI .. => .i
  | .brRel _ => .b
  | _ => .m

/-- x6 of the floating-point formats (the inverse of `fpFmtOf`). -/
def FpFmt.code : FpFmt → BitVec 2
  | .extended => 0 | .int8 => 1 | .single => 2 | .double => 3
/-- x6{1:0} of a pair format. -/
def PairFmt.code : PairFmt → BitVec 2
  | .int8 => 1 | .single => 2 | .double => 3
/-- x6{5:2} of a floating-point completer. -/
def FpFlavour.code : FpFlavour → BitVec 4
  | .plain => 0 | .s => 1 | .a => 2 | .sa => 3 | .cClr => 8 | .cNc => 9
/-- A completer other than none, as a completer. -/
def FpSpec.flavour : FpSpec → FpFlavour
  | .s => .s | .a => .a | .sa => .sa | .cClr => .cClr | .cNc => .cNc
/-- x6{5:2} of an integer load. -/
def LoadFlavour.code : LoadFlavour → BitVec 4
  | .plain => 0 | .s => 1 | .a => 2 | .sa => 3 | .bias => 4 | .acq => 5 | .cClr => 8 | .cNc => 9 | .cClrAcq => 10

/-- The pieces of a memory format with x6 given as kind and low bits. -/
def rawMem (op : BitVec 4) (kind : BitVec 4) (low : BitVec 2) (xl : BitVec 1) (qp : BitVec 6) (r3 : BitVec 7)
    (hint : BitVec 2) : Raw :=
  { op := op, x3 := kind.extractLsb' 1 3, xh := kind.extractLsb' 0 1 ++ low, xm := hint, xl := xl, f3 := r3, qp := qp }

/-- The kind and low bits of x6 for an update operation. -/
def UpdOp.code : UpdOp → BitVec 4 × BitVec 2
  | .load sz fl _ => (fl.code, sz)
  | .fill _ => (6, 3)
  | .store sz rel _ => (if rel then 13 else 12, sz)
  | .spill _ => (14, 3)
  | .lfetch fault excl => (11, BitVec.ofBool fault ++ BitVec.ofBool excl)
  | .fpLoad fmt fl _ => (fl.code, fmt.code)
  | .fpFill _ => (6, 3)
  | .fpStore fmt _ => (12, fmt.code)
  | .fpSpill _ => (14, 3)
  | .fpPair fmt fl _ _ => (fl.code, fmt.code)

/-- Whether the operation is one of the integer opcodes 4 and 5 (else 6 and 7). -/
def UpdOp.isInt : UpdOp → Bool
  | .load .. | .fill _ | .store .. | .spill _ => true
  | _ => false

/-- The field that holds a load's target. -/
def UpdOp.target : UpdOp → BitVec 7
  | .load _ _ r | .fill r | .fpLoad _ _ r | .fpFill r | .fpPair _ _ r _ => r
  | _ => 0

/-- The field that holds a store's data register. -/
def UpdOp.data : UpdOp → BitVec 7
  | .store _ _ r | .spill r | .fpStore _ r | .fpSpill r | .fpPair _ _ _ r => r
  | _ => 0

/-- The pieces of a base-update form. -/
def encodeUpd (qp : BitVec 6) (op : UpdOp) (r3 : BitVec 7) (upd : Upd) (hint : BitVec 2) : Raw :=
  match upd with
  | .reg r2 =>
    { rawMem (if op.isInt then 4 else 6) op.code.1 op.code.2 0 qp r3 hint with b36 := 1, f2 := r2, f1 := op.target }
  | .imm i =>
    let base := rawMem (if op.isInt then 5 else 7) op.code.1 op.code.2 (i.extractLsb' 7 1) qp r3 hint
    if op.isStore then { base with b36 := i.extractLsb' 8 1, f2 := op.data, f1 := i.extractLsb' 0 7 }
    else { base with b36 := i.extractLsb' 8 1, f2 := i.extractLsb' 0 7, f1 := op.target }
  | .size => { rawMem 6 op.code.1 op.code.2 1 qp r3 hint with b36 := 1, f2 := op.data, f1 := op.target }

/-- The pieces of the no-operation formats: y, imm20a, i. -/
def rawImm21 (r : Raw) (y : BitVec 1) (imm : BitVec 21) : Raw :=
  { r with b36 := imm.extractLsb' 20 1, f3 := y ++ imm.extractLsb' 14 6, f2 := imm.extractLsb' 7 7, f1 := imm.extractLsb' 0 7 }

/-- The pieces of an IP-relative branch: displacement s : imm20b, hints, and the low three bits of bits 12:6. -/
def rawBranch (op : BitVec 4) (qp : BitVec 6) (low : BitVec 3) (imm : BitVec 21) (p : BitVec 1) (wh : BitVec 2)
    (d : BitVec 1) : Raw :=
  { op := op, b36 := imm.extractLsb' 20 1, x3 := d ++ wh, xh := imm.extractLsb' 17 3, xm := imm.extractLsb' 15 2
    xl := imm.extractLsb' 14 1, f3 := imm.extractLsb' 7 7, f2 := imm.extractLsb' 0 7, f1 := p ++ 0#3 ++ low, qp := qp }

/-- The pieces of an instruction's slot (30_encoding.md R308 to R313). -/
def encodeRaw : Instr → Raw
  | .breakM qp imm => rawImm21 { op := 0#4, x3 := 0#3, xh := 0#3, xm := 0#2, xl := 0#1, qp := qp } 0 imm
  | .invala qp => { op := 0#4, x3 := 0#3, xh := 2#3, xm := 0#2, xl := 0#1, qp := qp }
  | .fwb qp => { op := 0#4, x3 := 0#3, xh := 4#3, xm := 0#2, xl := 0#1, qp := qp }
  | .srlzD qp => { op := 0#4, x3 := 0#3, xh := 6#3, xm := 0#2, xl := 0#1, qp := qp }
  | .nopM qp imm => rawImm21 { op := 0#4, x3 := 0#3, xh := 0#3, xm := 0#2, xl := 1#1, qp := qp } 0 imm
  | .hintM qp imm => rawImm21 { op := 0#4, x3 := 0#3, xh := 0#3, xm := 0#2, xl := 1#1, qp := qp } 1 imm
  | .srlzI qp => { op := 0#4, x3 := 0#3, xh := 6#3, xm := 0#2, xl := 1#1, qp := qp }
  | .invalaER qp r1 => { op := 0#4, x3 := 0#3, xh := 2#3, xm := 1#2, xl := 0#1, f1 := r1, qp := qp }
  | .mf qp => { op := 0#4, x3 := 0#3, xh := 4#3, xm := 1#2, xl := 0#1, qp := qp }
  | .invalaEF qp f1 => { op := 0#4, x3 := 0#3, xh := 2#3, xm := 1#2, xl := 1#1, f1 := f1, qp := qp }
  | .mfA qp => { op := 0#4, x3 := 0#3, xh := 4#3, xm := 1#2, xl := 1#1, qp := qp }
  | .syncI qp => { op := 0#4, x3 := 0#3, xh := 6#3, xm := 1#2, xl := 1#1, qp := qp }
  | .sum qp imm => { op := 0#4, b36 := imm.extractLsb' 23 1, x3 := 0#3, xh := imm.extractLsb' 21 2 ++ 0#1, xm := 2#2, xl := 0#1, f3 := imm.extractLsb' 14 7, f2 := imm.extractLsb' 7 7, f1 := imm.extractLsb' 0 7, qp := qp }
  | .rum qp imm => { op := 0#4, b36 := imm.extractLsb' 23 1, x3 := 0#3, xh := imm.extractLsb' 21 2 ++ 0#1, xm := 2#2, xl := 1#1, f3 := imm.extractLsb' 14 7, f2 := imm.extractLsb' 7 7, f1 := imm.extractLsb' 0 7, qp := qp }
  | .ssm qp imm => { op := 0#4, b36 := imm.extractLsb' 23 1, x3 := 0#3, xh := imm.extractLsb' 21 2 ++ 0#1, xm := 3#2, xl := 0#1, f3 := imm.extractLsb' 14 7, f2 := imm.extractLsb' 7 7, f1 := imm.extractLsb' 0 7, qp := qp }
  | .rsm qp imm => { op := 0#4, b36 := imm.extractLsb' 23 1, x3 := 0#3, xh := imm.extractLsb' 21 2 ++ 0#1, xm := 3#2, xl := 1#1, f3 := imm.extractLsb' 14 7, f2 := imm.extractLsb' 7 7, f1 := imm.extractLsb' 0 7, qp := qp }
  | .movArImm qp ar3 imm => { op := 0#4, b36 := imm.extractLsb' 7 1, x3 := 0#3, xh := 5#3, xm := 0#2, xl := 0#1, f3 := ar3, f2 := imm.extractLsb' 0 7, qp := qp }
  | .loadrs => { op := 0#4, x3 := 0#3, xh := 1#3, xm := 1#2, xl := 0#1 }
  | .flushrs => { op := 0#4, x3 := 0#3, xh := 1#3, xm := 2#2, xl := 0#1 }
  | .chkANcR qp r1 imm => { op := 0#4, b36 := imm.extractLsb' 20 1, x3 := 4#3, xh := imm.extractLsb' 17 3, xm := imm.extractLsb' 15 2, xl := imm.extractLsb' 14 1, f3 := imm.extractLsb' 7 7, f2 := imm.extractLsb' 0 7, f1 := r1, qp := qp }
  | .chkAClrR qp r1 imm => { op := 0#4, b36 := imm.extractLsb' 20 1, x3 := 5#3, xh := imm.extractLsb' 17 3, xm := imm.extractLsb' 15 2, xl := imm.extractLsb' 14 1, f3 := imm.extractLsb' 7 7, f2 := imm.extractLsb' 0 7, f1 := r1, qp := qp }
  | .chkANcF qp f1 imm => { op := 0#4, b36 := imm.extractLsb' 20 1, x3 := 6#3, xh := imm.extractLsb' 17 3, xm := imm.extractLsb' 15 2, xl := imm.extractLsb' 14 1, f3 := imm.extractLsb' 7 7, f2 := imm.extractLsb' 0 7, f1 := f1, qp := qp }
  | .chkAClrF qp f1 imm => { op := 0#4, b36 := imm.extractLsb' 20 1, x3 := 7#3, xh := imm.extractLsb' 17 3, xm := imm.extractLsb' 15 2, xl := imm.extractLsb' 14 1, f3 := imm.extractLsb' 7 7, f2 := imm.extractLsb' 0 7, f1 := f1, qp := qp }
  | .movToRr qp r3 r2 => { op := 1#4, x3 := 0#3, xh := 0#3, xm := 0#2, xl := 0#1, f3 := r3, f2 := r2, qp := qp }
  | .movToDbr qp r3 r2 => { op := 1#4, x3 := 0#3, xh := 0#3, xm := 0#2, xl := 1#1, f3 := r3, f2 := r2, qp := qp }
  | .movToIbr qp r3 r2 => { op := 1#4, x3 := 0#3, xh := 0#3, xm := 1#2, xl := 0#1, f3 := r3, f2 := r2, qp := qp }
  | .movToPkr qp r3 r2 => { op := 1#4, x3 := 0#3, xh := 0#3, xm := 1#2, xl := 1#1, f3 := r3, f2 := r2, qp := qp }
  | .movToPmc qp r3 r2 => { op := 1#4, x3 := 0#3, xh := 0#3, xm := 2#2, xl := 0#1, f3 := r3, f2 := r2, qp := qp }
  | .movToPmd qp r3 r2 => { op := 1#4, x3 := 0#3, xh := 0#3, xm := 2#2, xl := 1#1, f3 := r3, f2 := r2, qp := qp }
  | .movFromRr qp r1 r3 => { op := 1#4, x3 := 0#3, xh := 2#3, xm := 0#2, xl := 0#1, f3 := r3, f1 := r1, qp := qp }
  | .movFromDbr qp r1 r3 => { op := 1#4, x3 := 0#3, xh := 2#3, xm := 0#2, xl := 1#1, f3 := r3, f1 := r1, qp := qp }
  | .movFromIbr qp r1 r3 => { op := 1#4, x3 := 0#3, xh := 2#3, xm := 1#2, xl := 0#1, f3 := r3, f1 := r1, qp := qp }
  | .movFromPkr qp r1 r3 => { op := 1#4, x3 := 0#3, xh := 2#3, xm := 1#2, xl := 1#1, f3 := r3, f1 := r1, qp := qp }
  | .movFromPmc qp r1 r3 => { op := 1#4, x3 := 0#3, xh := 2#3, xm := 2#2, xl := 0#1, f3 := r3, f1 := r1, qp := qp }
  | .movFromPmd qp r1 r3 => { op := 1#4, x3 := 0#3, xh := 2#3, xm := 2#2, xl := 1#1, f3 := r3, f1 := r1, qp := qp }
  | .movFromCpuid qp r1 r3 => { op := 1#4, x3 := 0#3, xh := 2#3, xm := 3#2, xl := 1#1, f3 := r3, f1 := r1, qp := qp }
  | .ptcL qp r3 r2 => { op := 1#4, x3 := 0#3, xh := 1#3, xm := 0#2, xl := 1#1, f3 := r3, f2 := r2, qp := qp }
  | .ptcG qp r3 r2 => { op := 1#4, x3 := 0#3, xh := 1#3, xm := 1#2, xl := 0#1, f3 := r3, f2 := r2, qp := qp }
  | .ptcGa qp r3 r2 => { op := 1#4, x3 := 0#3, xh := 1#3, xm := 1#2, xl := 1#1, f3 := r3, f2 := r2, qp := qp }
  | .ptrD qp r3 r2 => { op := 1#4, x3 := 0#3, xh := 1#3, xm := 2#2, xl := 0#1, f3 := r3, f2 := r2, qp := qp }
  | .ptrI qp r3 r2 => { op := 1#4, x3 := 0#3, xh := 1#3, xm := 2#2, xl := 1#1, f3 := r3, f2 := r2, qp := qp }
  | .itrD qp r3 r2 => { op := 1#4, x3 := 0#3, xh := 1#3, xm := 3#2, xl := 0#1, f3 := r3, f2 := r2, qp := qp }
  | .itrI qp r3 r2 => { op := 1#4, x3 := 0#3, xh := 1#3, xm := 3#2, xl := 1#1, f3 := r3, f2 := r2, qp := qp }
  | .probeRImm qp r1 r3 imm => { op := 1#4, x3 := 0#3, xh := 3#3, xm := 0#2, xl := 0#1, f3 := r3, f2 := 0#5 ++ imm, f1 := r1, qp := qp }
  | .probeWImm qp r1 r3 imm => { op := 1#4, x3 := 0#3, xh := 3#3, xm := 0#2, xl := 1#1, f3 := r3, f2 := 0#5 ++ imm, f1 := r1, qp := qp }
  | .thash qp r1 r3 => { op := 1#4, x3 := 0#3, xh := 3#3, xm := 1#2, xl := 0#1, f3 := r3, f1 := r1, qp := qp }
  | .ttag qp r1 r3 => { op := 1#4, x3 := 0#3, xh := 3#3, xm := 1#2, xl := 1#1, f3 := r3, f1 := r1, qp := qp }
  | .tpa qp r1 r3 => { op := 1#4, x3 := 0#3, xh := 3#3, xm := 3#2, xl := 0#1, f3 := r3, f1 := r1, qp := qp }
  | .tak qp r1 r3 => { op := 1#4, x3 := 0#3, xh := 3#3, xm := 3#2, xl := 1#1, f3 := r3, f1 := r1, qp := qp }
  | .movFromUm qp r1 => { op := 1#4, x3 := 0#3, xh := 4#3, xm := 0#2, xl := 1#1, f1 := r1, qp := qp }
  | .movFromAr qp r1 ar3 => { op := 1#4, x3 := 0#3, xh := 4#3, xm := 1#2, xl := 0#1, f3 := ar3, f1 := r1, qp := qp }
  | .movFromCr qp r1 cr3 => { op := 1#4, x3 := 0#3, xh := 4#3, xm := 2#2, xl := 0#1, f3 := cr3, f1 := r1, qp := qp }
  | .movFromPsr qp r1 => { op := 1#4, x3 := 0#3, xh := 4#3, xm := 2#2, xl := 1#1, f1 := r1, qp := qp }
  | .movToUm qp r2 => { op := 1#4, x3 := 0#3, xh := 5#3, xm := 0#2, xl := 1#1, f2 := r2, qp := qp }
  | .movToAr qp ar3 r2 => { op := 1#4, x3 := 0#3, xh := 5#3, xm := 1#2, xl := 0#1, f3 := ar3, f2 := r2, qp := qp }
  | .movToCr qp cr3 r2 => { op := 1#4, x3 := 0#3, xh := 5#3, xm := 2#2, xl := 0#1, f3 := cr3, f2 := r2, qp := qp }
  | .movToPsrL qp r2 => { op := 1#4, x3 := 0#3, xh := 5#3, xm := 2#2, xl := 1#1, f2 := r2, qp := qp }
  | .itcD qp r2 => { op := 1#4, x3 := 0#3, xh := 5#3, xm := 3#2, xl := 0#1, f2 := r2, qp := qp }
  | .itcI qp r2 => { op := 1#4, x3 := 0#3, xh := 5#3, xm := 3#2, xl := 1#1, f2 := r2, qp := qp }
  | .fc qp r3 => { op := 1#4, x3 := 0#3, xh := 6#3, xm := 0#2, xl := 0#1, f3 := r3, qp := qp }
  | .fcI qp r3 => { op := 1#4, b36 := 1#1, x3 := 0#3, xh := 6#3, xm := 0#2, xl := 0#1, f3 := r3, qp := qp }
  | .probeRwFault qp r3 imm => { op := 1#4, x3 := 0#3, xh := 6#3, xm := 0#2, xl := 1#1, f3 := r3, f2 := 0#5 ++ imm, qp := qp }
  | .probeRFault qp r3 imm => { op := 1#4, x3 := 0#3, xh := 6#3, xm := 1#2, xl := 0#1, f3 := r3, f2 := 0#5 ++ imm, qp := qp }
  | .probeWFault qp r3 imm => { op := 1#4, x3 := 0#3, xh := 6#3, xm := 1#2, xl := 1#1, f3 := r3, f2 := 0#5 ++ imm, qp := qp }
  | .ptcE qp r3 => { op := 1#4, x3 := 0#3, xh := 6#3, xm := 2#2, xl := 0#1, f3 := r3, qp := qp }
  | .probeR qp r1 r3 r2 => { op := 1#4, x3 := 0#3, xh := 7#3, xm := 0#2, xl := 0#1, f3 := r3, f2 := r2, f1 := r1, qp := qp }
  | .probeW qp r1 r3 r2 => { op := 1#4, x3 := 0#3, xh := 7#3, xm := 0#2, xl := 1#1, f3 := r3, f2 := r2, f1 := r1, qp := qp }
  | .chkSM qp r2 imm => { op := 1#4, b36 := imm.extractLsb' 20 1, x3 := 1#3, xh := imm.extractLsb' 17 3, xm := imm.extractLsb' 15 2, xl := imm.extractLsb' 14 1, f3 := imm.extractLsb' 7 7, f2 := r2, f1 := imm.extractLsb' 0 7, qp := qp }
  | .chkSF qp f2 imm => { op := 1#4, b36 := imm.extractLsb' 20 1, x3 := 3#3, xh := imm.extractLsb' 17 3, xm := imm.extractLsb' 15 2, xl := imm.extractLsb' 14 1, f3 := imm.extractLsb' 7 7, f2 := f2, f1 := imm.extractLsb' 0 7, qp := qp }
  | .alloc r1 sof sol sor => { op := 1#4, x3 := 6#3, xh := 0#2 ++ sor.extractLsb' 3 1, xm := sor.extractLsb' 1 2, xl := sor.extractLsb' 0 1, f3 := sol, f2 := sof, f1 := r1 }
  | .breakI qp imm => rawImm21 { op := 0#4, x3 := 0#3, xh := 0#3, xm := 0#2, xl := 0#1, qp := qp } 0 imm
  | .nopI qp imm => rawImm21 { op := 0#4, x3 := 0#3, xh := 0#3, xm := 0#2, xl := 1#1, qp := qp } 0 imm
  | .hintI qp imm => rawImm21 { op := 0#4, x3 := 0#3, xh := 0#3, xm := 0#2, xl := 1#1, qp := qp } 1 imm
  | .breakB qp imm => rawImm21 { op := 0#4, xh := 0#3, xm := 0#2, xl := 0#1, qp := qp } 0 imm
  | .cover => { op := 0#4, xh := 0#3, xm := 1#2, xl := 0#1 }
  | .clrrrb => { op := 0#4, xh := 0#3, xm := 2#2, xl := 0#1 }
  | .clrrrbPr => { op := 0#4, xh := 0#3, xm := 2#2, xl := 1#1 }
  | .rfi => { op := 0#4, xh := 1#3, xm := 0#2, xl := 0#1 }
  | .bsw0 => { op := 0#4, xh := 1#3, xm := 2#2, xl := 0#1 }
  | .bsw1 => { op := 0#4, xh := 1#3, xm := 2#2, xl := 1#1 }
  | .epc => { op := 0#4, xh := 2#3, xm := 0#2, xl := 0#1 }
  | .vmsw0 => { op := 0#4, xh := 3#3, xm := 0#2, xl := 0#1 }
  | .vmsw1 => { op := 0#4, xh := 3#3, xm := 0#2, xl := 1#1 }
  | .brCond qp b2 p wh d => { op := 0#4, x3 := d ++ wh, xh := 4#3, xm := 0#2, xl := 0#1, f2 := 0#4 ++ b2, f1 := p ++ 0#3 ++ 0#3, qp := qp }
  | .brIa b2 p wh d => { op := 0#4, x3 := d ++ wh, xh := 4#3, xm := 0#2, xl := 0#1, f2 := 0#4 ++ b2, f1 := p ++ 0#3 ++ 1#3 }
  | .brRet qp b2 p wh d => { op := 0#4, x3 := d ++ wh, xh := 4#3, xm := 0#2, xl := 1#1, f2 := 0#4 ++ b2, f1 := p ++ 0#3 ++ 4#3, qp := qp }
  | .nopB qp imm => rawImm21 { op := 2#4, xh := 0#3, xm := 0#2, xl := 0#1, qp := qp } 0 imm
  | .hintB qp imm => rawImm21 { op := 2#4, xh := 0#3, xm := 0#2, xl := 1#1, qp := qp } 0 imm
  | .ld1 qp r1 r3 hint => { op := 4#4, x3 := 0#3, xh := 0#3, xm := hint, xl := 0#1, f3 := r3, f1 := r1, qp := qp }
  | .ld2 qp r1 r3 hint => { op := 4#4, x3 := 0#3, xh := 1#3, xm := hint, xl := 0#1, f3 := r3, f1 := r1, qp := qp }
  | .ld4 qp r1 r3 hint => { op := 4#4, x3 := 0#3, xh := 2#3, xm := hint, xl := 0#1, f3 := r3, f1 := r1, qp := qp }
  | .ld8 qp r1 r3 hint => { op := 4#4, x3 := 0#3, xh := 3#3, xm := hint, xl := 0#1, f3 := r3, f1 := r1, qp := qp }
  | .ld1S qp r1 r3 hint => { op := 4#4, x3 := 0#3, xh := 4#3, xm := hint, xl := 0#1, f3 := r3, f1 := r1, qp := qp }
  | .ld2S qp r1 r3 hint => { op := 4#4, x3 := 0#3, xh := 5#3, xm := hint, xl := 0#1, f3 := r3, f1 := r1, qp := qp }
  | .ld4S qp r1 r3 hint => { op := 4#4, x3 := 0#3, xh := 6#3, xm := hint, xl := 0#1, f3 := r3, f1 := r1, qp := qp }
  | .ld8S qp r1 r3 hint => { op := 4#4, x3 := 0#3, xh := 7#3, xm := hint, xl := 0#1, f3 := r3, f1 := r1, qp := qp }
  | .ld1A qp r1 r3 hint => { op := 4#4, x3 := 1#3, xh := 0#3, xm := hint, xl := 0#1, f3 := r3, f1 := r1, qp := qp }
  | .ld2A qp r1 r3 hint => { op := 4#4, x3 := 1#3, xh := 1#3, xm := hint, xl := 0#1, f3 := r3, f1 := r1, qp := qp }
  | .ld4A qp r1 r3 hint => { op := 4#4, x3 := 1#3, xh := 2#3, xm := hint, xl := 0#1, f3 := r3, f1 := r1, qp := qp }
  | .ld8A qp r1 r3 hint => { op := 4#4, x3 := 1#3, xh := 3#3, xm := hint, xl := 0#1, f3 := r3, f1 := r1, qp := qp }
  | .ld1Sa qp r1 r3 hint => { op := 4#4, x3 := 1#3, xh := 4#3, xm := hint, xl := 0#1, f3 := r3, f1 := r1, qp := qp }
  | .ld2Sa qp r1 r3 hint => { op := 4#4, x3 := 1#3, xh := 5#3, xm := hint, xl := 0#1, f3 := r3, f1 := r1, qp := qp }
  | .ld4Sa qp r1 r3 hint => { op := 4#4, x3 := 1#3, xh := 6#3, xm := hint, xl := 0#1, f3 := r3, f1 := r1, qp := qp }
  | .ld8Sa qp r1 r3 hint => { op := 4#4, x3 := 1#3, xh := 7#3, xm := hint, xl := 0#1, f3 := r3, f1 := r1, qp := qp }
  | .ld1Bias qp r1 r3 hint => { op := 4#4, x3 := 2#3, xh := 0#3, xm := hint, xl := 0#1, f3 := r3, f1 := r1, qp := qp }
  | .ld2Bias qp r1 r3 hint => { op := 4#4, x3 := 2#3, xh := 1#3, xm := hint, xl := 0#1, f3 := r3, f1 := r1, qp := qp }
  | .ld4Bias qp r1 r3 hint => { op := 4#4, x3 := 2#3, xh := 2#3, xm := hint, xl := 0#1, f3 := r3, f1 := r1, qp := qp }
  | .ld8Bias qp r1 r3 hint => { op := 4#4, x3 := 2#3, xh := 3#3, xm := hint, xl := 0#1, f3 := r3, f1 := r1, qp := qp }
  | .ld1Acq qp r1 r3 hint => { op := 4#4, x3 := 2#3, xh := 4#3, xm := hint, xl := 0#1, f3 := r3, f1 := r1, qp := qp }
  | .ld2Acq qp r1 r3 hint => { op := 4#4, x3 := 2#3, xh := 5#3, xm := hint, xl := 0#1, f3 := r3, f1 := r1, qp := qp }
  | .ld4Acq qp r1 r3 hint => { op := 4#4, x3 := 2#3, xh := 6#3, xm := hint, xl := 0#1, f3 := r3, f1 := r1, qp := qp }
  | .ld8Acq qp r1 r3 hint => { op := 4#4, x3 := 2#3, xh := 7#3, xm := hint, xl := 0#1, f3 := r3, f1 := r1, qp := qp }
  | .ld1CClr qp r1 r3 hint => { op := 4#4, x3 := 4#3, xh := 0#3, xm := hint, xl := 0#1, f3 := r3, f1 := r1, qp := qp }
  | .ld2CClr qp r1 r3 hint => { op := 4#4, x3 := 4#3, xh := 1#3, xm := hint, xl := 0#1, f3 := r3, f1 := r1, qp := qp }
  | .ld4CClr qp r1 r3 hint => { op := 4#4, x3 := 4#3, xh := 2#3, xm := hint, xl := 0#1, f3 := r3, f1 := r1, qp := qp }
  | .ld8CClr qp r1 r3 hint => { op := 4#4, x3 := 4#3, xh := 3#3, xm := hint, xl := 0#1, f3 := r3, f1 := r1, qp := qp }
  | .ld1CNc qp r1 r3 hint => { op := 4#4, x3 := 4#3, xh := 4#3, xm := hint, xl := 0#1, f3 := r3, f1 := r1, qp := qp }
  | .ld2CNc qp r1 r3 hint => { op := 4#4, x3 := 4#3, xh := 5#3, xm := hint, xl := 0#1, f3 := r3, f1 := r1, qp := qp }
  | .ld4CNc qp r1 r3 hint => { op := 4#4, x3 := 4#3, xh := 6#3, xm := hint, xl := 0#1, f3 := r3, f1 := r1, qp := qp }
  | .ld8CNc qp r1 r3 hint => { op := 4#4, x3 := 4#3, xh := 7#3, xm := hint, xl := 0#1, f3 := r3, f1 := r1, qp := qp }
  | .ld1CClrAcq qp r1 r3 hint => { op := 4#4, x3 := 5#3, xh := 0#3, xm := hint, xl := 0#1, f3 := r3, f1 := r1, qp := qp }
  | .ld2CClrAcq qp r1 r3 hint => { op := 4#4, x3 := 5#3, xh := 1#3, xm := hint, xl := 0#1, f3 := r3, f1 := r1, qp := qp }
  | .ld4CClrAcq qp r1 r3 hint => { op := 4#4, x3 := 5#3, xh := 2#3, xm := hint, xl := 0#1, f3 := r3, f1 := r1, qp := qp }
  | .ld8CClrAcq qp r1 r3 hint => { op := 4#4, x3 := 5#3, xh := 3#3, xm := hint, xl := 0#1, f3 := r3, f1 := r1, qp := qp }
  | .ld8Fill qp r1 r3 hint => { op := 4#4, x3 := 3#3, xh := 3#3, xm := hint, xl := 0#1, f3 := r3, f1 := r1, qp := qp }
  | .st1 qp r2 r3 hint => { op := 4#4, x3 := 6#3, xh := 0#3, xm := hint, xl := 0#1, f3 := r3, f2 := r2, qp := qp }
  | .st2 qp r2 r3 hint => { op := 4#4, x3 := 6#3, xh := 1#3, xm := hint, xl := 0#1, f3 := r3, f2 := r2, qp := qp }
  | .st4 qp r2 r3 hint => { op := 4#4, x3 := 6#3, xh := 2#3, xm := hint, xl := 0#1, f3 := r3, f2 := r2, qp := qp }
  | .st8 qp r2 r3 hint => { op := 4#4, x3 := 6#3, xh := 3#3, xm := hint, xl := 0#1, f3 := r3, f2 := r2, qp := qp }
  | .st1Rel qp r2 r3 hint => { op := 4#4, x3 := 6#3, xh := 4#3, xm := hint, xl := 0#1, f3 := r3, f2 := r2, qp := qp }
  | .st2Rel qp r2 r3 hint => { op := 4#4, x3 := 6#3, xh := 5#3, xm := hint, xl := 0#1, f3 := r3, f2 := r2, qp := qp }
  | .st4Rel qp r2 r3 hint => { op := 4#4, x3 := 6#3, xh := 6#3, xm := hint, xl := 0#1, f3 := r3, f2 := r2, qp := qp }
  | .st8Rel qp r2 r3 hint => { op := 4#4, x3 := 6#3, xh := 7#3, xm := hint, xl := 0#1, f3 := r3, f2 := r2, qp := qp }
  | .st8Spill qp r2 r3 hint => { op := 4#4, x3 := 7#3, xh := 3#3, xm := hint, xl := 0#1, f3 := r3, f2 := r2, qp := qp }
  | .cmpxchg1Acq qp r1 r2 r3 hint => { op := 4#4, x3 := 0#3, xh := 0#3, xm := hint, xl := 1#1, f3 := r3, f2 := r2, f1 := r1, qp := qp }
  | .cmpxchg2Acq qp r1 r2 r3 hint => { op := 4#4, x3 := 0#3, xh := 1#3, xm := hint, xl := 1#1, f3 := r3, f2 := r2, f1 := r1, qp := qp }
  | .cmpxchg4Acq qp r1 r2 r3 hint => { op := 4#4, x3 := 0#3, xh := 2#3, xm := hint, xl := 1#1, f3 := r3, f2 := r2, f1 := r1, qp := qp }
  | .cmpxchg8Acq qp r1 r2 r3 hint => { op := 4#4, x3 := 0#3, xh := 3#3, xm := hint, xl := 1#1, f3 := r3, f2 := r2, f1 := r1, qp := qp }
  | .cmpxchg1Rel qp r1 r2 r3 hint => { op := 4#4, x3 := 0#3, xh := 4#3, xm := hint, xl := 1#1, f3 := r3, f2 := r2, f1 := r1, qp := qp }
  | .cmpxchg2Rel qp r1 r2 r3 hint => { op := 4#4, x3 := 0#3, xh := 5#3, xm := hint, xl := 1#1, f3 := r3, f2 := r2, f1 := r1, qp := qp }
  | .cmpxchg4Rel qp r1 r2 r3 hint => { op := 4#4, x3 := 0#3, xh := 6#3, xm := hint, xl := 1#1, f3 := r3, f2 := r2, f1 := r1, qp := qp }
  | .cmpxchg8Rel qp r1 r2 r3 hint => { op := 4#4, x3 := 0#3, xh := 7#3, xm := hint, xl := 1#1, f3 := r3, f2 := r2, f1 := r1, qp := qp }
  | .xchg1 qp r1 r2 r3 hint => { op := 4#4, x3 := 1#3, xh := 0#3, xm := hint, xl := 1#1, f3 := r3, f2 := r2, f1 := r1, qp := qp }
  | .xchg2 qp r1 r2 r3 hint => { op := 4#4, x3 := 1#3, xh := 1#3, xm := hint, xl := 1#1, f3 := r3, f2 := r2, f1 := r1, qp := qp }
  | .xchg4 qp r1 r2 r3 hint => { op := 4#4, x3 := 1#3, xh := 2#3, xm := hint, xl := 1#1, f3 := r3, f2 := r2, f1 := r1, qp := qp }
  | .xchg8 qp r1 r2 r3 hint => { op := 4#4, x3 := 1#3, xh := 3#3, xm := hint, xl := 1#1, f3 := r3, f2 := r2, f1 := r1, qp := qp }
  | .fetchadd4Acq qp r1 inc r3 hint => { op := 4#4, x3 := 2#3, xh := 2#3, xm := hint, xl := 1#1, f3 := r3, f2 := 0#4 ++ inc, f1 := r1, qp := qp }
  | .fetchadd8Acq qp r1 inc r3 hint => { op := 4#4, x3 := 2#3, xh := 3#3, xm := hint, xl := 1#1, f3 := r3, f2 := 0#4 ++ inc, f1 := r1, qp := qp }
  | .fetchadd4Rel qp r1 inc r3 hint => { op := 4#4, x3 := 2#3, xh := 6#3, xm := hint, xl := 1#1, f3 := r3, f2 := 0#4 ++ inc, f1 := r1, qp := qp }
  | .fetchadd8Rel qp r1 inc r3 hint => { op := 4#4, x3 := 2#3, xh := 7#3, xm := hint, xl := 1#1, f3 := r3, f2 := 0#4 ++ inc, f1 := r1, qp := qp }
  | .cmp8xchg16Acq qp r1 r2 r3 hint => { op := 4#4, x3 := 4#3, xh := 0#3, xm := hint, xl := 1#1, f3 := r3, f2 := r2, f1 := r1, qp := qp }
  | .cmp8xchg16Rel qp r1 r2 r3 hint => { op := 4#4, x3 := 4#3, xh := 4#3, xm := hint, xl := 1#1, f3 := r3, f2 := r2, f1 := r1, qp := qp }
  | .ld16 qp r1 r3 hint => { op := 4#4, x3 := 5#3, xh := 0#3, xm := hint, xl := 1#1, f3 := r3, f1 := r1, qp := qp }
  | .ld16Acq qp r1 r3 hint => { op := 4#4, x3 := 5#3, xh := 4#3, xm := hint, xl := 1#1, f3 := r3, f1 := r1, qp := qp }
  | .st16 qp r2 r3 hint => { op := 4#4, x3 := 6#3, xh := 0#3, xm := hint, xl := 1#1, f3 := r3, f2 := r2, qp := qp }
  | .st16Rel qp r2 r3 hint => { op := 4#4, x3 := 6#3, xh := 4#3, xm := hint, xl := 1#1, f3 := r3, f2 := r2, qp := qp }
  | .lfetch qp r3 hint => { op := 6#4, x3 := 5#3, xh := 4#3, xm := hint, f3 := r3, qp := qp }
  | .lfetchExcl qp r3 hint => { op := 6#4, x3 := 5#3, xh := 5#3, xm := hint, f3 := r3, qp := qp }
  | .lfetchFault qp r3 hint => { op := 6#4, x3 := 5#3, xh := 6#3, xm := hint, f3 := r3, qp := qp }
  | .lfetchFaultExcl qp r3 hint => { op := 6#4, x3 := 5#3, xh := 7#3, xm := hint, f3 := r3, qp := qp }
  | .ldfe qp f1 r3 hint => { op := 6#4, x3 := 0#3, xh := 0#3, xm := hint, f3 := r3, f1 := f1, qp := qp }
  | .stfe qp f2 r3 hint => { op := 6#4, x3 := 6#3, xh := 0#3, xm := hint, f3 := r3, f2 := f2, qp := qp }
  | .ldfs qp f1 r3 hint => { op := 6#4, x3 := 0#3, xh := 2#3, xm := hint, f3 := r3, f1 := f1, qp := qp }
  | .ldfd qp f1 r3 hint => { op := 6#4, x3 := 0#3, xh := 3#3, xm := hint, f3 := r3, f1 := f1, qp := qp }
  | .ldf8 qp f1 r3 hint => { op := 6#4, x3 := 0#3, xh := 1#3, xm := hint, f3 := r3, f1 := f1, qp := qp }
  | .ldfFill qp f1 r3 hint => { op := 6#4, x3 := 3#3, xh := 3#3, xm := hint, f3 := r3, f1 := f1, qp := qp }
  | .ldfp qp fmt flav f1 f2 r3 hint => { rawMem 6 flav.code fmt.code 1 qp r3 hint with f2 := f2, f1 := f1 }
  | .stfs qp f2 r3 hint => { op := 6#4, x3 := 6#3, xh := 2#3, xm := hint, f3 := r3, f2 := f2, qp := qp }
  | .stfd qp f2 r3 hint => { op := 6#4, x3 := 6#3, xh := 3#3, xm := hint, f3 := r3, f2 := f2, qp := qp }
  | .stf8 qp f2 r3 hint => { op := 6#4, x3 := 6#3, xh := 1#3, xm := hint, f3 := r3, f2 := f2, qp := qp }
  | .stfSpill qp f2 r3 hint => { op := 6#4, x3 := 7#3, xh := 3#3, xm := hint, f3 := r3, f2 := f2, qp := qp }
  | .ldfFlav qp fmt flav f1 r3 hint => { rawMem 6 flav.flavour.code fmt.code 0 qp r3 hint with f1 := f1 }
  | .memUpd qp op r3 upd hint => encodeUpd qp op r3 upd hint
  | .breakFX qp (.f imm) => rawImm21 { qp := qp } 0 imm
  | .breakFX qp (.x imm) => rawImm21 { qp := qp } 0 (imm.extractLsb' 0 21)
  | .movI qp (.toAr ar3 r2) => { xh := 5#3, xm := 1#2, xl := 0#1, f3 := ar3, f2 := r2, qp := qp }
  | .movI qp (.fromAr r1 ar3) => { xh := 6#3, xm := 1#2, xl := 0#1, f3 := ar3, f1 := r1, qp := qp }
  | .movI qp (.toArImm ar3 imm) =>
    { b36 := imm.extractLsb' 7 1, xh := 1#3, xm := 1#2, xl := 0#1, f3 := ar3, f2 := imm.extractLsb' 0 7, qp := qp }
  | .brRel (.cond qp imm p wh d) => rawBranch 4 qp 0 imm p wh d
  | .brRel (.wexit qp imm p wh d) => rawBranch 4 qp 2 imm p wh d
  | .brRel (.wtop qp imm p wh d) => rawBranch 4 qp 3 imm p wh d
  | .brRel (.cloop imm p wh d) => rawBranch 4 0 5 imm p wh d
  | .brRel (.cexit imm p wh d) => rawBranch 4 0 6 imm p wh d
  | .brRel (.ctop imm p wh d) => rawBranch 4 0 7 imm p wh d
  | .brRel (.call qp b1 imm p wh d) => rawBranch 5 qp b1 imm p wh d
  | .brRel (.brp w) => Raw.ofWord (7#4 ++ w)
  | .addp4 qp r1 r2 r3 => { op := 8#4, x3 := 0#3, xh := 1#3, xm := 0#2, xl := 0#1, f3 := r3, f2 := r2, f1 := r1, qp := qp }
  | .shladdp4 qp r1 r2 ct2d r3 => { op := 8#4, x3 := 0#3, xh := 3#3, xm := 0#1 ++ ct2d.extractLsb' 1 1, xl := ct2d.extractLsb' 0 1, f3 := r3, f2 := r2, f1 := r1, qp := qp }
  | .addp4Imm qp r1 imm r3 => { op := 8#4, b36 := imm.extractLsb' 13 1, x3 := 6#3, xh := imm.extractLsb' 10 3, xm := imm.extractLsb' 8 2, xl := imm.extractLsb' 7 1, f3 := r3, f2 := imm.extractLsb' 0 7, f1 := r1, qp := qp }

/-- The L slot of an instruction: only break.x has one. -/
def encodeL : Instr → Slot
  | .breakFX _ (.x imm) => imm.extractLsb' 21 41
  | _ => 0

/-- The slot word of an instruction. -/
def encodeWord (i : Instr) : Slot := (encodeRaw i).toWord

/-- The words of a well-formed instruction: its slot, and its L slot where it has one. -/
def encode (i : Instr) : List Slot :=
  match i with
  | .breakFX _ (.x _) => [encodeWord i, encodeL i]
  | _ => [encodeWord i]

/-! Words of the opcode table. -/

/-- The rows with no operand field, whose one word other units give to rows with fields (log entry 15). -/
def fixedWord : Instr → Bool
  | .clrrrb | .clrrrbPr | .bsw0 | .epc => true
  | _ => false

/-- The instruction a unit reads from a word, if any. -/
def unitReads (u : UnitKind) (w : Slot) : Option Instr := (decodeSlot u 0 w).toOption

/-- The instruction a unit reads from a word whose bits it all uses. -/
def unitReadsExactly (u : UnitKind) (w : Slot) : Option Instr :=
  match unitReads u w with
  | some i => if encodeWord i = w then some i else none
  | none => none

/-- The unit type and instruction of a word of the table: the table's words say which unit reads them only for some
rows, so the first unit of M, B, I that uses every bit of the word wins, then the first that reads it (log entry 15). -/
def tableUnit (w : Slot) : Option (UnitKind × Instr) :=
  match (unitReadsExactly .b w).filter fixedWord with
  | some i => some (.b, i)
  | none =>
    let tries : List (UnitKind × Option Instr) :=
      [(.m, unitReadsExactly .m w), (.b, unitReadsExactly .b w), (.i, unitReadsExactly .i w),
       (.m, unitReads .m w), (.b, unitReads .b w), (.i, unitReads .i w)]
    tries.findSome? fun p => p.2.map fun i => (p.1, i)

/-- The instruction the decoder reads from a table word; an instruction is one 41-bit slot. -/
def decodeTableWord (nbits w : Nat) : Option Instr :=
  if w % 2 ^ nbits < 2 ^ 41 then (tableUnit (BitVec.ofNat 41 (w % 2 ^ nbits))).map Prod.snd else none

end Sys2Proof
end

