-- ==== Sys2Proof/Machine/LoadOps.lean ====
section
/-!
DEFINITION. The operations every load, store, semaphore and prefetch shares (43_memory_instructions.md R421 to R455). Each
instruction's own meaning is one call of these in the family files.
-/
namespace Sys2Proof

/-- The control-speculative completers. -/
def LoadFlavour.speculative : LoadFlavour → Bool
  | .s | .sa => true
  | _ => false
/-- The advanced completers. -/
def LoadFlavour.advanced : LoadFlavour → Bool
  | .a | .sa => true
  | _ => false
/-- The check loads. -/
def LoadFlavour.checks : LoadFlavour → Bool
  | .cClr | .cNc | .cClrAcq => true
  | _ => false
/-- The check loads that clear on a hit. -/
def LoadFlavour.clears : LoadFlavour → Bool
  | .cClr | .cClrAcq => true
  | _ => false

namespace Machine

/-- What tells one load from another: size, alignment, supported pages, completer, the register the ALAT tracks, and how the
loaded bytes, a deferral, a failed advanced load and an ALAT hit act on the target. -/
structure LoadSpec where
  size : Nat
  align : Nat
  strict : Bool
  sup : Support
  flav : LoadFlavour
  fp : Bool
  reg : BitVec 7
  put : Bool → List Byte → State → State
  putNat : State → State
  putZero : State → State
  onHit : State → State

/-- The reference of a load. -/
def LoadSpec.ref (p : LoadSpec) (s : State) (r3 : BitVec 7) : Ref :=
  { va := s.val r3, size := p.size, align := p.align, r := true, sp := p.flav.speculative, adv := p.flav.advanced
    strict := p.strict, sup := p.sup, pl := s.cpl }

/-- A deferred load: the NaT indication, the base update, and for .sa no ALAT entry (43_memory_instructions.md R421 D, R442). -/
def loadDefer (p : LoadSpec) (r3 : BitVec 7) (u : BaseUpd) (s s1 : State) : Out :=
  let s2 := if p.flav = .sa then s1.alatRemove p.fp p.reg else s1
  finish s (s.updBase r3 u (p.putNat s2))

/-- An advanced load to a non-speculative page: zero and no entry (43_memory_instructions.md R441). -/
def loadAdvFail (p : LoadSpec) (r3 : BitVec 7) (u : BaseUpd) (s s1 : State) : Out :=
  finish s (s.updBase r3 u (p.putZero (s1.alatRemove p.fp p.reg)))

/-- The ALAT after a load that was performed: advanced loads and no-clear check loads allocate, on pages that allow
data speculation (43_memory_instructions.md R441 to R443; log entry 28). -/
def loadAlat (p : LoadSpec) (attr : Attr) (pa : Nat) (s : State) : State :=
  if (p.flav.advanced || decide (p.flav = .cNc)) && !attr.nonSpeculative then s.alatAlloc p.fp p.reg pa p.size else s

/-- The access of a load (43_memory_instructions.md R421 step 6). -/
def loadPerform (p : LoadSpec) (r3 : BitVec 7) (u : BaseUpd) (s : State) (c : Checked) : Out :=
  orRefuse (c.st.memLoad c.attr c.pa p.size) fun d =>
    finish s (s.updBase r3 u (p.put (s.dpsr Psr.be) d.1 (loadAlat p c.attr c.pa d.2)))

/-- After the checks: the speculation attribute, then the access (43_memory_instructions.md R421 steps 5, 6). -/
def loadChecked (p : LoadSpec) (r3 : BitVec 7) (u : BaseUpd) (s : State) (c : Checked) : Out :=
  if p.flav.speculative && !c.attr.speculative then loadDefer p r3 u s c.st
  else if p.flav.advanced && c.attr.nonSpeculative then loadAdvFail p r3 u s c.st
  else loadPerform p r3 u s c

/-- A load that references memory. -/
def loadRef (p : LoadSpec) (r3 : BitVec 7) (u : BaseUpd) (s : State) : Out :=
  if s.nat r3 then (if p.flav.speculative then loadDefer p r3 u s s else raise s (excRegNat false true false))
  else if p.flav.speculative && s.psrNow Psr.ed then loadDefer p r3 u s s
  else
    orRefuse (checkRef s 0 (p.ref s r3)) fun c =>
      if p.flav.speculative then
        match specOutcome s c.faults with
        | .proceed => loadChecked p r3 u s c
        | .defer => loadDefer p r3 u s c.st
        | .raise e => raise c.st e
      else
        match c.faults with
        | [] => loadChecked p r3 u s c
        | (_, e) :: _ => raise c.st e

/-- A check load that hits: the target stays, a clearing one drops the entry (43_memory_instructions.md R443). -/
def loadHit (p : LoadSpec) (r3 : BitVec 7) (u : BaseUpd) (s s1 : State) : Out :=
  finish s (s.updBase r3 u (p.onHit (if p.flav.clears then s1.alatRemove p.fp p.reg else s1)))

/-- A load, check loads included; whether a hit still raises the faults of its reference is free each time
(43_memory_instructions.md R426 to R443, 93_implementation_defined.md section 1; log entry 28). -/
def loadOp (p : LoadSpec) (r3 : BitVec 7) (u : BaseUpd) (s : State) : Out :=
  if p.flav.checks && s.alatHit p.fp p.reg then
    if Config.freeBit .checkHit s.tick then
      (if s.nat r3 then raise s (excRegNat false true false)
       else withRef s 0 (p.ref s r3) fun c => loadHit p r3 u s c.st)
    else loadHit p r3 u s s
  else loadRef p r3 u s

/-- The Illegal Operation causes of a base update: GR0 as its target, or the load's target (43_memory_instructions.md R423). -/
def updIllegal (r3 : BitVec 7) (target : Option (BitVec 7)) : BaseUpd → Bool
  | .none => false
  | _ => decide (r3 = 0) || decide (target = some r3)

/-- The bytes of a size code. -/
def sizeOf (sz : BitVec 2) : Nat := 2 ^ sz.toNat

/-- An integer load of n bytes into r1: zero-extended, NaT cleared (43_memory_instructions.md R423, R426). -/
def intSpec (n : Nat) (flav : LoadFlavour) (r1 : BitVec 7) : LoadSpec :=
  { size := n, align := n, strict := false, sup := .any, flav := flav, fp := false, reg := r1
    put := fun be bs s => s.setVal r1 (BitVec.ofNat 64 (bytesVal be bs))
    putNat := fun s => s.setGr r1 { val := Config.freeWord .natValue s.tick, nat := true }
    putZero := fun s => s.setVal r1 0
    onHit := id }

/-- An integer load. -/
def intLoad (qp : BitVec 6) (n : Nat) (flav : LoadFlavour) (r1 r3 : BitVec 7) (u : BaseUpd) (s : State) : Out :=
  predicated qp s <| guarded s (spChecks flav.speculative [chkIllegal (decide (r1 = 0) || updIllegal r3 (some r1) u)]) <|
    loadOp (intSpec n flav r1) r3 u s

/-- UNAT's bit for an address, bits 8:3 (43_memory_instructions.md R430). -/
def unatBit (va : Word) : Nat := (field va 3 6).toNat

/-- ld8.fill (43_memory_instructions.md R430). -/
def fillLoad (qp : BitVec 6) (r1 r3 : BitVec 7) (u : BaseUpd) (s : State) : Out :=
  predicated qp s <| guarded s [chkIllegal (decide (r1 = 0) || updIllegal r3 (some r1) u)] <|
    loadOp { intSpec 8 .plain r1 with
      put := fun be bs t => t.setGr r1
        { val := BitVec.ofNat 64 (bytesVal be bs), nat := bit (s.getAr Ar.unat) (unatBit (s.val r3)) } } r3 u s

/-- ld16: the low 8 bytes to r1, the high 8 to AR[CSD]; with PSR.be = 1 the spec does not say which half goes where, and
both are free (43_memory_instructions.md R431; log entry 41). -/
def load16 (qp : BitVec 6) (r1 r3 : BitVec 7) (s : State) : Out :=
  predicated qp s <| guarded s [chkTarget r1] <|
    loadOp { intSpec 16 .plain r1 with
      strict := true, sup := .writeBackOnly
      put := fun be bs t =>
        if be then (t.setVal r1 (Config.freeWord .beLow t.tick)).setAr Ar.csd (Config.freeWord .beHigh t.tick)
        else (t.setVal r1 (BitVec.ofNat 64 (leVal (bs.take 8)))).setAr Ar.csd (BitVec.ofNat 64 (leVal (bs.drop 8))) } r3 .none s

/-! Stores. -/

/-- A store of n bytes of a value, with what else it writes (43_memory_instructions.md R432). -/
def storeOp (n align : Nat) (strict : Bool) (sup : Support) (v : Nat) (r3 : BitVec 7) (u : BaseUpd)
    (extra : State → State) (s : State) : Out :=
  withRef s 0 { va := s.val r3, size := n, align := align, w := true, dirty := true, strict := strict, sup := sup, pl := s.cpl }
    fun c =>
      orRefuse (c.st.memStore c.attr c.pa n (s.dpsr Psr.be) v) fun t => finish s (s.updBase r3 u (extra t))

/-- The low n bytes of a value. -/
def lowBytes (n : Nat) (v : Word) : Nat := v.toNat % 256 ^ n

/-- An integer store (43_memory_instructions.md R432). -/
def intStore (qp : BitVec 6) (n : Nat) (r2 r3 : BitVec 7) (u : BaseUpd) (s : State) : Out :=
  predicated qp s <| guarded s [chkIllegal (updIllegal r3 none u), (s.nat r3 || s.nat r2, excRegNat true false false)] <|
    storeOp n n false .any (lowBytes n (s.val r2)) r3 u id s

/-- st8.spill: a NaT source stores a free value, and its NaT goes to UNAT (43_memory_instructions.md R434; log entry 50). -/
def spillStore (qp : BitVec 6) (r2 r3 : BitVec 7) (u : BaseUpd) (s : State) : Out :=
  predicated qp s <| guarded s [chkIllegal (updIllegal r3 none u), (s.nat r3, excRegNat true false false)] <|
    storeOp 8 8 false .any (if s.nat r2 then Config.freeWord .spillValue s.tick else s.val r2).toNat r3 u
      (fun t => t.setAr Ar.unat (setBit (t.getAr Ar.unat) (unatBit (s.val r3)) (s.nat r2))) s

/-- The 16 bytes st16 and cmp8xchg16 store: GR[r2] low, AR[CSD] high with PSR.be = 0; with PSR.be = 1 the layout is not
stated and the bytes are free (43_memory_instructions.md R435, R453; log entry 41). -/
def pairData (s : State) (r2 : BitVec 7) : Nat :=
  if s.dpsr Psr.be 1 then (Config.freeWord .beLow s.tick).toNat + 2 ^ 64 * (Config.freeWord .beHigh s.tick).toNat
  else (s.val r2).toNat + 2 ^ 64 * (s.getAr Ar.csd).toNat

/-- st16 (43_memory_instructions.md R435). -/
def store16 (qp : BitVec 6) (r2 r3 : BitVec 7) (s : State) : Out :=
  predicated qp s <| guarded s [(s.nat r3 || s.nat r2, excRegNat true false false)] <|
    storeOp 16 16 true .writeBackOnly (pairData s r2) r3 .none id s

/-! Semaphores. -/

/-- A fetchadd exported to a UCE page: the platform's reply and effect are free, but the reply is N bytes; an address that no
memory answers owes a machine check (43_memory_instructions.md R452, 20_memory.md R160; log entry 42). -/
def uceExport (n : Nat) (r1 : BitVec 7) (s : State) (c : Checked) : Out :=
  let reply : Word := BitVec.ofNat 64 ((Config.freeWord .uceReply s.tick).toNat % 256 ^ n)
  if c.st.aliased c.attr c.pa n then .refused .attributeAliasing
  else if (pibOffset c.attr c.pa).isSome then .refused .pibUndefined
  else if unpopulated c.st.holes c.pa n then
    finish s (({ c.st.storeNowhere c.pa n with mcOwed := true } : State).setVal r1 reply)
  else finish s (((c.st.storeBytes c.pa (leBytes n (Config.freeWord .uceStore s.tick).toNat)).touch c.attr c.pa n).setVal r1 reply)

/-- A semaphore of n bytes: the reference, the old value, the new one if any (43_memory_instructions.md R449 to R451). -/
def semOp (n : Nat) (sup : Support) (r1 r3 : BitVec 7) (new : Nat → Option Nat) (s : State) : Out :=
  withRef s 0 { va := s.val r3, size := n, align := n, r := true, w := true, dirty := true, strict := true, sup := sup
                pl := s.cpl } fun c =>
    if c.attr.writeBack then
      orRefuse (c.st.memLoad c.attr c.pa n) fun d =>
        let old := bytesVal (s.dpsr Psr.be) d.1
        match new old with
        | none => finish s (d.2.setVal r1 (BitVec.ofNat 64 old))
        | some v =>
          orRefuse (d.2.memStore c.attr c.pa n (s.dpsr Psr.be 1) v) fun t => finish s (t.setVal r1 (BitVec.ofNat 64 old))
    else uceExport n r1 s c

/-- The faults of a semaphore before its reference. -/
def semChecks (s : State) (r1 r3 : BitVec 7) (nat2 : Bool) : List Check :=
  [chkTarget r1, (s.nat r3 || nat2, excRegNat true true false)]

/-- cmpxchg: store r2 if the old value is AR[CCV]'s (43_memory_instructions.md R449). -/
def cmpxchgOp (qp : BitVec 6) (n : Nat) (r1 r2 r3 : BitVec 7) (s : State) : Out :=
  predicated qp s <| guarded s (semChecks s r1 r3 (s.nat r2)) <|
    semOp n .writeBackOnly r1 r3
      (fun old => if old = lowBytes n (s.getAr Ar.ccv) then some (lowBytes n (s.val r2)) else none) s

/-- xchg (43_memory_instructions.md R450). -/
def xchgOp (qp : BitVec 6) (n : Nat) (r1 r2 r3 : BitVec 7) (s : State) : Out :=
  predicated qp s <| guarded s (semChecks s r1 r3 (s.nat r2)) <|
    semOp n .writeBackOnly r1 r3 (fun _ => some (lowBytes n (s.val r2))) s

/-- fetchadd (43_memory_instructions.md R451, R452). -/
def fetchaddOp (qp : BitVec 6) (n : Nat) (r1 : BitVec 7) (inc : BitVec 3) (r3 : BitVec 7) (s : State) : Out :=
  predicated qp s <| guarded s (semChecks s r1 r3 false) <|
    semOp n .fetchadd r1 r3 (fun old => some ((old + (fetchInc inc).toNat) % 256 ^ n)) s

/-- cmp8xchg16: a reference of the 16 bytes around the address, whose 8 bytes are compared and which are stored
(43_memory_instructions.md R453, 20_memory.md R142). -/
def cmp8xchg16Op (qp : BitVec 6) (r1 r2 r3 : BitVec 7) (s : State) : Out :=
  predicated qp s <| guarded s (semChecks s r1 r3 (s.nat r2)) <|
    withRef s 0 { va := s.val r3, size := 16, align := 8, r := true, w := true, dirty := true, strict := true
                  sup := .writeBackOnly, wide := true, pl := s.cpl } fun c =>
      orRefuse (c.st.memLoad c.attr (c.pa / 16 * 16) 16) fun d =>
        let old := bytesVal (s.dpsr Psr.be) ((d.1.drop (c.pa % 16)).take 8)
        if old = (s.getAr Ar.ccv).toNat then
          orRefuse (d.2.memStore c.attr (c.pa / 16 * 16) 16 false (pairData s r2)) fun t =>
            finish s (t.setVal r1 (BitVec.ofNat 64 old))
        else finish s (d.2.setVal r1 (BitVec.ofNat 64 old))

/-! Prefetch. -/

/-- lfetch: the faulting forms raise what a load would and may bring their line into the caches; the others are hints without
an effect but their base update (43_memory_instructions.md R454; log entry 56). A prefetch from a page that is not cacheable is
suppressed and accesses nothing (20_memory.md R209); else an aliased line is undefined (20_memory.md R162). The .excl form
checks write permission, and the model reports its page faults with ISR.w = 1 and its NaT fault with ISR.w = 0 (DESIGN CHOICE,
log entry 54). -/
def lfetchOp (qp : BitVec 6) (fault excl : Bool) (r3 : BitVec 7) (u : BaseUpd) (s : State) : Out :=
  predicated qp s <| guarded s (naChecks [chkIllegal (updIllegal r3 none u)]) <|
    if fault && !s.psrNow Psr.ed then
      guarded s [(s.nat r3, excRegNat false true true)] <|
        withRef s 0 { va := s.val r3, size := 1, align := 1, r := true, w := excl, na := true, pl := s.cpl } fun c =>
          if !c.attr.cacheable then finish s (s.updBase r3 u c.st)
          else if c.st.aliased c.attr c.pa 1 then .refused .attributeAliasing
          else finish s (s.updBase r3 u (c.st.touch c.attr c.pa 1))
    else finish s (s.updBase r3 u s)

end Machine
end Sys2Proof
end

