-- ==== Sys2Proof/Machine/FpOps.lean ====
section
/-!
DEFINITION. The floating-point loads and stores: disabled register sets, formats, pairs (43_memory_instructions.md R455,
10_state.md R28, R42, R50; the formats are uninterpreted, log entry 27).
-/
namespace Sys2Proof

/-- The completer of a floating-point load as a load completer. -/
def FpFlavour.load : FpFlavour → LoadFlavour
  | .plain => .plain
  | .s => .s
  | .a => .a
  | .sa => .sa
  | .cClr => .cClr
  | .cNc => .cNc

/-- The conversion of a format. -/
def FpFmt.config : FpFmt → Config.FpFormat
  | .single => .single
  | .double => .double
  | .int8 => .int8
  | .extended => .extended

/-- The bytes of a format (20_memory.md R142). -/
def FpFmt.bytes : FpFmt → Nat
  | .single => 4
  | .double => 8
  | .int8 => 8
  | .extended => 10

/-- The alignment of a format: 16 for the 10-byte one (20_memory.md R143). -/
def FpFmt.align : FpFmt → Nat
  | .single => 4
  | .double => 8
  | .int8 => 8
  | .extended => 16

/-- The 10-byte accesses need a page that supports them (20_memory.md R206). -/
def FpFmt.needsTenByte : FpFmt → Bool
  | .extended => true
  | _ => false

/-- The format of each half of a pair. -/
def PairFmt.config : PairFmt → Config.FpFormat
  | .single => .single
  | .double => .double
  | .int8 => .int8

/-- The bytes of each half of a pair. -/
def PairFmt.bytes : PairFmt → Nat
  | .single => 4
  | .double => 8
  | .int8 => 8

namespace Machine

/-- Disabled Floating-Point Register: ISR.code bit 0 for the low set, bit 1 for the high one (60_exceptions.md R482). -/
def chkFp (s : State) (fs : List (BitVec 7)) : Check :=
  let low := s.dpsr Psr.dfl && fs.any fun f => decide (2 ≤ f.toNat) && decide (f.toNat < 32)
  let high := s.dpsr Psr.dfh && fs.any fun f => decide (32 ≤ f.toNat)
  (low || high, excDisabledFp ((if low then 1 else 0) ||| (if high then 2 else 0)))

/-- FR0 and FR1 as the target of a load are an Illegal Operation, as GR0 is: the spec says so of GR0 only
(DESIGN CHOICE, log entry 27). -/
def badFpTarget (f : BitVec 7) : Bool := decide (f.toNat < 2)

/-- A load of n bytes into an FR through a conversion. -/
def fpSpec (n align : Nat) (sup : Support) (fmt : Config.FpFormat) (flav : LoadFlavour) (f1 : BitVec 7) : LoadSpec :=
  { size := n, align := align, strict := false, sup := sup, flav := flav, fp := true, reg := f1
    put := fun be bs s => s.setFr f1 (Config.fpFromMem fmt (bytesVal be bs))
    putNat := fun s => s.setFr f1 Config.natVal
    putZero := fun s => s.setFr f1 Config.frZero
    onHit := fun s => s.mapSys (Sys.onPsr (markFpWritten f1)) }

/-- The checks of a floating-point load before its reference. -/
def fpChecks (s : State) (fs : List (BitVec 7)) (r3 : BitVec 7) (u : BaseUpd) : List Check :=
  [chkIllegal (fs.any badFpTarget || updIllegal r3 none u), chkFp s fs]

/-- ldfs, ldfd, ldf8, ldfe with any completer. -/
def fpLoad (qp : BitVec 6) (fmt : FpFmt) (flav : FpFlavour) (f1 r3 : BitVec 7) (u : BaseUpd) (s : State) : Out :=
  predicated qp s <| guarded s (spChecks flav.load.speculative (fpChecks s [f1] r3 u)) <|
    loadOp (fpSpec fmt.bytes fmt.align (if fmt.needsTenByte then .tenByte else .any) fmt.config flav.load f1) r3 u s

/-- ldf.fill. -/
def fpFill (qp : BitVec 6) (f1 r3 : BitVec 7) (u : BaseUpd) (s : State) : Out :=
  predicated qp s <| guarded s (fpChecks s [f1] r3 u) <| loadOp (fpSpec 16 16 .any .spill .plain f1) r3 u s

/-- A pair load: the first register takes the datum at the lower address; two equal targets keep the datum at the higher one
(DESIGN CHOICE, log entry 27). -/
def pairSpec (fmt : PairFmt) (flav : LoadFlavour) (f1 f2 : BitVec 7) : LoadSpec :=
  { size := 2 * fmt.bytes, align := 2 * fmt.bytes, strict := false, sup := .any, flav := flav, fp := true, reg := f1
    put := fun be bs s => (s.setFr f1 (Config.fpFromMem fmt.config (bytesVal be (bs.take fmt.bytes)))).setFr f2
      (Config.fpFromMem fmt.config (bytesVal be (bs.drop fmt.bytes)))
    putNat := fun s => (s.setFr f1 Config.natVal).setFr f2 Config.natVal
    putZero := fun s => (s.setFr f1 Config.frZero).setFr f2 Config.frZero
    onHit := fun s => (s.mapSys (Sys.onPsr (markFpWritten f1))).mapSys (Sys.onPsr (markFpWritten f2)) }

/-- ldfps, ldfpd, ldfp8 with any completer. -/
def fpPairLoad (qp : BitVec 6) (fmt : PairFmt) (flav : FpFlavour) (f1 f2 r3 : BitVec 7) (u : BaseUpd) (s : State) : Out :=
  predicated qp s <| guarded s (spChecks flav.load.speculative (fpChecks s [f1, f2] r3 u)) <|
    loadOp (pairSpec fmt flav.load f1 f2) r3 u s

/-- The checks of a floating-point store before its reference. -/
def fpStoreChecks (s : State) (f2 r3 : BitVec 7) (u : BaseUpd) : List Check :=
  [chkIllegal (updIllegal r3 none u), chkFp s [f2], (s.nat r3, excRegNat true false false)]

/-- stfs, stfd, stf8, stfe. -/
def fpStore (qp : BitVec 6) (fmt : FpFmt) (f2 r3 : BitVec 7) (u : BaseUpd) (s : State) : Out :=
  predicated qp s <| guarded s (fpStoreChecks s f2 r3 u) <|
    storeOp fmt.bytes fmt.align false (if fmt.needsTenByte then .tenByte else .any)
      (Config.fpToMem fmt.config (s.getFr f2)) r3 u id s

/-- stf.spill. -/
def fpSpill (qp : BitVec 6) (f2 r3 : BitVec 7) (u : BaseUpd) (s : State) : Out :=
  predicated qp s <| guarded s (fpStoreChecks s f2 r3 u) <|
    storeOp 16 16 false .any (Config.fpToMem .spill (s.getFr f2)) r3 u id s

end Machine
end Sys2Proof
end

