-- ==== Sys2Proof/Machine/Alat.lean ====
section
/-!
DEFINITION. The data speculation checks and the ALAT instructions (43 R444, R445).
-/
namespace Sys2Proof
namespace Machine

/-- A failing check: a branch to the recovery code, or a Speculative Operation fault with the check's code (43 R444, R445) -/
def checkFails (code : BitVec 16) (imm : BitVec 21) (s : State) : Out :=
  if Config.chkBranches then finishBranch s s (dispTarget s.ip imm) false
  else raise s (excSpeculation (imm.setWidth 64) code)

/-- chk.a: on a hit go on, and a clearing one drops the entry (43 R444) -/
def checkAlat (fp : Bool) (r : BitVec 7) (clear : Bool) (imm : BitVec 21) (s : State) : Out :=
  if s.alatHit fp r then finish s (if clear then s.alatRemove fp r else s) else checkFails Config.chkACode imm s

/-- chk.a.nc r1, target25 (43 R444) -/
def execChkANcR (qp : BitVec 6) (r1 : BitVec 7) (imm : BitVec 21) (s : State) : Out :=
  predicated qp s (checkAlat false r1 false imm s)

/-- chk.a.clr r1, target25 (43 R444) -/
def execChkAClrR (qp : BitVec 6) (r1 : BitVec 7) (imm : BitVec 21) (s : State) : Out :=
  predicated qp s (checkAlat false r1 true imm s)

/-- chk.a.nc f1, target25 (43 R444) -/
def execChkANcF (qp : BitVec 6) (f1 : BitVec 7) (imm : BitVec 21) (s : State) : Out :=
  predicated qp s (checkAlat true f1 false imm s)

/-- chk.a.clr f1, target25 (43 R444) -/
def execChkAClrF (qp : BitVec 6) (f1 : BitVec 7) (imm : BitVec 21) (s : State) : Out :=
  predicated qp s (checkAlat true f1 true imm s)

/-- chk.s r2, target25, M and I forms; its fault has no code of its own (43 R445, 60 R502) -/
def execChkSM (qp : BitVec 6) (r2 : BitVec 7) (imm : BitVec 21) (s : State) : Out :=
  predicated qp s (if s.nat r2 then checkFails 0 imm s else finish s s)

/-- chk.s f2, target25 (43 R445) -/
def execChkSF (qp : BitVec 6) (f2 : BitVec 7) (imm : BitVec 21) (s : State) : Out :=
  predicated qp s <| guarded s [chkFp s [f2]] <|
    if 2 ≤ f2.toNat ∧ s.getFr f2 = Config.natVal then checkFails 0 imm s else finish s s

/-- invala (43 R444) -/
def execInvala (qp : BitVec 6) (s : State) : Out := predicated qp s (finish s { s with alat := [] })

/-- invala.e r1 (43 R444) -/
def execInvalaER (qp : BitVec 6) (r1 : BitVec 7) (s : State) : Out :=
  predicated qp s (finish s (s.alatRemove false r1))

/-- invala.e f1 (43 R444) -/
def execInvalaEF (qp : BitVec 6) (f1 : BitVec 7) (s : State) : Out :=
  predicated qp s (finish s (s.alatRemove true f1))

end Machine
end Sys2Proof
end

