-- ==== Sys2Proof/Machine/SysOps.lean ====
section
/-!
DEFINITION. The operations the system instructions share: the PSR, the control, application and indirect registers
(40_psr_instructions.md, 41_cr_and_serialization_instructions.md, 60_exceptions.md R512). Each instruction's own meaning is
in the family files.
-/
namespace Sys2Proof
namespace Machine

/-! The PSR. -/

/-- The checks of a system mask instruction (40_psr_instructions.md R340). -/
def maskChecks (s : State) (imm : Word) : List Check :=
  [chkPriv s, chkReserved (decide (imm &&& systemReserved ≠ 0)), chkVirt s]

/-- rsm clears PSR.i for the very next instruction (40_psr_instructions.md R344, 10_state.md R37). -/
def rsmSys (imm : Word) (s : State) : State :=
  let s1 := s.pushSys (Sys.onPsr (rsmPsr imm))
  if bit imm Psr.i then s1.mapSys (Sys.onPsr fun p => setBit p Psr.i false) else s1

/-- A new PSR.rt while the RSE is not in enforced lazy mode (10_state.md R48). -/
def rtChanges (s : State) (new : Word) : Bool :=
  (bit new Psr.rt != bit s.sys.psr Psr.rt) && decide (rscMode (s.getAr Ar.rsc) ≠ 0)

/-- mov psr.l (40_psr_instructions.md R345). -/
def movPsrL (s : State) (v : Word) : Out :=
  if rtChanges s v then .refused .rtChange else finish s (s.pushSys (Sys.onPsr (movLowerPsr v)))

/-! Control registers. -/

/-- The control registers that exist (11_state_control_registers.md R80). -/
def crDefined (n : Nat) : Bool :=
  decide (n < 3) || decide (n = 8) || (decide (16 ≤ n) && decide (n ≤ 25) && decide (n ≠ 18)) ||
    (decide (64 ≤ n) && decide (n ≤ 74)) || decide (n = 80) || decide (n = 81)

/-- IVR and IRR0 to IRR3 (11_state_control_registers.md R81). -/
def crReadOnly (n : Nat) : Bool := decide (n = 65) || (decide (68 ≤ n) && decide (n ≤ 71))

/-- An interruption control register while PSR.ic is 1 (11_state_control_registers.md R106). -/
def crBarred (s : State) (n : Nat) : Bool := decide (16 ≤ n) && decide (n ≤ 25) && s.dpsr Psr.ic

/-- ITIR with reserved bits, an uninsertable size or key bits that are not there (11_state_control_registers.md R115). -/
def itirReserved (v : Word) : Bool :=
  decide (v &&& 0xFFFFFFFF00000003 ≠ 0) || !insertable (field v 2 6).toNat || keyUnimpl (field v 8 24)

/-- PTA with reserved bits or a table size out of its bounds (41_cr_and_serialization_instructions.md R371). -/
def ptaReserved (v : Word) : Bool :=
  decide (v &&& 0x7E02 ≠ 0) || decide (ptaSize v < 15) || decide ((if ptaVf v then 61 else 52) < ptaSize v)

/-- The write raises Reserved Register/Field (41_cr_and_serialization_instructions.md R371, 60_exceptions.md R512). -/
def crReserved (n : Nat) (v : Word) : Bool :=
  match n with
  | 0 => decide (v &&& 0xFFFFFFFFFFFF80F8 ≠ 0)
  | 8 => ptaReserved v
  | 16 => psrReservedSet v
  | 17 => decide (v &&& 0xFFFFF000FF000000 ≠ 0)
  | 21 => itirReserved v && Config.itirCheckAtMov
  | 23 => decide (v &&& 0x7FFFFFC000000000 ≠ 0)
  | 64 => decide (v &&& 0xFFFFFFFF0000FFFF ≠ 0)
  | 66 => decide (v &&& 0xFFFFFFFFFFFEFF0F ≠ 0)
  | 72 => decide (v &&& 0xFFFFFFFFFFFEFF00 ≠ 0)
  | 73 => decide (v &&& 0xFFFFFFFFFFFEFF00 ≠ 0)
  | 74 => decide (v &&& 0xFFFFFFFFFFFEFF00 ≠ 0)
  | 80 => decide (v &&& 0xFFFFFFFFFFFE5800 ≠ 0)
  | 81 => decide (v &&& 0xFFFFFFFFFFFE5800 ≠ 0)
  | _ => false

/-- The value a write stores: ignored bits become 0 (41_cr_and_serialization_instructions.md R371). The fields of LID are stored,
where a processor may make them read-only (60_exceptions.md R512; DESIGN CHOICE, log entry 20). -/
def crStored (n : Nat) (v : Word) : Word :=
  match n with
  | 2 => v &&& 0xFFFFFFFFFFFF8000
  | 25 => v &&& 0xFFFFFFFFFFFFFFFC
  | _ => v

/-- Write a control register: EOI ends an interrupt and holds nothing (60_exceptions.md R512); a value moved to IIPA is what the
next collection finds, until an instruction completes with PSR.ic = 1 (11_state_control_registers.md R116, R117). -/
def State.writeCr (s : State) (n : Nat) (v : Word) : State :=
  if n = 67 then s.writeEoi
  else
    let t := s.pushSys fun y => y.setCr n (crStored n v)
    if n = 22 then { t with lastBundle := v } else t

/-- IFA is checked when it is written, on some processors (11_state_control_registers.md R114). -/
def ifaUnimplAtMov (s : State) (n : Nat) (v : Word) : Bool :=
  decide (n = 20) && unimplVa s.vm v && Config.ifaCheckAtMov

/-- The value a read of a control register gives, and the state after it: IVR takes an interrupt, IRR shows the pending
bits (41_cr_and_serialization_instructions.md R361). -/
def State.readCr (s : State) (n : Nat) : Word × State :=
  if n = 65 then s.readIvr
  else if n = 67 then (0, s)
  else if 68 ≤ n ∧ n ≤ 71 then (s.irr.extractLsb' ((n - 68) * 64) 64, s)
  else if n = 21 then
    let itir := s.dcr 21
    (if itir &&& 0xFFFFFFFF00000003 = 0 then itir
     else if Config.itirReservedReadsZero then itir &&& 0xFFFFFFFC else itir, s)
  else (s.dcr n, s)

/-! Application registers. -/

/-- A kernel register. -/
def isKr (n : Nat) : Bool := decide (n < 8)

/-- The checks of a write: reserved registers, NaT, KRs and ITC at another level than 0, ITC in a virtual machine
(41_cr_and_serialization_instructions.md R363, R373). -/
def arWriteChecks (s : State) (n : Nat) (nat : Bool) : List Check :=
  [chkIllegal (!arNamed n), (nat, excRegNat false false false),
   ((isKr n || decide (n = Ar.itc)) && decide (s.cpl ≠ 0), excPrivilegedRegister),
   (decide (n = Ar.itc) && s.vm, excVirtualization)]

/-- The checks of a read; for a secured ITC under PSR.vm the Virtualization fault comes first
(41_cr_and_serialization_instructions.md R362, D23); a KR is read at any level (41_cr_and_serialization_instructions.md R373,
10_state.md R33; log entry 55). -/
def arReadChecks (s : State) (r1 : BitVec 7) (n : Nat) : List Check :=
  [chkTarget r1, chkIllegal (!arNamed n),
   (decide (n = Ar.itc) && s.vm && s.dpsr Psr.si, excVirtualization),
   (decide (n = Ar.itc) && s.dpsr Psr.si 1 && decide (s.cpl ≠ 0), excPrivilegedRegister)]

/-! Indirect register files. -/

/-- The register number in bits 7:0 of a general register (41_cr_and_serialization_instructions.md R366). -/
def index8 (v : Word) : Nat := (field v 0 8).toNat
/-- The number is at or above the implemented count; every processor has the first `least`. -/
def beyond (i least count : Nat) : Bool := decide (least ≤ i) && decide (count ≤ i)

/-- A bad region register value (42_translation_instructions.md R382). -/
def rrReserved (v : Word) : Bool :=
  decide (v &&& 0xFFFFFFFF00000002 ≠ 0) || !insertable (rrPs v) || ridUnimpl (rrRid v)

/-- A bad protection key register number or value (42_translation_instructions.md R384). -/
def pkrReserved (idx v : Word) : Bool :=
  beyond (index8 idx) 16 Config.numPkr || decide (idx &&& 0xFFFFFFFFFFFFFF00 ≠ 0) ||
    decide (v &&& 0xFFFFFFFF000000F0 ≠ 0) || keyUnimpl (pkrKey v)

/-- Write a protection key register; a valid register with the same key becomes invalid (42_translation_instructions.md R384). -/
def writePkr (i : Nat) (v : Word) (y : Sys) : Sys :=
  let others := if pkrValid v then
      y.pkr.map fun w => if pkrValid w && decide (pkrKey w = pkrKey v) then w &&& ~~~1#64 else w
    else y.pkr
  { y with pkr := wr others i v }

/-- The checks of a privileged write of an indirect register. -/
def indirectWriteChecks (s : State) (r3 r2 : BitVec 7) (bad : Bool) : List Check :=
  [chkPriv s, (s.nat r3 || s.nat r2, excRegNat false false false), chkReserved bad, chkVirt s]

/-- The checks of a privileged read of an indirect register. -/
def indirectReadChecks (s : State) (r1 r3 : BitVec 7) (bad : Bool) : List Check :=
  [chkTarget r1, chkPriv s, chkNat s r3, chkReserved bad, chkVirt s]

/-- What a performance monitor reads as: 0 from non-privileged code while PSR.sp is 1, a free value once it has counted
(41_cr_and_serialization_instructions.md R369; log entry 26). -/
def State.readPmd (s : State) (i : Nat) : Word :=
  if s.dpsr Psr.sp && decide (s.cpl ≠ 0) then 0
  else if s.pmdKnown.getLsbD i then rd s.sys.pmd i 0
  else Config.freeWord (.pmValue i) s.tick

/-- Write a performance monitor. -/
def State.writePmd (s : State) (i : Nat) (v : Word) : State :=
  { s.pushSys (fun y => { y with pmd := wr y.pmd i v }) with pmdKnown := s.pmdKnown ||| (1#256 <<< i) }

end Machine
end Sys2Proof
end

