-- ==== Sys2Proof/Machine/Branch.lean ====
section
/-!
DEFINITION. Branches, cover and the rename base clears, and the register stack instructions (41 R372, R376; 30 R311; 40 R348;
92_eei_decisions.md D5; log entries 9, 13, 37, 45).
-/
namespace Sys2Proof
namespace Machine

/-- cover saves CFM in IFS when PSR.ic is 0; IFS and CFM are serialized implicitly (41 R372) -/
def coverSave (s : State) : State :=
  if s.dpsr Psr.ic then s else s.mapSys fun y => y.setCr 23 (bitMask 63 ||| s.cfm.setWidth 64)

/-- cover (41 R372) -/
def execCover (s : State) : Out :=
  guarded s [(s.vm && decide (s.cpl = 0), excVirtualization)] <| finish s { coverSave s with cfm := 0 }

/-- clrrrb: the three rename bases of CFM become 0 (30 R311, 10 R32; log entry 13) -/
def execClrrrb (s : State) : Out := finish s { s with cfm := s.cfm &&& 0x3FFFF }

/-- clrrrb.pr: the predicate rename base becomes 0 (30 R311, 10 R32; log entry 13) -/
def execClrrrbPr (s : State) : Out := finish s { s with cfm := s.cfm &&& 0xFFFFFFFF }

/-- br.cond b2 (30 R311, 60 R497) -/
def execBrCond (qp : BitVec 6) (b2 : BitVec 3) (_p : BitVec 1) (_wh : BitVec 2) (_d : BitVec 1) (s : State) : Out :=
  predicated qp s (finishBranch s s (s.getBr b2) false)

/-- br.ret restores CFM and EC from PFS and lowers the privilege level to PFS.ppl, never raises it (41 R376) -/
def retState (s : State) : State :=
  let pfs := s.getAr Ar.pfs
  let t := ({ s with cfm := pfsPfm pfs } : State).setAr Ar.ec ((pfsPec pfs).setWidth 64)
  if s.cpl.toNat < (pfsPpl pfs).toNat then t.mapSys (Sys.onPsr fun p => setCpl p (pfsPpl pfs)) else t

/-- br.ret b2 (41 R376) -/
def execBrRet (qp : BitVec 6) (b2 : BitVec 3) (_p : BitVec 1) (_wh : BitVec 2) (_d : BitVec 1) (s : State) : Out :=
  predicated qp s <|
    finishBranch s (retState s) (s.getBr b2) (decide (s.cpl.toNat < (pfsPpl (s.getAr Ar.pfs)).toNat))

/-- Entering IA-32 code is undefined with PSR.ic, dt or it 0 or mc 1 (40 R348, 70 R562) -/
def iaUndefined (s : State) : Bool := !s.dpsr Psr.ic || !s.dpsr Psr.dt || !s.psrNow Psr.it || s.psrNow Psr.mc

/-- br.ia b2: PSR.is becomes 1 and IP a 32-bit address; what IA-32 code does is outside the spec (40 R348; log entry 45) -/
def execBrIa (b2 : BitVec 3) (_p : BitVec 1) (_wh : BitVec 2) (_d : BitVec 1) (s : State) : Out :=
  guarded s [(s.dpsr Psr.di, excDisabledIsa)] <|
    if iaUndefined s then .refused .ia32EntryUndefined
    else
      let t := (branched s s 0).mapSys (Sys.onPsr fun p => setBit p Psr.is true)
      withTraps s { t with ip := ((s.getBr b2).setWidth 32).setWidth 64 } false (s.dpsr Psr.tb) false

/-- The counted loop branch: taken while LC is not 0, and then LC goes down (PRESUMED, log entry 37) -/
def countedLoop (imm : BitVec 21) (s : State) : Out :=
  if s.getAr Ar.lc = 0 then finish s s
  else finishBranch s (s.setAr Ar.lc (s.getAr Ar.lc - 1)) (dispTarget s.ip imm) false

/-- the IP-relative branches and brp; the calls and the rotating branches need the register stack (30 R311, D5), but with a
false predicate br.call, br.wexit and br.wtop do nothing (00 R15, 30 R317; log entry 9) -/
def execBrRel (form : BrRelForm) (s : State) : Out :=
  match form with
  | .cond qp imm _ _ _ => predicated qp s (finishBranch s s (dispTarget s.ip imm) false)
  | .wexit qp _ _ _ _ => predicated qp s (.refused .rseNotDefined)
  | .wtop qp _ _ _ _ => predicated qp s (.refused .rseNotDefined)
  | .cloop imm _ _ _ => countedLoop imm s
  | .cexit .. => .refused .rseNotDefined
  | .ctop .. => .refused .rseNotDefined
  | .call qp _ _ _ _ _ => predicated qp s (.refused .rseNotDefined)
  | .brp _ => finish s s

/-- alloc r1 = ar.pfs, i, l, o, r: the register stack is not in the source (43 R458, D5) -/
def execAlloc (_r1 : BitVec 7) (_sof : BitVec 7) (_sol : BitVec 7) (_sor : BitVec 4) (_s : State) : Out :=
  .refused .rseNotDefined

/-- flushrs: the register stack is not in the source (43 R458, D5) -/
def execFlushrs (_s : State) : Out := .refused .rseNotDefined

/-- loadrs: the register stack is not in the source (43 R458, D5) -/
def execLoadrs (_s : State) : Out := .refused .rseNotDefined

end Machine
end Sys2Proof
end

