-- ==== Sys2Proof/Machine/Cache.lean ====
section
/-!
DEFINITION. The cache instructions and the prefetches (43 R436 to R439, R454; log entry 8).
-/
namespace Sys2Proof
namespace Machine

/-- The flush of a line: the checks of a read, no Debug, alignment or support check (43 R437) -/
def flushOp (qp : BitVec 6) (r3 : BitVec 7) (after : Nat → State → State) (s : State) : Out :=
  predicated qp s <| guarded s [(s.nat r3, excRegNat false true true)] <|
    withRef s 0 { va := s.val r3, size := 1, align := 1, r := true, chk := false, na := true, pl := s.cpl } fun c =>
      finish s (after c.pa { c.st with stale := staleFlush c.pa c.st.stale })

/-- A line leaves every cache, and its entries the ALAT (43 R437); the line may then be used with any attribute
(DESIGN CHOICE, log entry 56) -/
def dropLine (pa : Nat) (s : State) : State :=
  { s with alat := alatWithout s.alat (pa / 32 * 32) 32, lines := s.lines.filter fun l => decide (l.1 ≠ pa / 32) }

/-- fc r3: the line leaves every cache, and the ALAT (43 R437) -/
def execFc (qp : BitVec 6) (r3 : BitVec 7) (s : State) : Out := flushOp qp r3 dropLine s

/-- fc.i r3: the data caches may keep the line (43 R438; log entry 56) -/
def execFcI (qp : BitVec 6) (r3 : BitVec 7) (s : State) : Out := flushOp qp r3 (fun _ t => t) s

/-- sync.i (43 R439) -/
def execSyncI (qp : BitVec 6) (s : State) : Out := predicated qp s (finish s { s with stale := staleSync s.stale })

/-- lfetch [r3] (43 R454) -/
def execLfetch (qp : BitVec 6) (r3 : BitVec 7) (_hint : BitVec 2) (s : State) : Out :=
  lfetchOp qp false false r3 .none s

/-- lfetch.excl [r3] (43 R454) -/
def execLfetchExcl (qp : BitVec 6) (r3 : BitVec 7) (_hint : BitVec 2) (s : State) : Out :=
  lfetchOp qp false true r3 .none s

/-- lfetch.fault [r3] (43 R454) -/
def execLfetchFault (qp : BitVec 6) (r3 : BitVec 7) (_hint : BitVec 2) (s : State) : Out :=
  lfetchOp qp true false r3 .none s

/-- lfetch.fault.excl [r3] (43 R454) -/
def execLfetchFaultExcl (qp : BitVec 6) (r3 : BitVec 7) (_hint : BitVec 2) (s : State) : Out :=
  lfetchOp qp true true r3 .none s

end Machine
end Sys2Proof
end

