-- ==== Sys2Proof/Machine/Fp.lean ====
section
/-!
DEFINITION. The floating-point loads and stores without base update (43 R455).
-/
namespace Sys2Proof
namespace Machine

/-- ldfe f1 = [r3] (43 R455) -/
def execLdfe (qp : BitVec 6) (f1 : BitVec 7) (r3 : BitVec 7) (_hint : BitVec 2) (s : State) : Out :=
  fpLoad qp .extended .plain f1 r3 .none s

/-- stfe [r3] = f2 (43 R455) -/
def execStfe (qp : BitVec 6) (f2 : BitVec 7) (r3 : BitVec 7) (_hint : BitVec 2) (s : State) : Out :=
  fpStore qp .extended f2 r3 .none s

/-- ldfs f1 = [r3] (43 R455) -/
def execLdfs (qp : BitVec 6) (f1 : BitVec 7) (r3 : BitVec 7) (_hint : BitVec 2) (s : State) : Out :=
  fpLoad qp .single .plain f1 r3 .none s

/-- ldfd f1 = [r3] (43 R455) -/
def execLdfd (qp : BitVec 6) (f1 : BitVec 7) (r3 : BitVec 7) (_hint : BitVec 2) (s : State) : Out :=
  fpLoad qp .double .plain f1 r3 .none s

/-- ldf8 f1 = [r3] (43 R455) -/
def execLdf8 (qp : BitVec 6) (f1 : BitVec 7) (r3 : BitVec 7) (_hint : BitVec 2) (s : State) : Out :=
  fpLoad qp .int8 .plain f1 r3 .none s

/-- ldf.fill f1 = [r3] (43 R455) -/
def execLdfFill (qp : BitVec 6) (f1 : BitVec 7) (r3 : BitVec 7) (_hint : BitVec 2) (s : State) : Out :=
  fpFill qp f1 r3 .none s

/-- ldfps, ldfpd, ldfp8 and their flavours (43 R455) -/
def execLdfp (qp : BitVec 6) (fmt : PairFmt) (flav : FpFlavour) (f1 : BitVec 7) (f2 : BitVec 7) (r3 : BitVec 7) (_hint : BitVec 2) (s : State) : Out :=
  fpPairLoad qp fmt flav f1 f2 r3 .none s

/-- stfs [r3] = f2 (43 R455) -/
def execStfs (qp : BitVec 6) (f2 : BitVec 7) (r3 : BitVec 7) (_hint : BitVec 2) (s : State) : Out :=
  fpStore qp .single f2 r3 .none s

/-- stfd [r3] = f2 (43 R455) -/
def execStfd (qp : BitVec 6) (f2 : BitVec 7) (r3 : BitVec 7) (_hint : BitVec 2) (s : State) : Out :=
  fpStore qp .double f2 r3 .none s

/-- stf8 [r3] = f2 (43 R455) -/
def execStf8 (qp : BitVec 6) (f2 : BitVec 7) (r3 : BitVec 7) (_hint : BitVec 2) (s : State) : Out :=
  fpStore qp .int8 f2 r3 .none s

/-- stf.spill [r3] = f2 (43 R455) -/
def execStfSpill (qp : BitVec 6) (f2 : BitVec 7) (r3 : BitVec 7) (_hint : BitVec 2) (s : State) : Out :=
  fpSpill qp f2 r3 .none s

/-- ldfs, ldfd, ldf8, ldfe with .s .a .sa .c.clr .c.nc (43 R455) -/
def execLdfFlav (qp : BitVec 6) (fmt : FpFmt) (flav : FpSpec) (f1 : BitVec 7) (r3 : BitVec 7) (_hint : BitVec 2) (s : State) : Out :=
  fpLoad qp fmt flav.flavour f1 r3 .none s

end Machine
end Sys2Proof
end

