-- ==== Sys2Proof/Machine/Load.lean ====
section
/-!
DEFINITION. The integer loads without base update (43 R426 to R431, R441 to R443).
-/
namespace Sys2Proof
namespace Machine

/-- ld1 r1 = [r3] (43 R426) -/
def execLd1 (qp : BitVec 6) (r1 : BitVec 7) (r3 : BitVec 7) (_hint : BitVec 2) (s : State) : Out :=
  intLoad qp 1 .plain r1 r3 .none s

/-- ld2 r1 = [r3] (43 R426) -/
def execLd2 (qp : BitVec 6) (r1 : BitVec 7) (r3 : BitVec 7) (_hint : BitVec 2) (s : State) : Out :=
  intLoad qp 2 .plain r1 r3 .none s

/-- ld4 r1 = [r3] (43 R426) -/
def execLd4 (qp : BitVec 6) (r1 : BitVec 7) (r3 : BitVec 7) (_hint : BitVec 2) (s : State) : Out :=
  intLoad qp 4 .plain r1 r3 .none s

/-- ld8 r1 = [r3] (43 R426) -/
def execLd8 (qp : BitVec 6) (r1 : BitVec 7) (r3 : BitVec 7) (_hint : BitVec 2) (s : State) : Out :=
  intLoad qp 8 .plain r1 r3 .none s

/-- ld1.s r1 = [r3] (43 R427) -/
def execLd1S (qp : BitVec 6) (r1 : BitVec 7) (r3 : BitVec 7) (_hint : BitVec 2) (s : State) : Out :=
  intLoad qp 1 .s r1 r3 .none s

/-- ld2.s r1 = [r3] (43 R427) -/
def execLd2S (qp : BitVec 6) (r1 : BitVec 7) (r3 : BitVec 7) (_hint : BitVec 2) (s : State) : Out :=
  intLoad qp 2 .s r1 r3 .none s

/-- ld4.s r1 = [r3] (43 R427) -/
def execLd4S (qp : BitVec 6) (r1 : BitVec 7) (r3 : BitVec 7) (_hint : BitVec 2) (s : State) : Out :=
  intLoad qp 4 .s r1 r3 .none s

/-- ld8.s r1 = [r3] (43 R427) -/
def execLd8S (qp : BitVec 6) (r1 : BitVec 7) (r3 : BitVec 7) (_hint : BitVec 2) (s : State) : Out :=
  intLoad qp 8 .s r1 r3 .none s

/-- ld1.a r1 = [r3] (43 R441) -/
def execLd1A (qp : BitVec 6) (r1 : BitVec 7) (r3 : BitVec 7) (_hint : BitVec 2) (s : State) : Out :=
  intLoad qp 1 .a r1 r3 .none s

/-- ld2.a r1 = [r3] (43 R441) -/
def execLd2A (qp : BitVec 6) (r1 : BitVec 7) (r3 : BitVec 7) (_hint : BitVec 2) (s : State) : Out :=
  intLoad qp 2 .a r1 r3 .none s

/-- ld4.a r1 = [r3] (43 R441) -/
def execLd4A (qp : BitVec 6) (r1 : BitVec 7) (r3 : BitVec 7) (_hint : BitVec 2) (s : State) : Out :=
  intLoad qp 4 .a r1 r3 .none s

/-- ld8.a r1 = [r3] (43 R441) -/
def execLd8A (qp : BitVec 6) (r1 : BitVec 7) (r3 : BitVec 7) (_hint : BitVec 2) (s : State) : Out :=
  intLoad qp 8 .a r1 r3 .none s

/-- ld1.sa r1 = [r3] (43 R442) -/
def execLd1Sa (qp : BitVec 6) (r1 : BitVec 7) (r3 : BitVec 7) (_hint : BitVec 2) (s : State) : Out :=
  intLoad qp 1 .sa r1 r3 .none s

/-- ld2.sa r1 = [r3] (43 R442) -/
def execLd2Sa (qp : BitVec 6) (r1 : BitVec 7) (r3 : BitVec 7) (_hint : BitVec 2) (s : State) : Out :=
  intLoad qp 2 .sa r1 r3 .none s

/-- ld4.sa r1 = [r3] (43 R442) -/
def execLd4Sa (qp : BitVec 6) (r1 : BitVec 7) (r3 : BitVec 7) (_hint : BitVec 2) (s : State) : Out :=
  intLoad qp 4 .sa r1 r3 .none s

/-- ld8.sa r1 = [r3] (43 R442) -/
def execLd8Sa (qp : BitVec 6) (r1 : BitVec 7) (r3 : BitVec 7) (_hint : BitVec 2) (s : State) : Out :=
  intLoad qp 8 .sa r1 r3 .none s

/-- ld1.bias r1 = [r3] (43 R429) -/
def execLd1Bias (qp : BitVec 6) (r1 : BitVec 7) (r3 : BitVec 7) (_hint : BitVec 2) (s : State) : Out :=
  intLoad qp 1 .bias r1 r3 .none s

/-- ld2.bias r1 = [r3] (43 R429) -/
def execLd2Bias (qp : BitVec 6) (r1 : BitVec 7) (r3 : BitVec 7) (_hint : BitVec 2) (s : State) : Out :=
  intLoad qp 2 .bias r1 r3 .none s

/-- ld4.bias r1 = [r3] (43 R429) -/
def execLd4Bias (qp : BitVec 6) (r1 : BitVec 7) (r3 : BitVec 7) (_hint : BitVec 2) (s : State) : Out :=
  intLoad qp 4 .bias r1 r3 .none s

/-- ld8.bias r1 = [r3] (43 R429) -/
def execLd8Bias (qp : BitVec 6) (r1 : BitVec 7) (r3 : BitVec 7) (_hint : BitVec 2) (s : State) : Out :=
  intLoad qp 8 .bias r1 r3 .none s

/-- ld1.acq r1 = [r3] (43 R428) -/
def execLd1Acq (qp : BitVec 6) (r1 : BitVec 7) (r3 : BitVec 7) (_hint : BitVec 2) (s : State) : Out :=
  intLoad qp 1 .acq r1 r3 .none s

/-- ld2.acq r1 = [r3] (43 R428) -/
def execLd2Acq (qp : BitVec 6) (r1 : BitVec 7) (r3 : BitVec 7) (_hint : BitVec 2) (s : State) : Out :=
  intLoad qp 2 .acq r1 r3 .none s

/-- ld4.acq r1 = [r3] (43 R428) -/
def execLd4Acq (qp : BitVec 6) (r1 : BitVec 7) (r3 : BitVec 7) (_hint : BitVec 2) (s : State) : Out :=
  intLoad qp 4 .acq r1 r3 .none s

/-- ld8.acq r1 = [r3] (43 R428) -/
def execLd8Acq (qp : BitVec 6) (r1 : BitVec 7) (r3 : BitVec 7) (_hint : BitVec 2) (s : State) : Out :=
  intLoad qp 8 .acq r1 r3 .none s

/-- ld1.c.clr r1 = [r3] (43 R443) -/
def execLd1CClr (qp : BitVec 6) (r1 : BitVec 7) (r3 : BitVec 7) (_hint : BitVec 2) (s : State) : Out :=
  intLoad qp 1 .cClr r1 r3 .none s

/-- ld2.c.clr r1 = [r3] (43 R443) -/
def execLd2CClr (qp : BitVec 6) (r1 : BitVec 7) (r3 : BitVec 7) (_hint : BitVec 2) (s : State) : Out :=
  intLoad qp 2 .cClr r1 r3 .none s

/-- ld4.c.clr r1 = [r3] (43 R443) -/
def execLd4CClr (qp : BitVec 6) (r1 : BitVec 7) (r3 : BitVec 7) (_hint : BitVec 2) (s : State) : Out :=
  intLoad qp 4 .cClr r1 r3 .none s

/-- ld8.c.clr r1 = [r3] (43 R443) -/
def execLd8CClr (qp : BitVec 6) (r1 : BitVec 7) (r3 : BitVec 7) (_hint : BitVec 2) (s : State) : Out :=
  intLoad qp 8 .cClr r1 r3 .none s

/-- ld1.c.nc r1 = [r3] (43 R443) -/
def execLd1CNc (qp : BitVec 6) (r1 : BitVec 7) (r3 : BitVec 7) (_hint : BitVec 2) (s : State) : Out :=
  intLoad qp 1 .cNc r1 r3 .none s

/-- ld2.c.nc r1 = [r3] (43 R443) -/
def execLd2CNc (qp : BitVec 6) (r1 : BitVec 7) (r3 : BitVec 7) (_hint : BitVec 2) (s : State) : Out :=
  intLoad qp 2 .cNc r1 r3 .none s

/-- ld4.c.nc r1 = [r3] (43 R443) -/
def execLd4CNc (qp : BitVec 6) (r1 : BitVec 7) (r3 : BitVec 7) (_hint : BitVec 2) (s : State) : Out :=
  intLoad qp 4 .cNc r1 r3 .none s

/-- ld8.c.nc r1 = [r3] (43 R443) -/
def execLd8CNc (qp : BitVec 6) (r1 : BitVec 7) (r3 : BitVec 7) (_hint : BitVec 2) (s : State) : Out :=
  intLoad qp 8 .cNc r1 r3 .none s

/-- ld1.c.clr.acq r1 = [r3] (43 R443) -/
def execLd1CClrAcq (qp : BitVec 6) (r1 : BitVec 7) (r3 : BitVec 7) (_hint : BitVec 2) (s : State) : Out :=
  intLoad qp 1 .cClrAcq r1 r3 .none s

/-- ld2.c.clr.acq r1 = [r3] (43 R443) -/
def execLd2CClrAcq (qp : BitVec 6) (r1 : BitVec 7) (r3 : BitVec 7) (_hint : BitVec 2) (s : State) : Out :=
  intLoad qp 2 .cClrAcq r1 r3 .none s

/-- ld4.c.clr.acq r1 = [r3] (43 R443) -/
def execLd4CClrAcq (qp : BitVec 6) (r1 : BitVec 7) (r3 : BitVec 7) (_hint : BitVec 2) (s : State) : Out :=
  intLoad qp 4 .cClrAcq r1 r3 .none s

/-- ld8.c.clr.acq r1 = [r3] (43 R443) -/
def execLd8CClrAcq (qp : BitVec 6) (r1 : BitVec 7) (r3 : BitVec 7) (_hint : BitVec 2) (s : State) : Out :=
  intLoad qp 8 .cClrAcq r1 r3 .none s

/-- ld8.fill r1 = [r3] (43 R430) -/
def execLd8Fill (qp : BitVec 6) (r1 : BitVec 7) (r3 : BitVec 7) (_hint : BitVec 2) (s : State) : Out :=
  fillLoad qp r1 r3 .none s

/-- ld16 r1, ar.csd = [r3] (43 R431) -/
def execLd16 (qp : BitVec 6) (r1 : BitVec 7) (r3 : BitVec 7) (_hint : BitVec 2) (s : State) : Out := load16 qp r1 r3 s

/-- ld16.acq r1, ar.csd = [r3] (43 R431) -/
def execLd16Acq (qp : BitVec 6) (r1 : BitVec 7) (r3 : BitVec 7) (_hint : BitVec 2) (s : State) : Out :=
  load16 qp r1 r3 s

end Machine
end Sys2Proof
end

