-- ==== Sys2Proof/Machine/Moves.lean ====
section
/-!
DEFINITION. The moves to and from control, application and indirect registers, and the serialization instructions
(41_cr_and_serialization_instructions.md, 42 R382 to R385).
-/
namespace Sys2Proof
namespace Machine

/-- mov cr3 = r2 (41 R360) -/
def execMovToCr (qp : BitVec 6) (cr3 : BitVec 7) (r2 : BitVec 7) (s : State) : Out :=
  predicated qp s <|
    guarded s [chkIllegal (!crDefined cr3.toNat || crReadOnly cr3.toNat || crBarred s cr3.toNat), chkPriv s, chkNat s r2,
        chkReserved (crReserved cr3.toNat (s.val r2)),
        (ifaUnimplAtMov s cr3.toNat (s.val r2), excUnimplData (s.val r2) false false false false), chkVirt s] <|
      finish s (s.writeCr cr3.toNat (s.val r2))

/-- mov r1 = cr3 (41 R361) -/
def execMovFromCr (qp : BitVec 6) (r1 : BitVec 7) (cr3 : BitVec 7) (s : State) : Out :=
  predicated qp s <|
    guarded s [chkTarget r1, chkIllegal (!crDefined cr3.toNat || crBarred s cr3.toNat), chkPriv s, chkVirt s] <|
      finish s ((s.readCr cr3.toNat).2.setVal r1 (s.readCr cr3.toNat).1)

/-- mov.m ar3 = r2 (41 R363, R373) -/
def execMovToAr (qp : BitVec 6) (ar3 : BitVec 7) (r2 : BitVec 7) (s : State) : Out :=
  predicated qp s <| guarded s (arWriteChecks s ar3.toNat (s.nat r2)) <| finish s (s.setAr ar3.toNat (s.val r2))

/-- mov.m ar3 = imm8 (41 R373) -/
def execMovArImm (qp : BitVec 6) (ar3 : BitVec 7) (imm : BitVec 8) (s : State) : Out :=
  predicated qp s <| guarded s (arWriteChecks s ar3.toNat false) <| finish s (s.setAr ar3.toNat (simm imm))

/-- mov.m r1 = ar3 (41 R362, R373) -/
def execMovFromAr (qp : BitVec 6) (r1 : BitVec 7) (ar3 : BitVec 7) (s : State) : Out :=
  predicated qp s <| guarded s (arReadChecks s r1 ar3.toNat) <| finish s (s.setVal r1 (s.getAr ar3.toNat))

/-- mov.i ar3 = r2, r1 = ar3, ar3 = imm8: ITC is reachable from the M unit only (41 R362, R373) -/
def execMovI (qp : BitVec 6) (form : MovIForm) (s : State) : Out :=
  predicated qp s <|
    match form with
    | .toAr ar3 r2 =>
      guarded s (chkIllegal (decide (ar3.toNat = Ar.itc)) :: arWriteChecks s ar3.toNat (s.nat r2)) <|
        finish s (s.setAr ar3.toNat (s.val r2))
    | .fromAr r1 ar3 =>
      guarded s (chkIllegal (decide (ar3.toNat = Ar.itc)) :: arReadChecks s r1 ar3.toNat) <|
        finish s (s.setVal r1 (s.getAr ar3.toNat))
    | .toArImm ar3 imm =>
      guarded s (chkIllegal (decide (ar3.toNat = Ar.itc)) :: arWriteChecks s ar3.toNat false) <|
        finish s (s.setAr ar3.toNat (simm imm))

/-- mov rr[r3] = r2 (42 R382) -/
def execMovToRr (qp : BitVec 6) (r3 : BitVec 7) (r2 : BitVec 7) (s : State) : Out :=
  predicated qp s <| guarded s (indirectWriteChecks s r3 r2 (rrReserved (s.val r2))) <|
    finish s (s.pushSys fun y => { y with rr := wr y.rr (vrnOf (s.val r3)).toNat (s.val r2) })

/-- mov dbr[r3] = r2 (41 R366) -/
def execMovToDbr (qp : BitVec 6) (r3 : BitVec 7) (r2 : BitVec 7) (s : State) : Out :=
  predicated qp s <| guarded s (indirectWriteChecks s r3 r2 (beyond (index8 (s.val r3)) 8 Config.numDbr)) <|
    finish s (s.pushSys fun y => { y with dbr := wr y.dbr (index8 (s.val r3)) (s.val r2) })

/-- mov ibr[r3] = r2 (41 R367) -/
def execMovToIbr (qp : BitVec 6) (r3 : BitVec 7) (r2 : BitVec 7) (s : State) : Out :=
  predicated qp s <| guarded s (indirectWriteChecks s r3 r2 (beyond (index8 (s.val r3)) 8 Config.numIbr)) <|
    finish s (s.pushSys fun y => { y with ibr := wr y.ibr (index8 (s.val r3)) (s.val r2) })

/-- mov pmc[r3] = r2 (41 R368) -/
def execMovToPmc (qp : BitVec 6) (r3 : BitVec 7) (r2 : BitVec 7) (s : State) : Out :=
  predicated qp s <| guarded s (indirectWriteChecks s r3 r2 (beyond (index8 (s.val r3)) 8 Config.numPm)) <|
    finish s (s.pushSys fun y => { y with pmc := wr y.pmc (index8 (s.val r3)) (s.val r2) })

/-- mov pkr[r3] = r2 (42 R384) -/
def execMovToPkr (qp : BitVec 6) (r3 : BitVec 7) (r2 : BitVec 7) (s : State) : Out :=
  predicated qp s <| guarded s (indirectWriteChecks s r3 r2 (pkrReserved (s.val r3) (s.val r2))) <|
    finish s (s.pushSys fun y => writePkr (index8 (s.val r3)) (s.val r2) y)

/-- mov pmd[r3] = r2 (41 R369) -/
def execMovToPmd (qp : BitVec 6) (r3 : BitVec 7) (r2 : BitVec 7) (s : State) : Out :=
  predicated qp s <| guarded s (indirectWriteChecks s r3 r2 (beyond (index8 (s.val r3)) 8 Config.numPm)) <|
    finish s (s.writePmd (index8 (s.val r3)) (s.val r2))

/-- mov r1 = rr[r3] (42 R383) -/
def execMovFromRr (qp : BitVec 6) (r1 : BitVec 7) (r3 : BitVec 7) (s : State) : Out :=
  predicated qp s <| guarded s (indirectReadChecks s r1 r3 false) <|
    finish s (s.setVal r1 (rd s.sys.rr (vrnOf (s.val r3)).toNat 0))

/-- mov r1 = dbr[r3] (41 R366) -/
def execMovFromDbr (qp : BitVec 6) (r1 : BitVec 7) (r3 : BitVec 7) (s : State) : Out :=
  predicated qp s <| guarded s (indirectReadChecks s r1 r3 (beyond (index8 (s.val r3)) 8 Config.numDbr)) <|
    finish s (s.setVal r1 (rd s.sys.dbr (index8 (s.val r3)) 0))

/-- mov r1 = ibr[r3] (41 R367) -/
def execMovFromIbr (qp : BitVec 6) (r1 : BitVec 7) (r3 : BitVec 7) (s : State) : Out :=
  predicated qp s <| guarded s (indirectReadChecks s r1 r3 (beyond (index8 (s.val r3)) 8 Config.numIbr)) <|
    finish s (s.setVal r1 (rd s.sys.ibr (index8 (s.val r3)) 0))

/-- mov r1 = pmc[r3] (41 R368) -/
def execMovFromPmc (qp : BitVec 6) (r1 : BitVec 7) (r3 : BitVec 7) (s : State) : Out :=
  predicated qp s <| guarded s (indirectReadChecks s r1 r3 (beyond (index8 (s.val r3)) 8 Config.numPm)) <|
    finish s (s.setVal r1 (rd s.sys.pmc (index8 (s.val r3)) 0))

/-- mov r1 = pkr[r3] (42 R385) -/
def execMovFromPkr (qp : BitVec 6) (r1 : BitVec 7) (r3 : BitVec 7) (s : State) : Out :=
  predicated qp s <| guarded s (indirectReadChecks s r1 r3 (beyond (index8 (s.val r3)) 16 Config.numPkr)) <|
    finish s (s.setVal r1 (rd s.sys.pkr (index8 (s.val r3)) 0))

/-- mov r1 = pmd[r3] (41 R369) -/
def execMovFromPmd (qp : BitVec 6) (r1 : BitVec 7) (r3 : BitVec 7) (s : State) : Out :=
  predicated qp s <|
    guarded s [chkTarget r1, chkNat s r3, chkReserved (beyond (index8 (s.val r3)) 8 Config.numPm)] <|
      finish s (s.setVal r1 (s.readPmd (index8 (s.val r3))))

/-- mov r1 = cpuid[r3] (41 R370) -/
def execMovFromCpuid (qp : BitVec 6) (r1 : BitVec 7) (r3 : BitVec 7) (s : State) : Out :=
  predicated qp s <|
    guarded s [chkTarget r1, chkNat s r3, chkReserved (beyond (index8 (s.val r3)) 1 Config.numCpuid), chkVirt s] <|
      finish s (s.setVal r1 (Config.cpuid (index8 (s.val r3))))

/-- srlz.d (41 R365) -/
def execSrlzD (qp : BitVec 6) (s : State) : Out := predicated qp s (finish s s.dataSerialize)

/-- srlz.i (41 R364) -/
def execSrlzI (qp : BitVec 6) (s : State) : Out := predicated qp s (finish s s.requestSrlzI)

end Machine
end Sys2Proof
end

