-- ==== Sys2Proof/Machine/Order.lean ====
section
/-!
DEFINITION. The fences: in a model where every access takes effect at its instruction they change nothing
(43 R446 to R448, 92_eei_decisions.md D19; log entry 43).
-/
namespace Sys2Proof
namespace Machine

/-- mf (43 R446) -/
def execMf (qp : BitVec 6) (s : State) : Out := predicated qp s (finish s s)

/-- mf.a (43 R447) -/
def execMfA (qp : BitVec 6) (s : State) : Out := predicated qp s (finish s s)

/-- fwb (43 R448) -/
def execFwb (qp : BitVec 6) (s : State) : Out := predicated qp s (finish s s)

end Machine
end Sys2Proof
end

