-- ==== Sys2Proof/Machine/PsrInstr.lean ====
section
/-!
DEFINITION. The instructions that read or write the PSR: the masks, the moves, bsw, vmsw, rfi, epc (40_psr_instructions.md, 41 R375).
-/
namespace Sys2Proof
namespace Machine

/-- sum imm24 (40 R336) -/
def execSum (qp : BitVec 6) (imm : BitVec 24) (s : State) : Out :=
  predicated qp s <| guarded s [chkReserved (decide (imm.setWidth 64 &&& ~~~userMask ≠ 0))] <|
    finish s (s.writeUm (sumPsr (s.dpsr Psr.sp) (imm.setWidth 64)))

/-- rum imm24 (40 R337) -/
def execRum (qp : BitVec 6) (imm : BitVec 24) (s : State) : Out :=
  predicated qp s <| guarded s [chkReserved (decide (imm.setWidth 64 &&& ~~~userMask ≠ 0))] <|
    finish s (s.writeUm (rumPsr (s.dpsr Psr.sp) (imm.setWidth 64)))

/-- ssm imm24 (40 R340) -/
def execSsm (qp : BitVec 6) (imm : BitVec 24) (s : State) : Out :=
  predicated qp s <| guarded s (maskChecks s (imm.setWidth 64)) <|
    finish s (s.pushSys (Sys.onPsr (ssmPsr (imm.setWidth 64))))

/-- rsm imm24 (40 R344) -/
def execRsm (qp : BitVec 6) (imm : BitVec 24) (s : State) : Out :=
  predicated qp s <| guarded s (maskChecks s (imm.setWidth 64)) <| finish s (rsmSys (imm.setWidth 64) s)

/-- mov r1 = psr.um (40 R339); it sees the mfl and mfh that an instruction of its own group has set, which the spec leaves open
(DESIGN CHOICE, log entry 7) -/
def execMovFromUm (qp : BitVec 6) (r1 : BitVec 7) (s : State) : Out :=
  predicated qp s <| guarded s [chkTarget r1] <| finish s (s.setVal r1 (s.sys.psr &&& userMask))

/-- mov psr.um = r2 (40 R338) -/
def execMovToUm (qp : BitVec 6) (r2 : BitVec 7) (s : State) : Out :=
  predicated qp s <| guarded s [chkNat s r2, chkReserved (decide (s.val r2 &&& ~~~userMask ≠ 0))] <|
    finish s (s.writeUm (movUmPsr (s.dpsr Psr.sp) (s.val r2)))

/-- mov r1 = psr (40 R346) -/
def execMovFromPsr (qp : BitVec 6) (r1 : BitVec 7) (s : State) : Out :=
  predicated qp s <| guarded s [chkTarget r1, chkPriv s, chkVirt s] <|
    finish s (s.setVal r1 (s.sys.psr &&& readableMask))

/-- mov psr.l = r2 (40 R345) -/
def execMovToPsrL (qp : BitVec 6) (r2 : BitVec 7) (s : State) : Out :=
  predicated qp s <|
    guarded s [chkPriv s, chkNat s r2, chkReserved (decide (s.val r2 &&& lowerReserved ≠ 0)), chkVirt s] <|
      movPsrL s (s.val r2)

/-- bsw.0 (40 R341) -/
def execBsw0 (s : State) : Out :=
  guarded s [chkPriv s, chkVirt s] <| finish s (s.mapSys (Sys.onPsr fun p => setBit p Psr.bn false))

/-- bsw.1 (40 R342) -/
def execBsw1 (s : State) : Out :=
  guarded s [chkPriv s, chkVirt s] <| finish s (s.mapSys (Sys.onPsr fun p => setBit p Psr.bn true))

/-- The checks of vmsw: implemented, privileged, enabled, on a page with access rights 7 (40 R347) -/
def vmswChecks (s : State) : List Check :=
  [chkIllegal (!Config.hasPsrVm), chkPriv s, (!Config.vmswEnabled, excVirtualization),
   (!s.psrNow Psr.it || decide (s.ctx.ar ≠ 7), excVirtualization)]

/-- vmsw.0 (40 R347) -/
def execVmsw0 (s : State) : Out :=
  guarded s (vmswChecks s) <| finish s (s.mapSys (Sys.onPsr fun p => setBit p Psr.vm false))

/-- vmsw.1 (40 R347) -/
def execVmsw1 (s : State) : Out :=
  guarded s (vmswChecks s) <|
    if unimplVa true s.ip then .refused .vmswUndefined
    else finish s (s.mapSys (Sys.onPsr fun p => setBit p Psr.vm true))

/-- Entering IA-32 code with PSR.ic, dt or it 0 or mc 1 is undefined (40 R348, 70 R562) -/
def ia32Undefined (psr : Word) : Bool := !bit psr Psr.ic || !bit psr Psr.dt || !bit psr Psr.it || bit psr Psr.mc

/-- A restart slot of 3 (40 R343 (3); IA-32 code has no slots) -/
def restartReserved (ipsr : Word) : Bool := !bit ipsr Psr.is && decide (field ipsr Psr.riLo 2 = (3 : BitVec 2))

/-- rfi: the checks, then the return from interruption; a restart slot of 3 is refused (40 R343; log entry 36) -/
def execRfi (s : State) : Out :=
  guarded s [chkPriv s, chkReserved (psrReservedSet (s.impliedCr 16)), chkVirt s] <|
    if rtChanges s (s.impliedCr 16) then .refused .rtChange
    else if ia32Undefined (s.impliedCr 16) && bit (s.impliedCr 16) Psr.is then .refused .ia32EntryUndefined
    else if restartReserved (s.impliedCr 16) then .refused .reservedRestartSlot
    else returnFromInterruption s

/-- epc: on a page with access rights 7 of a more privileged level, or in physical mode, the privilege level rises; the
rest of the group may still run at the old one (41 R375; log entry 37) -/
def epcPromote (s : State) : State :=
  if s.psrNow Psr.it then
    if s.ctx.ar = 7 ∧ s.ctx.pl.toNat < s.cpl.toNat then s.pushSys (Sys.onPsr fun p => setCpl p s.ctx.pl) else s
  else s.pushSys (Sys.onPsr fun p => setCpl p 0)

/-- epc (41 R375) -/
def execEpc (s : State) : Out :=
  guarded s [chkIllegal (decide ((pfsPpl (s.getAr Ar.pfs)).toNat < s.cpl.toNat))] <|
    finish s (epcPromote s)

end Machine
end Sys2Proof
end

