-- ==== Sys2Proof/Machine/Sem.lean ====
section
/-!
DEFINITION. The semaphores (43 R449 to R453).
-/
namespace Sys2Proof
namespace Machine

/-- cmpxchg1.acq r1 = [r3], r2, ar.ccv (43 R449) -/
def execCmpxchg1Acq (qp : BitVec 6) (r1 : BitVec 7) (r2 : BitVec 7) (r3 : BitVec 7) (_hint : BitVec 2) (s : State) : Out :=
  cmpxchgOp qp 1 r1 r2 r3 s

/-- cmpxchg2.acq r1 = [r3], r2, ar.ccv (43 R449) -/
def execCmpxchg2Acq (qp : BitVec 6) (r1 : BitVec 7) (r2 : BitVec 7) (r3 : BitVec 7) (_hint : BitVec 2) (s : State) : Out :=
  cmpxchgOp qp 2 r1 r2 r3 s

/-- cmpxchg4.acq r1 = [r3], r2, ar.ccv (43 R449) -/
def execCmpxchg4Acq (qp : BitVec 6) (r1 : BitVec 7) (r2 : BitVec 7) (r3 : BitVec 7) (_hint : BitVec 2) (s : State) : Out :=
  cmpxchgOp qp 4 r1 r2 r3 s

/-- cmpxchg8.acq r1 = [r3], r2, ar.ccv (43 R449) -/
def execCmpxchg8Acq (qp : BitVec 6) (r1 : BitVec 7) (r2 : BitVec 7) (r3 : BitVec 7) (_hint : BitVec 2) (s : State) : Out :=
  cmpxchgOp qp 8 r1 r2 r3 s

/-- cmpxchg1.rel r1 = [r3], r2, ar.ccv (43 R449) -/
def execCmpxchg1Rel (qp : BitVec 6) (r1 : BitVec 7) (r2 : BitVec 7) (r3 : BitVec 7) (_hint : BitVec 2) (s : State) : Out :=
  cmpxchgOp qp 1 r1 r2 r3 s

/-- cmpxchg2.rel r1 = [r3], r2, ar.ccv (43 R449) -/
def execCmpxchg2Rel (qp : BitVec 6) (r1 : BitVec 7) (r2 : BitVec 7) (r3 : BitVec 7) (_hint : BitVec 2) (s : State) : Out :=
  cmpxchgOp qp 2 r1 r2 r3 s

/-- cmpxchg4.rel r1 = [r3], r2, ar.ccv (43 R449) -/
def execCmpxchg4Rel (qp : BitVec 6) (r1 : BitVec 7) (r2 : BitVec 7) (r3 : BitVec 7) (_hint : BitVec 2) (s : State) : Out :=
  cmpxchgOp qp 4 r1 r2 r3 s

/-- cmpxchg8.rel r1 = [r3], r2, ar.ccv (43 R449) -/
def execCmpxchg8Rel (qp : BitVec 6) (r1 : BitVec 7) (r2 : BitVec 7) (r3 : BitVec 7) (_hint : BitVec 2) (s : State) : Out :=
  cmpxchgOp qp 8 r1 r2 r3 s

/-- xchg1 r1 = [r3], r2 (43 R450) -/
def execXchg1 (qp : BitVec 6) (r1 : BitVec 7) (r2 : BitVec 7) (r3 : BitVec 7) (_hint : BitVec 2) (s : State) : Out :=
  xchgOp qp 1 r1 r2 r3 s

/-- xchg2 r1 = [r3], r2 (43 R450) -/
def execXchg2 (qp : BitVec 6) (r1 : BitVec 7) (r2 : BitVec 7) (r3 : BitVec 7) (_hint : BitVec 2) (s : State) : Out :=
  xchgOp qp 2 r1 r2 r3 s

/-- xchg4 r1 = [r3], r2 (43 R450) -/
def execXchg4 (qp : BitVec 6) (r1 : BitVec 7) (r2 : BitVec 7) (r3 : BitVec 7) (_hint : BitVec 2) (s : State) : Out :=
  xchgOp qp 4 r1 r2 r3 s

/-- xchg8 r1 = [r3], r2 (43 R450) -/
def execXchg8 (qp : BitVec 6) (r1 : BitVec 7) (r2 : BitVec 7) (r3 : BitVec 7) (_hint : BitVec 2) (s : State) : Out :=
  xchgOp qp 8 r1 r2 r3 s

/-- fetchadd4.acq r1 = [r3], inc3 (43 R451); inc is s : i2b -/
def execFetchadd4Acq (qp : BitVec 6) (r1 : BitVec 7) (inc : BitVec 3) (r3 : BitVec 7) (_hint : BitVec 2) (s : State) : Out :=
  fetchaddOp qp 4 r1 inc r3 s

/-- fetchadd8.acq r1 = [r3], inc3 (43 R451); inc is s : i2b -/
def execFetchadd8Acq (qp : BitVec 6) (r1 : BitVec 7) (inc : BitVec 3) (r3 : BitVec 7) (_hint : BitVec 2) (s : State) : Out :=
  fetchaddOp qp 8 r1 inc r3 s

/-- fetchadd4.rel r1 = [r3], inc3 (43 R451); inc is s : i2b -/
def execFetchadd4Rel (qp : BitVec 6) (r1 : BitVec 7) (inc : BitVec 3) (r3 : BitVec 7) (_hint : BitVec 2) (s : State) : Out :=
  fetchaddOp qp 4 r1 inc r3 s

/-- fetchadd8.rel r1 = [r3], inc3 (43 R451); inc is s : i2b -/
def execFetchadd8Rel (qp : BitVec 6) (r1 : BitVec 7) (inc : BitVec 3) (r3 : BitVec 7) (_hint : BitVec 2) (s : State) : Out :=
  fetchaddOp qp 8 r1 inc r3 s

/-- cmp8xchg16.acq r1 = [r3], r2, ar.csd, ar.ccv (43 R453) -/
def execCmp8xchg16Acq (qp : BitVec 6) (r1 : BitVec 7) (r2 : BitVec 7) (r3 : BitVec 7) (_hint : BitVec 2) (s : State) : Out :=
  cmp8xchg16Op qp r1 r2 r3 s

/-- cmp8xchg16.rel r1 = [r3], r2, ar.csd, ar.ccv (43 R453) -/
def execCmp8xchg16Rel (qp : BitVec 6) (r1 : BitVec 7) (r2 : BitVec 7) (r3 : BitVec 7) (_hint : BitVec 2) (s : State) : Out :=
  cmp8xchg16Op qp r1 r2 r3 s

end Machine
end Sys2Proof
end

