-- ==== Sys2Proof/Machine/Simple.lean ====
section
/-!
DEFINITION. break, nop, hint and the 32-bit pointer additions (41 R377, 30 R316, 43 R456, R457).
-/
namespace Sys2Proof
namespace Machine

/-- break.m imm21 (41 R377) -/
def execBreakM (qp : BitVec 6) (imm : BitVec 21) (s : State) : Out :=
  predicated qp s (raise s (excBreak (imm.setWidth 64)))

/-- break.i imm21 (41 R377) -/
def execBreakI (qp : BitVec 6) (imm : BitVec 21) (s : State) : Out :=
  predicated qp s (raise s (excBreak (imm.setWidth 64)))

/-- break.b: IIM gets 0 and the immediate is ignored (60 R496) -/
def execBreakB (qp : BitVec 6) (_imm : BitVec 21) (s : State) : Out := predicated qp s (raise s (excBreak 0))

/-- break.f imm21, break.x imm62: IIM gets the zero-extended immediate (41 R377) -/
def execBreakFX (qp : BitVec 6) (form : BreakForm) (s : State) : Out :=
  predicated qp s <| raise s <| excBreak <|
    match form with
    | .f imm => imm.setWidth 64
    | .x imm => imm.setWidth 64

/-- nop.m imm21 (30 R316) -/
def execNopM (qp : BitVec 6) (_imm : BitVec 21) (s : State) : Out := predicated qp s (finish s s)

/-- hint.m imm21 (30 R316) -/
def execHintM (qp : BitVec 6) (_imm : BitVec 21) (s : State) : Out := predicated qp s (finish s s)

/-- nop.i imm21, and the F and X forms (30 R316) -/
def execNopI (qp : BitVec 6) (_imm : BitVec 21) (s : State) : Out := predicated qp s (finish s s)

/-- hint.i imm21, and the F and X forms (30 R316) -/
def execHintI (qp : BitVec 6) (_imm : BitVec 21) (s : State) : Out := predicated qp s (finish s s)

/-- nop.b imm21 (30 R316) -/
def execNopB (qp : BitVec 6) (_imm : BitVec 21) (s : State) : Out := predicated qp s (finish s s)

/-- hint.b imm21 (30 R316) -/
def execHintB (qp : BitVec 6) (_imm : BitVec 21) (s : State) : Out := predicated qp s (finish s s)

/-- addp4 r1 = r2, r3 (43 R456) -/
def execAddp4 (qp : BitVec 6) (r1 : BitVec 7) (r2 : BitVec 7) (r3 : BitVec 7) (s : State) : Out :=
  predicated qp s <| guarded s [chkTarget r1] <|
    finish s (s.setGr r1 { val := addp4Val (s.val r2) (s.val r3), nat := s.nat r2 || s.nat r3 })

/-- addp4 r1 = imm14, r3 (43 R456) -/
def execAddp4Imm (qp : BitVec 6) (r1 : BitVec 7) (imm : BitVec 14) (r3 : BitVec 7) (s : State) : Out :=
  predicated qp s <| guarded s [chkTarget r1] <|
    finish s (s.setGr r1 { val := addp4Val (simm imm) (s.val r3), nat := s.nat r3 })

/-- shladdp4 r1 = r2, count2, r3 (43 R457); count2 = ct2d + 1 -/
def execShladdp4 (qp : BitVec 6) (r1 : BitVec 7) (r2 : BitVec 7) (ct2d : BitVec 2) (r3 : BitVec 7) (s : State) : Out :=
  predicated qp s <| guarded s [chkTarget r1] <|
    finish s (s.setGr r1 { val := addp4Val (s.val r2 <<< (ct2d.toNat + 1)) (s.val r3), nat := s.nat r2 || s.nat r3 })

end Machine
end Sys2Proof
end

