-- ==== Sys2Proof/Machine/Store.lean ====
section
/-!
DEFINITION. The integer stores without base update (43 R432 to R435).
-/
namespace Sys2Proof
namespace Machine

/-- st1 [r3] = r2 (43 R432) -/
def execSt1 (qp : BitVec 6) (r2 : BitVec 7) (r3 : BitVec 7) (_hint : BitVec 2) (s : State) : Out :=
  intStore qp 1 r2 r3 .none s

/-- st2 [r3] = r2 (43 R432) -/
def execSt2 (qp : BitVec 6) (r2 : BitVec 7) (r3 : BitVec 7) (_hint : BitVec 2) (s : State) : Out :=
  intStore qp 2 r2 r3 .none s

/-- st4 [r3] = r2 (43 R432) -/
def execSt4 (qp : BitVec 6) (r2 : BitVec 7) (r3 : BitVec 7) (_hint : BitVec 2) (s : State) : Out :=
  intStore qp 4 r2 r3 .none s

/-- st8 [r3] = r2 (43 R432) -/
def execSt8 (qp : BitVec 6) (r2 : BitVec 7) (r3 : BitVec 7) (_hint : BitVec 2) (s : State) : Out :=
  intStore qp 8 r2 r3 .none s

/-- st1.rel [r3] = r2 (43 R433) -/
def execSt1Rel (qp : BitVec 6) (r2 : BitVec 7) (r3 : BitVec 7) (_hint : BitVec 2) (s : State) : Out :=
  intStore qp 1 r2 r3 .none s

/-- st2.rel [r3] = r2 (43 R433) -/
def execSt2Rel (qp : BitVec 6) (r2 : BitVec 7) (r3 : BitVec 7) (_hint : BitVec 2) (s : State) : Out :=
  intStore qp 2 r2 r3 .none s

/-- st4.rel [r3] = r2 (43 R433) -/
def execSt4Rel (qp : BitVec 6) (r2 : BitVec 7) (r3 : BitVec 7) (_hint : BitVec 2) (s : State) : Out :=
  intStore qp 4 r2 r3 .none s

/-- st8.rel [r3] = r2 (43 R433) -/
def execSt8Rel (qp : BitVec 6) (r2 : BitVec 7) (r3 : BitVec 7) (_hint : BitVec 2) (s : State) : Out :=
  intStore qp 8 r2 r3 .none s

/-- st8.spill [r3] = r2 (43 R434) -/
def execSt8Spill (qp : BitVec 6) (r2 : BitVec 7) (r3 : BitVec 7) (_hint : BitVec 2) (s : State) : Out :=
  spillStore qp r2 r3 .none s

/-- st16 [r3] = r2, ar.csd (43 R435) -/
def execSt16 (qp : BitVec 6) (r2 : BitVec 7) (r3 : BitVec 7) (_hint : BitVec 2) (s : State) : Out :=
  store16 qp r2 r3 s

/-- st16.rel [r3] = r2, ar.csd (43 R435) -/
def execSt16Rel (qp : BitVec 6) (r2 : BitVec 7) (r3 : BitVec 7) (_hint : BitVec 2) (s : State) : Out :=
  store16 qp r2 r3 s

end Machine
end Sys2Proof
end

