-- ==== Sys2Proof/Machine/TransOps.lean ====
section
/-!
DEFINITION. The operations the translation instructions share: inserts, purges, queries of the data TLB
(42_translation_instructions.md R390 to R403, 21_memory_translation.md R231; log entries 30, 51, 52, 54).
-/
namespace Sys2Proof
namespace Machine

/-! Inserts. -/

/-- An insertion format with reserved bits; with p = 0 ITIR{63:32} and the key may be ignored
(21_memory_translation.md R233, 42_translation_instructions.md R390; log entry 51). -/
def insertReserved (pte itir : Word) : Bool :=
  (bit pte 0 && pteReserved pte) ||
  ((!insertable (field itir 2 6).toNat || decide (itir &&& 3 ≠ 0) ||
    ((decide (itir &&& 0xFFFFFFFF00000000 ≠ 0) || keyUnimpl (field itir 8 24)) &&
      (bit pte 0 || !Config.itirIgnoredIfNotPresent))) && !Config.itirCheckAtMov)

/-- The checks of an insert, a non-access instruction (11_state_control_registers.md R110; log entry 54); bad says that the
translation register number is out of range. An unimplemented physical page number is an Unimplemented Data Address, "not
Reserved Register/Field" (20_memory.md R152, 21_memory_translation.md R233; log entry 51). -/
def insertChecks (s : State) (nat bad : Bool) (pte itir ifa : Word) : List Check :=
  naChecks
    [chkIllegal (s.dpsr Psr.ic), chkPriv s, (nat, excRegNat false false false), chkReserved bad,
     chkReserved (insertReserved pte itir),
     (bit pte 0 && ppnUnimpl pte || (unimplVa s.vm ifa && !Config.ifaCheckAtMov), excUnimplData ifa false false false false),
     chkVirt s]

/-- The entry an insert makes from its operands (42_translation_instructions.md R390). -/
def insertEntry (s : State) (pte : Word) : TlbEntry :=
  let ifa := s.impliedCr 20
  let itir := s.impliedCr 21
  mkEntry pte (field itir 2 6).toNat (field itir 8 24) (rrRid (s.rrAt (vrnOf ifa).toNat)) ifa

/-- A translation register of the same side overlaps. -/
def State.trClash (s : State) (side : Side) (e : TlbEntry) : Bool :=
  trOverlaps (s.sys.trs side) e.rid e.base e.ps.toNat

/-- An insert that overlaps a translation register of its side: a machine check is owed, the purges of an insert happen, and the
entry may get into the translation cache (42_translation_instructions.md R390, 21_memory_translation.md R231). -/
def State.insertClash (s : State) (side : Side) (e : TlbEntry) : State :=
  ({ s with mcOwed := true } : State).pushSys
    (if Config.freeBit .mayInsert s.tick then Sys.insertTc s.tick side e else Sys.purgeForInsert s.tick side e)

/-- Insert into a translation cache; forward progress depends on the entry from now on (21_memory_translation.md R226). -/
def State.insertCache (s : State) (side : Side) (e : TlbEntry) : State :=
  if s.trClash side e then s.insertClash side e
  else { s.pushSys (Sys.insertTc s.tick side e) with lastTc := some e }

/-- An insert of an attribute the platform lacks is undefined (20_memory.md R162; 70_reset_and_hazards.md R562, 13). -/
def withPlatform (pte : Word) (k : Out) : Out :=
  if bit pte 0 && !platformSupports (field pte 2 3) then .refused .platformAttribute else k

/-- Insert into a translation register. -/
def State.insertReg (s : State) (side : Side) (n : Nat) (e : TlbEntry) : State :=
  if s.trClash side e then s.insertClash side e else s.pushSys (Sys.insertTr s.tick side n e)

/-- itc.i, itc.d. -/
def insertCacheOp (qp : BitVec 6) (side : Side) (r2 : BitVec 7) (s : State) : Out :=
  predicated qp s <|
    guarded s (insertChecks s (s.nat r2) false (s.val r2) (s.impliedCr 21) (s.impliedCr 20)) <|
      withPlatform (s.val r2) <| finish s (s.insertCache side (insertEntry s (s.val r2)))

/-- The implemented translation registers of a side. -/
def numTr : Side → Nat
  | .instr => Config.numItr
  | .data => Config.numDtr

/-- itr.i, itr.d: overwriting a live register is refused (42_translation_instructions.md R388). -/
def insertRegOp (qp : BitVec 6) (side : Side) (r3 r2 : BitVec 7) (s : State) : Out :=
  predicated qp s <|
    guarded s (insertChecks s (s.nat r3 || s.nat r2) (beyond (index8 (s.val r3)) 8 (numTr side)) (s.val r2)
        (s.impliedCr 21) (s.impliedCr 20)) <|
      if (rd (s.sys.trs side) (index8 (s.val r3)) none).isSome then .refused .trSlotLive
      else withPlatform (s.val r2) <| finish s (s.insertReg side (index8 (s.val r3)) (insertEntry s (s.val r2)))

/-! Purges. -/

/-- The checks of a purge with operands, a non-access instruction; whether an unimplemented page size is a Reserved
Register/Field fault is a parameter: 93_implementation_defined.md section 3 says so, while 42_translation_instructions.md R391,
21_memory_translation.md R246 and 95_test_vectors.md 2.3 (21) give other outcomes (log entry 52). -/
def purgeChecks (s : State) (r3 r2 : BitVec 7) : List Check :=
  naChecks
    [chkPriv s, (s.nat r3 || s.nat r2, excRegNat false false true),
     chkReserved (!purgeable (field (s.val r2) 2 6).toNat && Config.purgeSizeFaults),
     (unimplVa s.vm (s.val r3), excUnimplData (s.val r3) false false true false), chkVirt s]

/-- What a purge names: region identifier, region offset, page size (42_translation_instructions.md R391). -/
structure PurgeRange where
  rid : BitVec 24
  off : BitVec 61
  ps : Nat

/-- The range of a purge instruction. -/
def State.purgeRange (s : State) (r3 r2 : BitVec 7) : PurgeRange :=
  { rid := rrRid (s.rrAt (vrnOf (s.val r3)).toNat), off := offOf (s.val r3), ps := (field (s.val r2) 2 6).toNat }

/-- The entries a must-purge leaves; with a page size that cannot be purged, overlapping entries may stay
(21_memory_translation.md R231, R246). -/
def PurgeRange.must (p : PurgeRange) (tick : Nat) (l : List TlbEntry) : List TlbEntry :=
  if purgeable p.ps then purgeList l p.rid p.off p.ps
  else l.filter fun e => !(e.overlaps p.rid p.off p.ps && !Config.freeBit (.underPurge e.base.toNat) tick)

/-- The entries a may-purge leaves. -/
def PurgeRange.may (p : PurgeRange) (tick : Nat) (l : List TlbEntry) : List TlbEntry :=
  mayPurgeList l p.rid p.off p.ps tick

/-- The translation registers a must-purge leaves. -/
def PurgeRange.mustTrs (p : PurgeRange) (tick : Nat) (v : Vector (Option TlbEntry) 256) : Vector (Option TlbEntry) 256 :=
  if purgeable p.ps then purgeTrs v p.rid p.off p.ps
  else v.map fun o => match o with
    | some e => if e.overlaps p.rid p.off p.ps && !Config.freeBit (.underPurge e.base.toNat) tick then none else some e
    | none => none

/-- A page size that cannot be purged may raise a machine check (21_memory_translation.md R246). -/
def State.oweForSize (s : State) (p : PurgeRange) : State :=
  if purgeable p.ps then s else { s with mcOwed := s.mcOwed || Config.freeBit .mayMca s.tick }

/-- ptc.l, and ptc.g on the one processor: both caches are purged, a register in the range owes a machine check
(42_translation_instructions.md R393, R394; 21_memory_translation.md R231). -/
def State.purgeCaches (s : State) (p : PurgeRange) : State :=
  let clash := trOverlaps s.sys.itr p.rid p.off p.ps || trOverlaps s.sys.dtr p.rid p.off p.ps
  let s1 := s.oweForSize p
  ({ s1 with mcOwed := s1.mcOwed || clash } : State).pushSys fun y =>
    { y with itcTlb := p.must s.tick y.itcTlb, dtcTlb := p.must s.tick y.dtcTlb }

/-- An ALAT entry lies in a page that a purged translation mapped (42_translation_instructions.md R395, D25). -/
def alatInPage (e : TlbEntry) (a : AlatEntry) : Bool :=
  rangesOverlap (e.pa 0) (2 ^ e.ps.toNat) a.pa a.size

/-- ptc.ga also removes the ALAT entries of the purged pages (42_translation_instructions.md R395). -/
def State.purgeAlat (s : State) (p : PurgeRange) : State :=
  let victims := (s.sys.itcTlb ++ s.sys.dtcTlb).filter fun e => e.overlaps p.rid p.off p.ps
  { s with alat := s.alat.filter fun a => !victims.any fun e => alatInPage e a }

/-- ptr.i, ptr.d (42_translation_instructions.md R397, R400). -/
def State.purgeRegs (s : State) (side : Side) (p : PurgeRange) : State :=
  (s.oweForSize p).pushSys fun y =>
    let y1 := y.setTrs side (p.mustTrs s.tick (y.trs side))
    let y2 := y1.setTc side (p.must s.tick (y.tc side))
    y2.setTc side.other (p.may s.tick (y.tc side.other))

/-! Queries. -/

/-- Look up a translation for probe and tpa: the misses are faults; then the first kept page fault, or go on
(42_translation_instructions.md R403). -/
def withTranslation (s : State) (ref : Ref) (keep : DFault → Bool) (k : TlbEntry → State → Out) : Out :=
  let v := s.dataView 0
  match searchTlb s v (s.dataView 100) .data ref.va with
  | .refuse r => .refused r
  | .alternate =>
    raise s (missExc ref 0x1000 (defaultItir (s.faultRr ref.va)) (if Config.altMissWritesIha then s.faultIha ref.va else none))
  | .vhptFault a => raise s (missExc ref 0x0000 (defaultItir (s.faultRr a)) (some a))
  | .miss s' => raise s' (missExc ref 0x0800 (defaultItir (s.faultRr ref.va)) (s.faultIha ref.va))
  | .found e s' =>
    match (failing (pageFaults s v ref e)).filter fun p => keep p.1 with
    | [] => k e s'
    | (_, x) :: _ => raise s' x

/-- The faults the regular probe takes (42_translation_instructions.md R392). -/
def probeTakes : DFault → Bool
  | .notPresent => true
  | .natPage => true
  | .keyMiss => true
  | _ => false
/-- The faults tpa takes (42_translation_instructions.md R402). -/
def tpaTakes : DFault → Bool
  | .notPresent => true
  | .natPage => true
  | _ => false

/-- The privilege level a probe checks at: never more privileged than the caller (42_translation_instructions.md R392). -/
def probeLevel (s : State) (pl : BitVec 2) : BitVec 2 := if pl.toNat < s.cpl.toNat then s.cpl else pl

/-- The answer of a probe, which reads the protection keys on its own (42_translation_instructions.md R392,
70_reset_and_hazards.md R556). -/
def probeAnswer (v : TransView) (e : TlbEntry) (pl : BitVec 2) (k : Acc) : Bool :=
  rights e.ar e.pl pl k && !(v.pk && (matchingPkrs v.pkr e.key).any fun w => pkrDisables w k)

/-- The regular probe of an address at a level (42_translation_instructions.md R392). -/
def probeOp (r1 : BitVec 7) (va : Word) (pl : BitVec 2) (k : Acc) (s : State) : Out :=
  if !(s.dataView 0).dt then .refused .physicalQuery
  else if unimplVa s.vm va then finish s (s.setVal r1 0)
  else
    withTranslation s { va := va, size := 1, align := 1, r := decide (k = .r), w := decide (k = .w), na := true
                        pl := probeLevel s pl } probeTakes fun e t =>
      finish s (t.setVal r1 (if probeAnswer (s.dataView 1) e (probeLevel s pl) k then 1 else 0))

/-- The faulting probe: every fault of such an access through Access Bit, without the Dirty Bit
(42_translation_instructions.md R392, 21_memory_translation.md R284). -/
def probeFaultOp (qp : BitVec 6) (r3 : BitVec 7) (pl : BitVec 2) (r w : Bool) (s : State) : Out :=
  predicated qp s <| guarded s [(s.nat r3, excRegNat w r true)] <|
    if !(s.dataView 0).dt then .refused .physicalQuery
    else
      withRef s 0 { va := s.val r3, size := 1, align := 1, r := r, w := w, chk := false, na := true, pl := probeLevel s pl }
        fun c => finish s c.st

/-- tpa after its checks (42_translation_instructions.md R402). -/
def tpaOp (r1 : BitVec 7) (va : Word) (s : State) : Out :=
  if !(s.dataView 0).dt then .refused .physicalQuery
  else
    withTranslation s { va := va, size := 1, align := 1, na := true, pl := s.cpl } tpaTakes fun e t =>
      finish s (t.setVal r1 (BitVec.ofNat 64 (e.pa va)))

/-- tak after its checks: 1 when there is no key (42_translation_instructions.md R401). -/
def takOp (r1 : BitVec 7) (va : Word) (s : State) : Out :=
  let v := s.dataView 0
  if !v.dt then .refused .physicalQuery
  else if unimplVa s.vm va then finish s (s.setVal r1 1)
  else
    match v.tlb.lookup .data (rrRid (v.rrOf va)) va with
    | [] => finish s (s.setVal r1 1)
    | [e] => finish s (s.setVal r1 ((e.key.setWidth 64) <<< 8))
    | _ => .refused .multipleTlbMatch

/-- thash and ttag of an address: a NaT or unimplemented one gives a NaT result with a free value
(42_translation_instructions.md R398, R399). -/
def hashOp (r1 r3 : BitVec 7) (f : Word → Word → Word) (s : State) : Out :=
  if s.nat r3 || unimplVa s.vm (s.val r3) then
    finish s (s.setGr r1 { val := Config.freeWord .thashValue s.tick, nat := true })
  else finish s (s.setVal r1 (f (s.rrAt (vrnOf (s.val r3)).toNat) (s.val r3)))

end Machine
end Sys2Proof
end

