-- ==== Sys2Proof/Machine/Trans.lean ====
section
/-!
DEFINITION. Inserts, purges and queries of the translation resources (42_translation_instructions.md R386 to R402).
-/
namespace Sys2Proof
namespace Machine

/-- itc.d r2 (42 R387) -/
def execItcD (qp : BitVec 6) (r2 : BitVec 7) (s : State) : Out := insertCacheOp qp .data r2 s

/-- itc.i r2 (42 R386) -/
def execItcI (qp : BitVec 6) (r2 : BitVec 7) (s : State) : Out := insertCacheOp qp .instr r2 s

/-- itr.d dtr[r3] = r2 (42 R389) -/
def execItrD (qp : BitVec 6) (r3 : BitVec 7) (r2 : BitVec 7) (s : State) : Out := insertRegOp qp .data r3 r2 s

/-- itr.i itr[r3] = r2 (42 R388) -/
def execItrI (qp : BitVec 6) (r3 : BitVec 7) (r2 : BitVec 7) (s : State) : Out := insertRegOp qp .instr r3 r2 s

/-- ptc.l r3, r2 (42 R393) -/
def execPtcL (qp : BitVec 6) (r3 : BitVec 7) (r2 : BitVec 7) (s : State) : Out :=
  predicated qp s <| guarded s (purgeChecks s r3 r2) <| finish s (s.purgeCaches (s.purgeRange r3 r2))

/-- ptc.g r3, r2 (42 R394) -/
def execPtcG (qp : BitVec 6) (r3 : BitVec 7) (r2 : BitVec 7) (s : State) : Out :=
  predicated qp s <| guarded s (purgeChecks s r3 r2) <| finish s (s.purgeCaches (s.purgeRange r3 r2))

/-- ptc.ga r3, r2 (42 R395) -/
def execPtcGa (qp : BitVec 6) (r3 : BitVec 7) (r2 : BitVec 7) (s : State) : Out :=
  predicated qp s <| guarded s (purgeChecks s r3 r2) <|
    finish s ((s.purgeAlat (s.purgeRange r3 r2)).purgeCaches (s.purgeRange r3 r2))

/-- ptc.e r3: every entry of both caches goes, a legal choice of the subset (42 R396; log entry 30) -/
def execPtcE (qp : BitVec 6) (r3 : BitVec 7) (s : State) : Out :=
  predicated qp s <| guarded s (naChecks [chkPriv s, chkNat s r3, chkVirt s]) <|
    finish s (s.pushSys fun y => { y with itcTlb := [], dtcTlb := [] })

/-- ptr.d r3, r2 (42 R400) -/
def execPtrD (qp : BitVec 6) (r3 : BitVec 7) (r2 : BitVec 7) (s : State) : Out :=
  predicated qp s <| guarded s (purgeChecks s r3 r2) <| finish s (s.purgeRegs .data (s.purgeRange r3 r2))

/-- ptr.i r3, r2 (42 R397) -/
def execPtrI (qp : BitVec 6) (r3 : BitVec 7) (r2 : BitVec 7) (s : State) : Out :=
  predicated qp s <| guarded s (purgeChecks s r3 r2) <| finish s (s.purgeRegs .instr (s.purgeRange r3 r2))

/-- probe.r r1 = r3, imm2 (42 R392) -/
def execProbeRImm (qp : BitVec 6) (r1 : BitVec 7) (r3 : BitVec 7) (imm : BitVec 2) (s : State) : Out :=
  predicated qp s <| guarded s (naChecks [chkTarget r1, (s.nat r3, excRegNat false true true)]) <| probeOp r1 (s.val r3) imm .r s

/-- probe.r r1 = r3, r2 (42 R392) -/
def execProbeR (qp : BitVec 6) (r1 : BitVec 7) (r3 : BitVec 7) (r2 : BitVec 7) (s : State) : Out :=
  predicated qp s <| guarded s (naChecks [chkTarget r1, (s.nat r3 || s.nat r2, excRegNat false true true)]) <|
    probeOp r1 (s.val r3) (field (s.val r2) 0 2) .r s

/-- probe.w r1 = r3, imm2 (42 R392) -/
def execProbeWImm (qp : BitVec 6) (r1 : BitVec 7) (r3 : BitVec 7) (imm : BitVec 2) (s : State) : Out :=
  predicated qp s <| guarded s (naChecks [chkTarget r1, (s.nat r3, excRegNat true false true)]) <| probeOp r1 (s.val r3) imm .w s

/-- probe.w r1 = r3, r2 (42 R392) -/
def execProbeW (qp : BitVec 6) (r1 : BitVec 7) (r3 : BitVec 7) (r2 : BitVec 7) (s : State) : Out :=
  predicated qp s <| guarded s (naChecks [chkTarget r1, (s.nat r3 || s.nat r2, excRegNat true false true)]) <|
    probeOp r1 (s.val r3) (field (s.val r2) 0 2) .w s

/-- probe.rw.fault r3, imm2 (42 R392) -/
def execProbeRwFault (qp : BitVec 6) (r3 : BitVec 7) (imm : BitVec 2) (s : State) : Out :=
  probeFaultOp qp r3 imm true true s

/-- probe.r.fault r3, imm2 (42 R392) -/
def execProbeRFault (qp : BitVec 6) (r3 : BitVec 7) (imm : BitVec 2) (s : State) : Out :=
  probeFaultOp qp r3 imm true false s

/-- probe.w.fault r3, imm2 (42 R392) -/
def execProbeWFault (qp : BitVec 6) (r3 : BitVec 7) (imm : BitVec 2) (s : State) : Out :=
  probeFaultOp qp r3 imm false true s

/-- What thash computes: the address of the VHPT entry, or without a walker a function of the implementation (42 R398; log
entry 29) -/
def thashValue (pta rr va : Word) : Word :=
  if Config.hasVhptWalker then vhptAddr pta rr va else Config.hashWithoutWalker pta rr va

/-- thash r1 = r3 (42 R398) -/
def execThash (qp : BitVec 6) (r1 : BitVec 7) (r3 : BitVec 7) (s : State) : Out :=
  predicated qp s <| guarded s (naChecks [chkTarget r1, chkVirt s]) <| hashOp r1 r3 (fun rr va => thashValue (s.dcr 8) rr va) s

/-- ttag r1 = r3 (42 R399) -/
def execTtag (qp : BitVec 6) (r1 : BitVec 7) (r3 : BitVec 7) (s : State) : Out :=
  predicated qp s <| guarded s (naChecks [chkTarget r1, chkVirt s]) <| hashOp r1 r3 (fun rr va => vhptTag rr va) s

/-- tpa r1 = r3 (42 R402) -/
def execTpa (qp : BitVec 6) (r1 : BitVec 7) (r3 : BitVec 7) (s : State) : Out :=
  predicated qp s <|
    guarded s (naChecks [chkTarget r1, chkPriv s, chkNat s r3,
        ((s.dataView 0).dt && unimplVa s.vm (s.val r3), excUnimplData (s.val r3) false false true false), chkVirt s]) <|
      tpaOp r1 (s.val r3) s

/-- tak r1 = r3 (42 R401) -/
def execTak (qp : BitVec 6) (r1 : BitVec 7) (r3 : BitVec 7) (s : State) : Out :=
  predicated qp s <| guarded s (naChecks [chkTarget r1, chkPriv s, chkNat s r3, chkVirt s]) <| takOp r1 (s.val r3) s

end Machine
end Sys2Proof
end

