-- ==== Sys2Proof/Machine/Upd.lean ====
section
/-!
DEFINITION. The base-update forms of the loads, stores and prefetches (43_memory_instructions.md R423; log entry 48).
-/
namespace Sys2Proof

/-- The base update of a form; a pair load updates by its size. -/
def UpdOp.baseUpd (op : UpdOp) : Upd → Machine.BaseUpd
  | .reg r2 => .reg r2
  | .imm i => .imm (Machine.simm i)
  | .size =>
    match op with
    | .fpPair fmt _ _ _ => .imm (BitVec.ofNat 64 (2 * fmt.bytes))
    | _ => .none

namespace Machine

/-- every load, store and lfetch with base update (43 R423) -/
def execMemUpd (qp : BitVec 6) (op : UpdOp) (r3 : BitVec 7) (upd : Upd) (_hint : BitVec 2) (s : State) : Out :=
  match op with
  | .load size flav r1 => intLoad qp (sizeOf size) flav r1 r3 (op.baseUpd upd) s
  | .fill r1 => fillLoad qp r1 r3 (op.baseUpd upd) s
  | .store size _ r2 => intStore qp (sizeOf size) r2 r3 (op.baseUpd upd) s
  | .spill r2 => spillStore qp r2 r3 (op.baseUpd upd) s
  | .lfetch fault excl => lfetchOp qp fault excl r3 (op.baseUpd upd) s
  | .fpLoad fmt flav f1 => fpLoad qp fmt flav f1 r3 (op.baseUpd upd) s
  | .fpFill f1 => fpFill qp f1 r3 (op.baseUpd upd) s
  | .fpStore fmt f2 => fpStore qp fmt f2 r3 (op.baseUpd upd) s
  | .fpSpill f2 => fpSpill qp f2 r3 (op.baseUpd upd) s
  | .fpPair fmt flav f1 f2 => fpPairLoad qp fmt flav f1 f2 r3 (op.baseUpd upd) s

end Machine
end Sys2Proof
end

