-- ==== Sys2Proof/Machine/Dispatch.lean ====
section
/-!
DEFINITION. The meaning of every instruction: one arm per constructor, one call of its own meaning.
-/
namespace Sys2Proof
namespace Machine

/-- Execute an instruction in the state its fetch left. -/
def exec (i : Instr) (s : State) : Host.Outcome State Fault Refusal :=
  match i with
  | .breakM qp imm => Sys2Proof.Machine.execBreakM qp imm s
  | .invala qp => Sys2Proof.Machine.execInvala qp s
  | .fwb qp => Sys2Proof.Machine.execFwb qp s
  | .srlzD qp => Sys2Proof.Machine.execSrlzD qp s
  | .nopM qp imm => Sys2Proof.Machine.execNopM qp imm s
  | .hintM qp imm => Sys2Proof.Machine.execHintM qp imm s
  | .srlzI qp => Sys2Proof.Machine.execSrlzI qp s
  | .invalaER qp r1 => Sys2Proof.Machine.execInvalaER qp r1 s
  | .mf qp => Sys2Proof.Machine.execMf qp s
  | .invalaEF qp f1 => Sys2Proof.Machine.execInvalaEF qp f1 s
  | .mfA qp => Sys2Proof.Machine.execMfA qp s
  | .syncI qp => Sys2Proof.Machine.execSyncI qp s
  | .sum qp imm => Sys2Proof.Machine.execSum qp imm s
  | .rum qp imm => Sys2Proof.Machine.execRum qp imm s
  | .ssm qp imm => Sys2Proof.Machine.execSsm qp imm s
  | .rsm qp imm => Sys2Proof.Machine.execRsm qp imm s
  | .movArImm qp ar3 imm => Sys2Proof.Machine.execMovArImm qp ar3 imm s
  | .loadrs => Sys2Proof.Machine.execLoadrs s
  | .flushrs => Sys2Proof.Machine.execFlushrs s
  | .chkANcR qp r1 imm => Sys2Proof.Machine.execChkANcR qp r1 imm s
  | .chkAClrR qp r1 imm => Sys2Proof.Machine.execChkAClrR qp r1 imm s
  | .chkANcF qp f1 imm => Sys2Proof.Machine.execChkANcF qp f1 imm s
  | .chkAClrF qp f1 imm => Sys2Proof.Machine.execChkAClrF qp f1 imm s
  | .movToRr qp r3 r2 => Sys2Proof.Machine.execMovToRr qp r3 r2 s
  | .movToDbr qp r3 r2 => Sys2Proof.Machine.execMovToDbr qp r3 r2 s
  | .movToIbr qp r3 r2 => Sys2Proof.Machine.execMovToIbr qp r3 r2 s
  | .movToPkr qp r3 r2 => Sys2Proof.Machine.execMovToPkr qp r3 r2 s
  | .movToPmc qp r3 r2 => Sys2Proof.Machine.execMovToPmc qp r3 r2 s
  | .movToPmd qp r3 r2 => Sys2Proof.Machine.execMovToPmd qp r3 r2 s
  | .movFromRr qp r1 r3 => Sys2Proof.Machine.execMovFromRr qp r1 r3 s
  | .movFromDbr qp r1 r3 => Sys2Proof.Machine.execMovFromDbr qp r1 r3 s
  | .movFromIbr qp r1 r3 => Sys2Proof.Machine.execMovFromIbr qp r1 r3 s
  | .movFromPkr qp r1 r3 => Sys2Proof.Machine.execMovFromPkr qp r1 r3 s
  | .movFromPmc qp r1 r3 => Sys2Proof.Machine.execMovFromPmc qp r1 r3 s
  | .movFromPmd qp r1 r3 => Sys2Proof.Machine.execMovFromPmd qp r1 r3 s
  | .movFromCpuid qp r1 r3 => Sys2Proof.Machine.execMovFromCpuid qp r1 r3 s
  | .ptcL qp r3 r2 => Sys2Proof.Machine.execPtcL qp r3 r2 s
  | .ptcG qp r3 r2 => Sys2Proof.Machine.execPtcG qp r3 r2 s
  | .ptcGa qp r3 r2 => Sys2Proof.Machine.execPtcGa qp r3 r2 s
  | .ptrD qp r3 r2 => Sys2Proof.Machine.execPtrD qp r3 r2 s
  | .ptrI qp r3 r2 => Sys2Proof.Machine.execPtrI qp r3 r2 s
  | .itrD qp r3 r2 => Sys2Proof.Machine.execItrD qp r3 r2 s
  | .itrI qp r3 r2 => Sys2Proof.Machine.execItrI qp r3 r2 s
  | .probeRImm qp r1 r3 imm => Sys2Proof.Machine.execProbeRImm qp r1 r3 imm s
  | .probeWImm qp r1 r3 imm => Sys2Proof.Machine.execProbeWImm qp r1 r3 imm s
  | .thash qp r1 r3 => Sys2Proof.Machine.execThash qp r1 r3 s
  | .ttag qp r1 r3 => Sys2Proof.Machine.execTtag qp r1 r3 s
  | .tpa qp r1 r3 => Sys2Proof.Machine.execTpa qp r1 r3 s
  | .tak qp r1 r3 => Sys2Proof.Machine.execTak qp r1 r3 s
  | .movFromUm qp r1 => Sys2Proof.Machine.execMovFromUm qp r1 s
  | .movFromAr qp r1 ar3 => Sys2Proof.Machine.execMovFromAr qp r1 ar3 s
  | .movFromCr qp r1 cr3 => Sys2Proof.Machine.execMovFromCr qp r1 cr3 s
  | .movFromPsr qp r1 => Sys2Proof.Machine.execMovFromPsr qp r1 s
  | .movToUm qp r2 => Sys2Proof.Machine.execMovToUm qp r2 s
  | .movToAr qp ar3 r2 => Sys2Proof.Machine.execMovToAr qp ar3 r2 s
  | .movToCr qp cr3 r2 => Sys2Proof.Machine.execMovToCr qp cr3 r2 s
  | .movToPsrL qp r2 => Sys2Proof.Machine.execMovToPsrL qp r2 s
  | .itcD qp r2 => Sys2Proof.Machine.execItcD qp r2 s
  | .itcI qp r2 => Sys2Proof.Machine.execItcI qp r2 s
  | .fc qp r3 => Sys2Proof.Machine.execFc qp r3 s
  | .fcI qp r3 => Sys2Proof.Machine.execFcI qp r3 s
  | .probeRwFault qp r3 imm => Sys2Proof.Machine.execProbeRwFault qp r3 imm s
  | .probeRFault qp r3 imm => Sys2Proof.Machine.execProbeRFault qp r3 imm s
  | .probeWFault qp r3 imm => Sys2Proof.Machine.execProbeWFault qp r3 imm s
  | .ptcE qp r3 => Sys2Proof.Machine.execPtcE qp r3 s
  | .probeR qp r1 r3 r2 => Sys2Proof.Machine.execProbeR qp r1 r3 r2 s
  | .probeW qp r1 r3 r2 => Sys2Proof.Machine.execProbeW qp r1 r3 r2 s
  | .chkSM qp r2 imm => Sys2Proof.Machine.execChkSM qp r2 imm s
  | .chkSF qp f2 imm => Sys2Proof.Machine.execChkSF qp f2 imm s
  | .alloc r1 sof sol sor => Sys2Proof.Machine.execAlloc r1 sof sol sor s
  | .breakI qp imm => Sys2Proof.Machine.execBreakI qp imm s
  | .nopI qp imm => Sys2Proof.Machine.execNopI qp imm s
  | .hintI qp imm => Sys2Proof.Machine.execHintI qp imm s
  | .breakB qp imm => Sys2Proof.Machine.execBreakB qp imm s
  | .cover => Sys2Proof.Machine.execCover s
  | .clrrrb => Sys2Proof.Machine.execClrrrb s
  | .clrrrbPr => Sys2Proof.Machine.execClrrrbPr s
  | .rfi => Sys2Proof.Machine.execRfi s
  | .bsw0 => Sys2Proof.Machine.execBsw0 s
  | .bsw1 => Sys2Proof.Machine.execBsw1 s
  | .epc => Sys2Proof.Machine.execEpc s
  | .vmsw0 => Sys2Proof.Machine.execVmsw0 s
  | .vmsw1 => Sys2Proof.Machine.execVmsw1 s
  | .brCond qp b2 p wh d => Sys2Proof.Machine.execBrCond qp b2 p wh d s
  | .brIa b2 p wh d => Sys2Proof.Machine.execBrIa b2 p wh d s
  | .brRet qp b2 p wh d => Sys2Proof.Machine.execBrRet qp b2 p wh d s
  | .nopB qp imm => Sys2Proof.Machine.execNopB qp imm s
  | .hintB qp imm => Sys2Proof.Machine.execHintB qp imm s
  | .ld1 qp r1 r3 hint => Sys2Proof.Machine.execLd1 qp r1 r3 hint s
  | .ld2 qp r1 r3 hint => Sys2Proof.Machine.execLd2 qp r1 r3 hint s
  | .ld4 qp r1 r3 hint => Sys2Proof.Machine.execLd4 qp r1 r3 hint s
  | .ld8 qp r1 r3 hint => Sys2Proof.Machine.execLd8 qp r1 r3 hint s
  | .ld1S qp r1 r3 hint => Sys2Proof.Machine.execLd1S qp r1 r3 hint s
  | .ld2S qp r1 r3 hint => Sys2Proof.Machine.execLd2S qp r1 r3 hint s
  | .ld4S qp r1 r3 hint => Sys2Proof.Machine.execLd4S qp r1 r3 hint s
  | .ld8S qp r1 r3 hint => Sys2Proof.Machine.execLd8S qp r1 r3 hint s
  | .ld1A qp r1 r3 hint => Sys2Proof.Machine.execLd1A qp r1 r3 hint s
  | .ld2A qp r1 r3 hint => Sys2Proof.Machine.execLd2A qp r1 r3 hint s
  | .ld4A qp r1 r3 hint => Sys2Proof.Machine.execLd4A qp r1 r3 hint s
  | .ld8A qp r1 r3 hint => Sys2Proof.Machine.execLd8A qp r1 r3 hint s
  | .ld1Sa qp r1 r3 hint => Sys2Proof.Machine.execLd1Sa qp r1 r3 hint s
  | .ld2Sa qp r1 r3 hint => Sys2Proof.Machine.execLd2Sa qp r1 r3 hint s
  | .ld4Sa qp r1 r3 hint => Sys2Proof.Machine.execLd4Sa qp r1 r3 hint s
  | .ld8Sa qp r1 r3 hint => Sys2Proof.Machine.execLd8Sa qp r1 r3 hint s
  | .ld1Bias qp r1 r3 hint => Sys2Proof.Machine.execLd1Bias qp r1 r3 hint s
  | .ld2Bias qp r1 r3 hint => Sys2Proof.Machine.execLd2Bias qp r1 r3 hint s
  | .ld4Bias qp r1 r3 hint => Sys2Proof.Machine.execLd4Bias qp r1 r3 hint s
  | .ld8Bias qp r1 r3 hint => Sys2Proof.Machine.execLd8Bias qp r1 r3 hint s
  | .ld1Acq qp r1 r3 hint => Sys2Proof.Machine.execLd1Acq qp r1 r3 hint s
  | .ld2Acq qp r1 r3 hint => Sys2Proof.Machine.execLd2Acq qp r1 r3 hint s
  | .ld4Acq qp r1 r3 hint => Sys2Proof.Machine.execLd4Acq qp r1 r3 hint s
  | .ld8Acq qp r1 r3 hint => Sys2Proof.Machine.execLd8Acq qp r1 r3 hint s
  | .ld1CClr qp r1 r3 hint => Sys2Proof.Machine.execLd1CClr qp r1 r3 hint s
  | .ld2CClr qp r1 r3 hint => Sys2Proof.Machine.execLd2CClr qp r1 r3 hint s
  | .ld4CClr qp r1 r3 hint => Sys2Proof.Machine.execLd4CClr qp r1 r3 hint s
  | .ld8CClr qp r1 r3 hint => Sys2Proof.Machine.execLd8CClr qp r1 r3 hint s
  | .ld1CNc qp r1 r3 hint => Sys2Proof.Machine.execLd1CNc qp r1 r3 hint s
  | .ld2CNc qp r1 r3 hint => Sys2Proof.Machine.execLd2CNc qp r1 r3 hint s
  | .ld4CNc qp r1 r3 hint => Sys2Proof.Machine.execLd4CNc qp r1 r3 hint s
  | .ld8CNc qp r1 r3 hint => Sys2Proof.Machine.execLd8CNc qp r1 r3 hint s
  | .ld1CClrAcq qp r1 r3 hint => Sys2Proof.Machine.execLd1CClrAcq qp r1 r3 hint s
  | .ld2CClrAcq qp r1 r3 hint => Sys2Proof.Machine.execLd2CClrAcq qp r1 r3 hint s
  | .ld4CClrAcq qp r1 r3 hint => Sys2Proof.Machine.execLd4CClrAcq qp r1 r3 hint s
  | .ld8CClrAcq qp r1 r3 hint => Sys2Proof.Machine.execLd8CClrAcq qp r1 r3 hint s
  | .ld8Fill qp r1 r3 hint => Sys2Proof.Machine.execLd8Fill qp r1 r3 hint s
  | .st1 qp r2 r3 hint => Sys2Proof.Machine.execSt1 qp r2 r3 hint s
  | .st2 qp r2 r3 hint => Sys2Proof.Machine.execSt2 qp r2 r3 hint s
  | .st4 qp r2 r3 hint => Sys2Proof.Machine.execSt4 qp r2 r3 hint s
  | .st8 qp r2 r3 hint => Sys2Proof.Machine.execSt8 qp r2 r3 hint s
  | .st1Rel qp r2 r3 hint => Sys2Proof.Machine.execSt1Rel qp r2 r3 hint s
  | .st2Rel qp r2 r3 hint => Sys2Proof.Machine.execSt2Rel qp r2 r3 hint s
  | .st4Rel qp r2 r3 hint => Sys2Proof.Machine.execSt4Rel qp r2 r3 hint s
  | .st8Rel qp r2 r3 hint => Sys2Proof.Machine.execSt8Rel qp r2 r3 hint s
  | .st8Spill qp r2 r3 hint => Sys2Proof.Machine.execSt8Spill qp r2 r3 hint s
  | .cmpxchg1Acq qp r1 r2 r3 hint => Sys2Proof.Machine.execCmpxchg1Acq qp r1 r2 r3 hint s
  | .cmpxchg2Acq qp r1 r2 r3 hint => Sys2Proof.Machine.execCmpxchg2Acq qp r1 r2 r3 hint s
  | .cmpxchg4Acq qp r1 r2 r3 hint => Sys2Proof.Machine.execCmpxchg4Acq qp r1 r2 r3 hint s
  | .cmpxchg8Acq qp r1 r2 r3 hint => Sys2Proof.Machine.execCmpxchg8Acq qp r1 r2 r3 hint s
  | .cmpxchg1Rel qp r1 r2 r3 hint => Sys2Proof.Machine.execCmpxchg1Rel qp r1 r2 r3 hint s
  | .cmpxchg2Rel qp r1 r2 r3 hint => Sys2Proof.Machine.execCmpxchg2Rel qp r1 r2 r3 hint s
  | .cmpxchg4Rel qp r1 r2 r3 hint => Sys2Proof.Machine.execCmpxchg4Rel qp r1 r2 r3 hint s
  | .cmpxchg8Rel qp r1 r2 r3 hint => Sys2Proof.Machine.execCmpxchg8Rel qp r1 r2 r3 hint s
  | .xchg1 qp r1 r2 r3 hint => Sys2Proof.Machine.execXchg1 qp r1 r2 r3 hint s
  | .xchg2 qp r1 r2 r3 hint => Sys2Proof.Machine.execXchg2 qp r1 r2 r3 hint s
  | .xchg4 qp r1 r2 r3 hint => Sys2Proof.Machine.execXchg4 qp r1 r2 r3 hint s
  | .xchg8 qp r1 r2 r3 hint => Sys2Proof.Machine.execXchg8 qp r1 r2 r3 hint s
  | .fetchadd4Acq qp r1 inc r3 hint => Sys2Proof.Machine.execFetchadd4Acq qp r1 inc r3 hint s
  | .fetchadd8Acq qp r1 inc r3 hint => Sys2Proof.Machine.execFetchadd8Acq qp r1 inc r3 hint s
  | .fetchadd4Rel qp r1 inc r3 hint => Sys2Proof.Machine.execFetchadd4Rel qp r1 inc r3 hint s
  | .fetchadd8Rel qp r1 inc r3 hint => Sys2Proof.Machine.execFetchadd8Rel qp r1 inc r3 hint s
  | .cmp8xchg16Acq qp r1 r2 r3 hint => Sys2Proof.Machine.execCmp8xchg16Acq qp r1 r2 r3 hint s
  | .cmp8xchg16Rel qp r1 r2 r3 hint => Sys2Proof.Machine.execCmp8xchg16Rel qp r1 r2 r3 hint s
  | .ld16 qp r1 r3 hint => Sys2Proof.Machine.execLd16 qp r1 r3 hint s
  | .ld16Acq qp r1 r3 hint => Sys2Proof.Machine.execLd16Acq qp r1 r3 hint s
  | .st16 qp r2 r3 hint => Sys2Proof.Machine.execSt16 qp r2 r3 hint s
  | .st16Rel qp r2 r3 hint => Sys2Proof.Machine.execSt16Rel qp r2 r3 hint s
  | .lfetch qp r3 hint => Sys2Proof.Machine.execLfetch qp r3 hint s
  | .lfetchExcl qp r3 hint => Sys2Proof.Machine.execLfetchExcl qp r3 hint s
  | .lfetchFault qp r3 hint => Sys2Proof.Machine.execLfetchFault qp r3 hint s
  | .lfetchFaultExcl qp r3 hint => Sys2Proof.Machine.execLfetchFaultExcl qp r3 hint s
  | .ldfe qp f1 r3 hint => Sys2Proof.Machine.execLdfe qp f1 r3 hint s
  | .stfe qp f2 r3 hint => Sys2Proof.Machine.execStfe qp f2 r3 hint s
  | .ldfs qp f1 r3 hint => Sys2Proof.Machine.execLdfs qp f1 r3 hint s
  | .ldfd qp f1 r3 hint => Sys2Proof.Machine.execLdfd qp f1 r3 hint s
  | .ldf8 qp f1 r3 hint => Sys2Proof.Machine.execLdf8 qp f1 r3 hint s
  | .ldfFill qp f1 r3 hint => Sys2Proof.Machine.execLdfFill qp f1 r3 hint s
  | .ldfp qp fmt flav f1 f2 r3 hint => Sys2Proof.Machine.execLdfp qp fmt flav f1 f2 r3 hint s
  | .stfs qp f2 r3 hint => Sys2Proof.Machine.execStfs qp f2 r3 hint s
  | .stfd qp f2 r3 hint => Sys2Proof.Machine.execStfd qp f2 r3 hint s
  | .stf8 qp f2 r3 hint => Sys2Proof.Machine.execStf8 qp f2 r3 hint s
  | .stfSpill qp f2 r3 hint => Sys2Proof.Machine.execStfSpill qp f2 r3 hint s
  | .ldfFlav qp fmt flav f1 r3 hint => Sys2Proof.Machine.execLdfFlav qp fmt flav f1 r3 hint s
  | .memUpd qp op r3 upd hint => Sys2Proof.Machine.execMemUpd qp op r3 upd hint s
  | .breakFX qp form => Sys2Proof.Machine.execBreakFX qp form s
  | .movI qp form => Sys2Proof.Machine.execMovI qp form s
  | .brRel form => Sys2Proof.Machine.execBrRel form s
  | .addp4 qp r1 r2 r3 => Sys2Proof.Machine.execAddp4 qp r1 r2 r3 s
  | .shladdp4 qp r1 r2 ct2d r3 => Sys2Proof.Machine.execShladdp4 qp r1 r2 ct2d r3 s
  | .addp4Imm qp r1 imm r3 => Sys2Proof.Machine.execAddp4Imm qp r1 imm r3 s

end Machine
end Sys2Proof
end

