-- ==== Sys2Proof/Machine/Groups.lean ====
section
/-!
DEFINITION. The registers each instruction reads and writes, and the instructions that must end their group, for the rules of
instruction groups (70_reset_and_hazards.md R560, R561; log entry 38). Registers are told apart by tags: general registers by
number, floating-point registers from 128, application registers from 256, control registers from 512, PSR bits from 640,
region registers from 768, protection keys from 1024, data and instruction breakpoints from 1280 and 1536, performance monitor
configuration and data registers from 1792 and 2048, the bits of AR[UNAT] from 2304, the user mask as data references use it
from 2368; 4096 marks a write that needs serialization. GR0, FR0 and FR1 take no part.
-/
namespace Sys2Proof
namespace Machine

/-- The tag of a general register. -/
def tagG (r : BitVec 7) : List Nat := if r = 0 then [] else [r.toNat]
/-- The tag of a floating-point register. -/
def tagF (f : BitVec 7) : List Nat := if f.toNat < 2 then [] else [128 + f.toNat]
/-- The tag of an application register; that of UNAT is kept per bit (tagU). -/
def tagA (a : Nat) : List Nat := if a = Ar.unat then [] else [256 + a]
/-- The tag of a control register. -/
def tagC (n : Nat) : Nat := 512 + n
/-- The tags of the PSR bits of a mask. -/
def tagsP (mask : Word) : List Nat := ((List.range 64).filter mask.getLsbD).map (640 + ·)
/-- The tag of an indirect register: the file, and the number a general register gives. -/
def tagI (base : Nat) (v : Word) : Nat := base + (v.toNat % 256)
/-- The tag of a bit of AR[UNAT]: a fill and a spill name one bit (43_memory_instructions.md R430, R434; log entry 38). -/
def tagU (n : Nat) : Nat := 2304 + n
/-- The tags of the UNAT bits that a write of an application register writes. -/
def tagsU (a : Nat) : List Nat := if a = Ar.unat then (List.range 64).map tagU else []
/-- The tags of the user mask bits of a mask that govern a data reference, PSR.be and PSR.ac: the side effects of a user mask write
are certain in subsequent groups only (40_psr_instructions.md R332, R338; 70_reset_and_hazards.md R560). -/
def tagsM (mask : Word) : List Nat := ([Psr.be, Psr.ac].filter mask.getLsbD).map (2368 + ·)
/-- The tag of a write that needs serialization. -/
def tagSerial : Nat := 4096

end Machine

open Machine

/-- What a base update reads. -/
def Upd.reads : Upd → List Nat
  | .reg r2 => tagG r2
  | _ => []

/-- What the operation of a base-update form reads. -/
def UpdOp.reads : UpdOp → List Nat
  | .store _ _ r2 => tagG r2
  | .spill r2 => tagG r2
  | .fpStore _ f2 => tagF f2
  | .fpSpill f2 => tagF f2
  | _ => []

/-- What the operation of a base-update form writes. -/
def UpdOp.writes : UpdOp → List Nat
  | .load _ _ r1 => tagG r1
  | .fill r1 => tagG r1
  | .fpLoad _ _ f1 => tagF f1
  | .fpFill f1 => tagF f1
  | .fpPair _ _ f1 f2 => tagF f1 ++ tagF f2
  | _ => []

/-- The registers an instruction reads, as the group rules count them. -/
def Instr.reads : Instr → List Nat
  | .movToRr _ r3 r2 => tagG r3 ++ tagG r2
  | .movToDbr _ r3 r2 => tagG r3 ++ tagG r2
  | .movToIbr _ r3 r2 => tagG r3 ++ tagG r2
  | .movToPkr _ r3 r2 => tagG r3 ++ tagG r2
  | .movToPmc _ r3 r2 => tagG r3 ++ tagG r2
  | .movToPmd _ r3 r2 => tagG r3 ++ tagG r2
  | .movFromRr _ _ r3 => tagG r3
  | .movFromDbr _ _ r3 => tagG r3
  | .movFromIbr _ _ r3 => tagG r3
  | .movFromPkr _ _ r3 => tagG r3
  | .movFromPmc _ _ r3 => tagG r3
  | .movFromPmd _ _ r3 => tagG r3
  | .movFromCpuid _ _ r3 => tagG r3
  | .ptcL _ r3 r2 => tagG r3 ++ tagG r2
  | .ptcG _ r3 r2 => tagG r3 ++ tagG r2
  | .ptcGa _ r3 r2 => tagG r3 ++ tagG r2
  | .ptrD _ r3 r2 => tagG r3 ++ tagG r2
  | .ptrI _ r3 r2 => tagG r3 ++ tagG r2
  | .itrD _ r3 r2 => tagG r3 ++ tagG r2
  | .itrI _ r3 r2 => tagG r3 ++ tagG r2
  | .probeRImm _ _ r3 _ => tagG r3
  | .probeWImm _ _ r3 _ => tagG r3
  | .thash _ _ r3 => tagG r3
  | .ttag _ _ r3 => tagG r3
  | .tpa _ _ r3 => tagG r3
  | .tak _ _ r3 => tagG r3
  | .movFromAr _ _ ar3 => tagA ar3.toNat
  | .movToUm _ r2 => tagG r2
  | .movToAr _ _ r2 => tagG r2
  | .movToCr _ _ r2 => tagG r2
  | .movToPsrL _ r2 => tagG r2
  | .itcD _ r2 => tagG r2
  | .itcI _ r2 => tagG r2
  | .fc _ r3 => tagG r3
  | .fcI _ r3 => tagG r3
  | .probeRwFault _ r3 _ => tagG r3
  | .probeRFault _ r3 _ => tagG r3
  | .probeWFault _ r3 _ => tagG r3
  | .ptcE _ r3 => tagG r3
  | .probeR _ _ r3 r2 => tagG r3 ++ tagG r2
  | .probeW _ _ r3 r2 => tagG r3 ++ tagG r2
  | .chkSM _ r2 _ => tagG r2
  | .chkSF _ f2 _ => tagF f2
  | .ld1 _ _ r3 _ => tagG r3
  | .ld2 _ _ r3 _ => tagG r3
  | .ld4 _ _ r3 _ => tagG r3
  | .ld8 _ _ r3 _ => tagG r3
  | .ld1S _ _ r3 _ => tagG r3
  | .ld2S _ _ r3 _ => tagG r3
  | .ld4S _ _ r3 _ => tagG r3
  | .ld8S _ _ r3 _ => tagG r3
  | .ld1A _ _ r3 _ => tagG r3
  | .ld2A _ _ r3 _ => tagG r3
  | .ld4A _ _ r3 _ => tagG r3
  | .ld8A _ _ r3 _ => tagG r3
  | .ld1Sa _ _ r3 _ => tagG r3
  | .ld2Sa _ _ r3 _ => tagG r3
  | .ld4Sa _ _ r3 _ => tagG r3
  | .ld8Sa _ _ r3 _ => tagG r3
  | .ld1Bias _ _ r3 _ => tagG r3
  | .ld2Bias _ _ r3 _ => tagG r3
  | .ld4Bias _ _ r3 _ => tagG r3
  | .ld8Bias _ _ r3 _ => tagG r3
  | .ld1Acq _ _ r3 _ => tagG r3
  | .ld2Acq _ _ r3 _ => tagG r3
  | .ld4Acq _ _ r3 _ => tagG r3
  | .ld8Acq _ _ r3 _ => tagG r3
  | .ld1CClr _ _ r3 _ => tagG r3
  | .ld2CClr _ _ r3 _ => tagG r3
  | .ld4CClr _ _ r3 _ => tagG r3
  | .ld8CClr _ _ r3 _ => tagG r3
  | .ld1CNc _ _ r3 _ => tagG r3
  | .ld2CNc _ _ r3 _ => tagG r3
  | .ld4CNc _ _ r3 _ => tagG r3
  | .ld8CNc _ _ r3 _ => tagG r3
  | .ld1CClrAcq _ _ r3 _ => tagG r3
  | .ld2CClrAcq _ _ r3 _ => tagG r3
  | .ld4CClrAcq _ _ r3 _ => tagG r3
  | .ld8CClrAcq _ _ r3 _ => tagG r3
  | .ld8Fill _ _ r3 _ => tagG r3
  | .st1 _ r2 r3 _ => tagG r2 ++ tagG r3
  | .st2 _ r2 r3 _ => tagG r2 ++ tagG r3
  | .st4 _ r2 r3 _ => tagG r2 ++ tagG r3
  | .st8 _ r2 r3 _ => tagG r2 ++ tagG r3
  | .st1Rel _ r2 r3 _ => tagG r2 ++ tagG r3
  | .st2Rel _ r2 r3 _ => tagG r2 ++ tagG r3
  | .st4Rel _ r2 r3 _ => tagG r2 ++ tagG r3
  | .st8Rel _ r2 r3 _ => tagG r2 ++ tagG r3
  | .st8Spill _ r2 r3 _ => tagG r2 ++ tagG r3
  | .cmpxchg1Acq _ _ r2 r3 _ => tagG r2 ++ tagG r3 ++ tagA Ar.ccv
  | .cmpxchg2Acq _ _ r2 r3 _ => tagG r2 ++ tagG r3 ++ tagA Ar.ccv
  | .cmpxchg4Acq _ _ r2 r3 _ => tagG r2 ++ tagG r3 ++ tagA Ar.ccv
  | .cmpxchg8Acq _ _ r2 r3 _ => tagG r2 ++ tagG r3 ++ tagA Ar.ccv
  | .cmpxchg1Rel _ _ r2 r3 _ => tagG r2 ++ tagG r3 ++ tagA Ar.ccv
  | .cmpxchg2Rel _ _ r2 r3 _ => tagG r2 ++ tagG r3 ++ tagA Ar.ccv
  | .cmpxchg4Rel _ _ r2 r3 _ => tagG r2 ++ tagG r3 ++ tagA Ar.ccv
  | .cmpxchg8Rel _ _ r2 r3 _ => tagG r2 ++ tagG r3 ++ tagA Ar.ccv
  | .xchg1 _ _ r2 r3 _ => tagG r2 ++ tagG r3
  | .xchg2 _ _ r2 r3 _ => tagG r2 ++ tagG r3
  | .xchg4 _ _ r2 r3 _ => tagG r2 ++ tagG r3
  | .xchg8 _ _ r2 r3 _ => tagG r2 ++ tagG r3
  | .fetchadd4Acq _ _ _ r3 _ => tagG r3
  | .fetchadd8Acq _ _ _ r3 _ => tagG r3
  | .fetchadd4Rel _ _ _ r3 _ => tagG r3
  | .fetchadd8Rel _ _ _ r3 _ => tagG r3
  | .cmp8xchg16Acq _ _ r2 r3 _ => tagG r2 ++ tagG r3 ++ tagA Ar.ccv ++ tagA Ar.csd
  | .cmp8xchg16Rel _ _ r2 r3 _ => tagG r2 ++ tagG r3 ++ tagA Ar.ccv ++ tagA Ar.csd
  | .ld16 _ _ r3 _ => tagG r3
  | .ld16Acq _ _ r3 _ => tagG r3
  | .st16 _ r2 r3 _ => tagG r2 ++ tagG r3 ++ tagA Ar.csd
  | .st16Rel _ r2 r3 _ => tagG r2 ++ tagG r3 ++ tagA Ar.csd
  | .lfetch _ r3 _ => tagG r3
  | .lfetchExcl _ r3 _ => tagG r3
  | .lfetchFault _ r3 _ => tagG r3
  | .lfetchFaultExcl _ r3 _ => tagG r3
  | .ldfe _ _ r3 _ => tagG r3
  | .stfe _ f2 r3 _ => tagF f2 ++ tagG r3
  | .ldfs _ _ r3 _ => tagG r3
  | .ldfd _ _ r3 _ => tagG r3
  | .ldf8 _ _ r3 _ => tagG r3
  | .ldfFill _ _ r3 _ => tagG r3
  | .ldfp _ _ _ _ _ r3 _ => tagG r3
  | .stfs _ f2 r3 _ => tagF f2 ++ tagG r3
  | .stfd _ f2 r3 _ => tagF f2 ++ tagG r3
  | .stf8 _ f2 r3 _ => tagF f2 ++ tagG r3
  | .stfSpill _ f2 r3 _ => tagF f2 ++ tagG r3
  | .ldfFlav _ _ _ _ r3 _ => tagG r3
  | .memUpd _ op r3 upd _ => tagG r3 ++ op.reads ++ upd.reads
  | .movI _ (.toAr _ r2) => tagG r2
  | .movI _ (.fromAr _ ar3) => tagA ar3.toNat
  | .movI _ (.toArImm ..) => []
  | .brRel (.cloop ..) => tagA Ar.lc
  | .brRel _ => []
  | .brRet .. | .epc => tagA Ar.pfs
  | .addp4 _ _ r2 r3 => tagG r2 ++ tagG r3
  | .shladdp4 _ _ r2 _ r3 => tagG r2 ++ tagG r3
  | .addp4Imm _ _ _ r3 => tagG r3
  | .breakM .. | .invala .. | .fwb .. | .srlzD .. | .nopM .. | .hintM .. | .srlzI .. | .invalaER .. | .mf ..
  | .invalaEF .. | .mfA .. | .syncI .. | .sum .. | .rum .. | .ssm .. | .rsm .. | .movArImm .. | .loadrs
  | .flushrs | .chkANcR .. | .chkAClrR .. | .chkANcF .. | .chkAClrF .. | .movFromUm .. | .movFromCr ..
  | .movFromPsr .. | .alloc .. | .breakI .. | .nopI .. | .hintI .. | .breakB .. | .cover | .clrrrb | .clrrrbPr
  | .rfi | .bsw0 | .bsw1 | .vmsw0 | .vmsw1 | .brCond .. | .brIa .. | .nopB .. | .hintB .. | .breakFX .. => []

/-- The registers an instruction writes, as the group rules count them. -/
def Instr.writes : Instr → List Nat
  | .movArImm _ ar3 _ => tagA ar3.toNat
  | .movFromRr _ r1 _ => tagG r1
  | .movFromDbr _ r1 _ => tagG r1
  | .movFromIbr _ r1 _ => tagG r1
  | .movFromPkr _ r1 _ => tagG r1
  | .movFromPmc _ r1 _ => tagG r1
  | .movFromPmd _ r1 _ => tagG r1
  | .movFromCpuid _ r1 _ => tagG r1
  | .probeRImm _ r1 _ _ => tagG r1
  | .probeWImm _ r1 _ _ => tagG r1
  | .thash _ r1 _ => tagG r1
  | .ttag _ r1 _ => tagG r1
  | .tpa _ r1 _ => tagG r1
  | .tak _ r1 _ => tagG r1
  | .movFromUm _ r1 => tagG r1
  | .movFromAr _ r1 _ => tagG r1
  | .movFromCr _ r1 _ => tagG r1
  | .movFromPsr _ r1 => tagG r1
  | .movToAr _ ar3 _ => tagA ar3.toNat
  | .probeR _ r1 _ _ => tagG r1
  | .probeW _ r1 _ _ => tagG r1
  | .alloc r1 _ _ _ => tagG r1
  | .brRet .. => tagA Ar.ec
  | .ld1 _ r1 _ _ => tagG r1
  | .ld2 _ r1 _ _ => tagG r1
  | .ld4 _ r1 _ _ => tagG r1
  | .ld8 _ r1 _ _ => tagG r1
  | .ld1S _ r1 _ _ => tagG r1
  | .ld2S _ r1 _ _ => tagG r1
  | .ld4S _ r1 _ _ => tagG r1
  | .ld8S _ r1 _ _ => tagG r1
  | .ld1A _ r1 _ _ => tagG r1
  | .ld2A _ r1 _ _ => tagG r1
  | .ld4A _ r1 _ _ => tagG r1
  | .ld8A _ r1 _ _ => tagG r1
  | .ld1Sa _ r1 _ _ => tagG r1
  | .ld2Sa _ r1 _ _ => tagG r1
  | .ld4Sa _ r1 _ _ => tagG r1
  | .ld8Sa _ r1 _ _ => tagG r1
  | .ld1Bias _ r1 _ _ => tagG r1
  | .ld2Bias _ r1 _ _ => tagG r1
  | .ld4Bias _ r1 _ _ => tagG r1
  | .ld8Bias _ r1 _ _ => tagG r1
  | .ld1Acq _ r1 _ _ => tagG r1
  | .ld2Acq _ r1 _ _ => tagG r1
  | .ld4Acq _ r1 _ _ => tagG r1
  | .ld8Acq _ r1 _ _ => tagG r1
  | .ld1CClr _ r1 _ _ => tagG r1
  | .ld2CClr _ r1 _ _ => tagG r1
  | .ld4CClr _ r1 _ _ => tagG r1
  | .ld8CClr _ r1 _ _ => tagG r1
  | .ld1CNc _ r1 _ _ => tagG r1
  | .ld2CNc _ r1 _ _ => tagG r1
  | .ld4CNc _ r1 _ _ => tagG r1
  | .ld8CNc _ r1 _ _ => tagG r1
  | .ld1CClrAcq _ r1 _ _ => tagG r1
  | .ld2CClrAcq _ r1 _ _ => tagG r1
  | .ld4CClrAcq _ r1 _ _ => tagG r1
  | .ld8CClrAcq _ r1 _ _ => tagG r1
  | .ld8Fill _ r1 _ _ => tagG r1
  | .cmpxchg1Acq _ r1 _ _ _ => tagG r1
  | .cmpxchg2Acq _ r1 _ _ _ => tagG r1
  | .cmpxchg4Acq _ r1 _ _ _ => tagG r1
  | .cmpxchg8Acq _ r1 _ _ _ => tagG r1
  | .cmpxchg1Rel _ r1 _ _ _ => tagG r1
  | .cmpxchg2Rel _ r1 _ _ _ => tagG r1
  | .cmpxchg4Rel _ r1 _ _ _ => tagG r1
  | .cmpxchg8Rel _ r1 _ _ _ => tagG r1
  | .xchg1 _ r1 _ _ _ => tagG r1
  | .xchg2 _ r1 _ _ _ => tagG r1
  | .xchg4 _ r1 _ _ _ => tagG r1
  | .xchg8 _ r1 _ _ _ => tagG r1
  | .fetchadd4Acq _ r1 _ _ _ => tagG r1
  | .fetchadd8Acq _ r1 _ _ _ => tagG r1
  | .fetchadd4Rel _ r1 _ _ _ => tagG r1
  | .fetchadd8Rel _ r1 _ _ _ => tagG r1
  | .cmp8xchg16Acq _ r1 _ _ _ => tagG r1
  | .cmp8xchg16Rel _ r1 _ _ _ => tagG r1
  | .ld16 _ r1 _ _ => tagG r1 ++ tagA Ar.csd
  | .ld16Acq _ r1 _ _ => tagG r1 ++ tagA Ar.csd
  | .ldfe _ f1 _ _ => tagF f1
  | .ldfs _ f1 _ _ => tagF f1
  | .ldfd _ f1 _ _ => tagF f1
  | .ldf8 _ f1 _ _ => tagF f1
  | .ldfFill _ f1 _ _ => tagF f1
  | .ldfp _ _ _ f1 f2 _ _ => tagF f1 ++ tagF f2
  | .ldfFlav _ _ _ f1 _ _ => tagF f1
  | .memUpd _ op r3 _ _ => op.writes ++ tagG r3
  | .movI _ (.toAr ar3 _) => tagA ar3.toNat
  | .movI _ (.fromAr r1 _) => tagG r1
  | .movI _ (.toArImm ar3 _) => tagA ar3.toNat
  | .brRel (.cloop ..) => tagA Ar.lc
  | .brRel _ => []
  | .addp4 _ r1 _ _ => tagG r1
  | .shladdp4 _ r1 _ _ _ => tagG r1
  | .addp4Imm _ r1 _ _ => tagG r1
  | .breakM .. | .invala .. | .fwb .. | .srlzD .. | .nopM .. | .hintM .. | .srlzI .. | .invalaER .. | .mf ..
  | .invalaEF .. | .mfA .. | .syncI .. | .sum .. | .rum .. | .ssm .. | .rsm .. | .loadrs | .flushrs
  | .chkANcR .. | .chkAClrR .. | .chkANcF .. | .chkAClrF .. | .movToRr .. | .movToDbr .. | .movToIbr ..
  | .movToPkr .. | .movToPmc .. | .movToPmd .. | .ptcL .. | .ptcG .. | .ptcGa .. | .ptrD .. | .ptrI ..
  | .itrD .. | .itrI .. | .movToUm .. | .movToCr .. | .movToPsrL .. | .itcD .. | .itcI .. | .fc .. | .fcI ..
  | .probeRwFault .. | .probeRFault .. | .probeWFault .. | .ptcE .. | .chkSM .. | .chkSF .. | .breakI ..
  | .nopI .. | .hintI .. | .breakB .. | .cover | .clrrrb | .clrrrbPr | .rfi | .bsw0 | .bsw1 | .epc | .vmsw0
  | .vmsw1 | .brCond .. | .brIa .. | .nopB .. | .hintB .. | .st1 .. | .st2 .. | .st4 .. | .st8 .. | .st1Rel ..
  | .st2Rel .. | .st4Rel .. | .st8Rel .. | .st8Spill .. | .st16 .. | .st16Rel .. | .lfetch .. | .lfetchExcl ..
  | .lfetchFault .. | .lfetchFaultExcl .. | .stfe .. | .stfs .. | .stfd .. | .stf8 .. | .stfSpill ..
  | .breakFX .. => []

/-- The instructions that must end their group (70_reset_and_hazards.md R561). -/
def Instr.mustEndGroup : Instr → Bool
  | .rfi => true
  | .bsw0 => true
  | .bsw1 => true
  | .cover => true
  | .brIa .. => true
  | .clrrrb => true
  | .clrrrbPr => true
  | _ => false

/-- The addresses whose region registers an instruction reads as its operands: those that the inserts, purges, thash and ttag name
(42_translation_instructions.md R390, R391, R398, R399). -/
def Instr.regionAddrs (s : State) : Instr → List Word
  | .itcD .. | .itcI .. | .itrD .. | .itrI .. => [s.impliedCr 20]
  | .ptcL _ r3 _ | .ptcG _ r3 _ | .ptcGa _ r3 _ | .ptrD _ r3 _ | .ptrI _ r3 _ => [s.val r3]
  | .thash _ _ r3 | .ttag _ _ r3 => [s.val r3]
  | _ => []

/-- The control registers an instruction reads that need an explicit serialization first (11_state_control_registers.md R82;
PTA: 42_translation_instructions.md R398; a read of IVR takes TPR and what EOI ended into account: 60_exceptions.md R511). -/
def Instr.crReads : Instr → List Nat
  | .movFromCr _ _ cr3 => if cr3.toNat = 65 then [65, 66, 67] else [cr3.toNat]
  | .thash .. => [8]
  | _ => []

/-- The control registers that rfi and the inserts take from the groups before (11_state_control_registers.md R82 note d,
70_reset_and_hazards.md R560 (c)). -/
def Instr.crImplied : Instr → List Nat
  | .rfi => [16, 19, 23]
  | .itcD .. | .itcI .. | .itrD .. | .itrI .. => [20, 21]
  | _ => []

/-- The tag of the region register of an address. -/
def tagR (va : Word) : Nat := 768 + (vrnOf va).toNat

/-- The other system registers an instruction reads as its operands, and the UNAT bit a fill reads; a move from UNAT is one of the
allowed cases of 70_reset_and_hazards.md R560. -/
def Instr.fileReads (s : State) : Instr → List Nat
  | .ld8Fill _ _ r3 _ => [tagU (unatBit (s.val r3))]
  | .memUpd _ (.fill _) r3 _ _ => [tagU (unatBit (s.val r3))]
  | .movFromPsr .. => tagsP readableMask
  | .movFromUm .. => tagsP userMask
  | .movFromRr _ _ r3 => [tagR (s.val r3)]
  | .movFromPkr _ _ r3 => [tagI 1024 (s.val r3)]
  | .movFromDbr _ _ r3 => [tagI 1280 (s.val r3)]
  | .movFromIbr _ _ r3 => [tagI 1536 (s.val r3)]
  | .movFromPmc _ _ r3 => [tagI 1792 (s.val r3)]
  | .movFromPmd _ _ r3 => [tagI 2048 (s.val r3)]
  | _ => []

/-- The system registers and UNAT bits an instruction writes, as the group rules count them. A translation inserted or purged is none: which
translation instructions may not share a group is not in the source (30_encoding.md R318), so any may, and they run in slot order
(DESIGN CHOICE, log entry 38). -/
def Instr.sysWrites (s : State) : Instr → List Nat
  | .movToAr _ ar3 _ | .movArImm _ ar3 _ | .movI _ (.toAr ar3 _) | .movI _ (.toArImm ar3 _) => tagsU ar3.toNat
  | .st8Spill _ _ r3 _ => [tagU (unatBit (s.val r3))]
  | .memUpd _ (.spill _) r3 _ _ => [tagU (unatBit (s.val r3))]
  | .movToCr _ cr3 _ => [tagC cr3.toNat]
  | .cover => [tagC 23]
  | .ssm _ imm => tagsP (imm.setWidth 64)
  | .rsm _ imm => tagsP (imm.setWidth 64)
  | .sum _ imm => tagsP (imm.setWidth 64) ++ tagsM (imm.setWidth 64)
  | .rum _ imm => tagsP (imm.setWidth 64) ++ tagsM (imm.setWidth 64)
  | .movToUm .. => tagsP userMask ++ tagsM userMask
  | .movToPsrL .. => tagsP lowerMask
  | .movToRr _ r3 _ => [tagR (s.val r3)]
  | .movToPkr _ r3 _ => [tagI 1024 (s.val r3)]
  | .movToDbr _ r3 _ => [tagI 1280 (s.val r3)]
  | .movToIbr _ r3 _ => [tagI 1536 (s.val r3)]
  | .movToPmc _ r3 _ => [tagI 1792 (s.val r3)]
  | .movToPmd _ r3 _ => [tagI 2048 (s.val r3)]
  | _ => []

/-- The writers of resources that need an explicit serialization (70_reset_and_hazards.md R551, R553). -/
def Instr.needsSerialization : Instr → Bool
  | .movToCr .. | .ssm .. | .rsm .. | .movToPsrL .. | .movToRr .. | .movToPkr .. | .movToDbr .. | .movToIbr ..
  | .movToPmc .. | .movToPmd .. | .itcD .. | .itcI .. | .itrD .. | .itrI .. | .ptcL .. | .ptcG .. | .ptcGa ..
  | .ptcE .. | .ptrD .. | .ptrI .. => true
  | .movToAr _ ar3 _ => decide (ar3.toNat = Ar.itc)
  | .movArImm _ ar3 _ => decide (ar3.toNat = Ar.itc)
  | _ => false

/-- The serialization instructions. -/
def Instr.serializes : Instr → Bool
  | .srlzD _ => true
  | .srlzI _ => true
  | _ => false

/-- The address an instruction references or translates: loads, stores, semaphores, fc, the faulting prefetches, probe, tpa and
tak. -/
def Instr.dataAddr (s : State) : Instr → Option Word
  | .ld1 _ _ r3 _ | .ld2 _ _ r3 _ | .ld4 _ _ r3 _ | .ld8 _ _ r3 _ | .ld1S _ _ r3 _ | .ld2S _ _ r3 _ | .ld4S _ _ r3 _
  | .ld8S _ _ r3 _ | .ld1A _ _ r3 _ | .ld2A _ _ r3 _ | .ld4A _ _ r3 _ | .ld8A _ _ r3 _ | .ld1Sa _ _ r3 _ | .ld2Sa _ _ r3 _
  | .ld4Sa _ _ r3 _ | .ld8Sa _ _ r3 _ | .ld1Bias _ _ r3 _ | .ld2Bias _ _ r3 _ | .ld4Bias _ _ r3 _ | .ld8Bias _ _ r3 _
  | .ld1Acq _ _ r3 _ | .ld2Acq _ _ r3 _ | .ld4Acq _ _ r3 _ | .ld8Acq _ _ r3 _ | .ld1CClr _ _ r3 _ | .ld2CClr _ _ r3 _
  | .ld4CClr _ _ r3 _ | .ld8CClr _ _ r3 _ | .ld1CNc _ _ r3 _ | .ld2CNc _ _ r3 _ | .ld4CNc _ _ r3 _ | .ld8CNc _ _ r3 _
  | .ld1CClrAcq _ _ r3 _ | .ld2CClrAcq _ _ r3 _ | .ld4CClrAcq _ _ r3 _ | .ld8CClrAcq _ _ r3 _ | .ld8Fill _ _ r3 _
  | .ld16 _ _ r3 _ | .ld16Acq _ _ r3 _ | .ldfe _ _ r3 _ | .ldfs _ _ r3 _ | .ldfd _ _ r3 _ | .ldf8 _ _ r3 _
  | .ldfFill _ _ r3 _ | .ldfFlav _ _ _ _ r3 _ | .ldfp _ _ _ _ _ r3 _ => some (s.val r3)
  | .st1 _ _ r3 _ | .st2 _ _ r3 _ | .st4 _ _ r3 _ | .st8 _ _ r3 _ | .st1Rel _ _ r3 _ | .st2Rel _ _ r3 _ | .st4Rel _ _ r3 _
  | .st8Rel _ _ r3 _ | .st8Spill _ _ r3 _ | .st16 _ _ r3 _ | .st16Rel _ _ r3 _ | .stfe _ _ r3 _ | .stfs _ _ r3 _
  | .stfd _ _ r3 _ | .stf8 _ _ r3 _ | .stfSpill _ _ r3 _ => some (s.val r3)
  | .memUpd _ (.lfetch false _) _ _ _ => none
  | .memUpd _ _ r3 _ _ => some (s.val r3)
  | .cmpxchg1Acq _ _ _ r3 _ | .cmpxchg2Acq _ _ _ r3 _ | .cmpxchg4Acq _ _ _ r3 _ | .cmpxchg8Acq _ _ _ r3 _
  | .cmpxchg1Rel _ _ _ r3 _ | .cmpxchg2Rel _ _ _ r3 _ | .cmpxchg4Rel _ _ _ r3 _ | .cmpxchg8Rel _ _ _ r3 _
  | .xchg1 _ _ _ r3 _ | .xchg2 _ _ _ r3 _ | .xchg4 _ _ _ r3 _ | .xchg8 _ _ _ r3 _ | .cmp8xchg16Acq _ _ _ r3 _
  | .cmp8xchg16Rel _ _ _ r3 _ | .fetchadd4Acq _ _ _ r3 _ | .fetchadd8Acq _ _ _ r3 _ | .fetchadd4Rel _ _ _ r3 _
  | .fetchadd8Rel _ _ _ r3 _ => some (s.val r3)
  | .fc _ r3 | .fcI _ r3 | .lfetchFault _ r3 _ | .lfetchFaultExcl _ r3 _ | .probeRwFault _ r3 _ | .probeRFault _ r3 _
  | .probeWFault _ r3 _ => some (s.val r3)
  | .probeRImm _ _ r3 _ | .probeWImm _ _ r3 _ | .probeR _ _ r3 _ | .probeW _ _ r3 _ | .tpa _ _ r3 | .tak _ _ r3 =>
    some (s.val r3)
  | _ => none

/-- The instruction brings or stores data, by PSR.be and PSR.ac (20_memory.md R141, R143): a load, store or semaphore. -/
def Instr.movesData (s : State) : Instr → Bool
  | .fc .. | .fcI .. | .lfetchFault .. | .lfetchFaultExcl .. | .probeRwFault .. | .probeRFault .. | .probeWFault .. => false
  | .probeRImm .. | .probeWImm .. | .probeR .. | .probeW .. | .tpa .. | .tak .. => false
  | .memUpd _ (.lfetch ..) _ _ _ => false
  | i => (i.dataAddr s).isSome

/-- The system registers an instruction reads as its operands, and the user mask a load, store or semaphore goes by, as the group
rules count them. -/
def Instr.sysReads (s : State) (i : Instr) : List Nat :=
  (i.crReads ++ i.crImplied).map tagC ++ (i.regionAddrs s).map tagR ++ i.fileReads s ++
    if i.movesData s then tagsM userMask else []

/-- The bits of a PSR that an instruction's own rules read, its reference apart (10_state.md R37). -/
def Instr.psrUses : Instr → List Nat
  | .brRel (.brp _) => []
  | .brCond .. | .brRet .. | .brRel _ => [Psr.lp, Psr.tb]
  | .brIa .. => [Psr.di, Psr.ic, Psr.dt, Psr.tb]
  | .chkANcR .. | .chkAClrR .. | .chkANcF .. | .chkAClrF .. | .chkSM .. | .chkSF .. => [Psr.tb]
  | .movFromAr _ _ ar3 => if ar3.toNat = Ar.itc then [Psr.si] else []
  | .sum .. | .rum .. | .movToUm .. | .movFromPmd .. => [Psr.sp]
  | .itcD .. | .itcI .. | .itrD .. | .itrI .. | .cover => [Psr.ic]
  | .movToCr _ cr3 _ | .movFromCr _ _ cr3 => if 16 ≤ cr3.toNat ∧ cr3.toNat ≤ 25 then [Psr.ic] else []
  | _ => []

/-- The instruction has a floating-point operand, which PSR.dfl and PSR.dfh enable (10_state.md R50, R51). -/
def Instr.usesFp (i : Instr) : Bool := (i.reads ++ i.writes).any fun t => decide (128 ≤ t) && decide (t < 256)

/-- Bits of a list differ between two words. -/
def bitsDiffer (l : List Nat) (v w : Word) : Bool := l.any fun n => bit v n != bit w n

/-- What a walk of the VHPT for an address reads differs between two views of the resources: PTA, DCR.be, with the long format
every region register, and, where the walker is enabled, the mapping of the table's page, its key and the data breakpoints
(21_memory_translation.md R267, R270 to R272). -/
def Machine.Sys.walkDiffers (va : Word) (y z : Sys) : Bool :=
  let pta := z.getCr 8
  let a := vhptAddr pta (z.rrOf va) va
  y.rrOf va != z.rrOf va || y.getCr 8 != pta || bitsDiffer [Psr.dt] y.psr z.psr ||
    (ptaVe pta && rrVe (z.rrOf va) && bit z.psr Psr.dt &&
      (bit (y.getCr 0) 1 != bit (z.getCr 0) 1 || (ptaVf pta && decide (y.rr ≠ z.rr)) || y.rrOf a != z.rrOf a ||
        decide (y.lookup .data (rrRid (y.rrOf a)) a ≠ z.lookup .data (rrRid (z.rrOf a)) a) ||
        bitsDiffer [Psr.pk, Psr.db] y.psr z.psr || (bit z.psr Psr.pk && decide (y.pkr ≠ z.pkr)) ||
        (bit z.psr Psr.db && decide (y.dbr ≠ z.dbr))))

/-- What a data reference of an address depends on differs between two views of the resources: the PSR bits, with breakpoints on
the breakpoint registers, with translation on the region register, the translation found (where none is found, what a walk
reads) and the protection keys (70_reset_and_hazards.md R556). -/
def Machine.Sys.refDiffers (va : Word) (y z : Sys) : Bool :=
  bitsDiffer [Psr.be, Psr.ac, Psr.pk, Psr.dt, Psr.db] y.psr z.psr || (bit z.psr Psr.db && decide (y.dbr ≠ z.dbr)) ||
    (bit z.psr Psr.dt &&
      (y.rrOf va != z.rrOf va || decide (y.lookup .data (rrRid (y.rrOf va)) va ≠ z.lookup .data (rrRid (z.rrOf va)) va) ||
        ((z.lookup .data (rrRid (z.rrOf va)) va).isEmpty && y.walkDiffers va z) ||
        (bit z.psr Psr.pk && decide (y.pkr ≠ z.pkr))))

/-- What the fetch of an instruction at an address and level depends on differs between two views of the resources: an
instruction breakpoint, and with translation the region, the translation found (where none is found, PSR.ic and what a walk
reads) and the protection keys (70_reset_and_hazards.md R551). -/
def Machine.Sys.fetchDiffers (ip : Word) (cpl : BitVec 2) (y z : Sys) : Bool :=
  (bitsDiffer [Psr.db] y.psr z.psr && (Config.instrBreak y.ibr.toList ip cpl || Config.instrBreak z.ibr.toList ip cpl)) ||
    (bit z.psr Psr.db && decide (y.ibr ≠ z.ibr)) ||
    (bit z.psr Psr.it &&
      (rrRid (y.rrOf ip) != rrRid (z.rrOf ip) ||
        decide (y.lookup .instr (rrRid (y.rrOf ip)) ip ≠ z.lookup .instr (rrRid (z.rrOf ip)) ip) ||
        ((z.lookup .instr (rrRid (z.rrOf ip)) ip).isEmpty && (bitsDiffer [Psr.ic] y.psr z.psr || y.walkDiffers ip z)) ||
        bitsDiffer [Psr.pk] y.psr z.psr || (bit z.psr Psr.pk && decide (y.pkr ≠ z.pkr))))

/-- The physical addresses a data reference may go to: its own, or those of the translations found. -/
def Machine.State.refPages (s : State) (va : Word) : List (Nat × Attr) :=
  if bit s.sys.psr Psr.dt then (s.sys.lookup .data (rrRid (s.sys.rrOf va)) va).map fun e => (e.pa va, attrOf e.ma)
  else [(va.toNat % 2 ^ 63, if bit va 63 then .uc else .wbl)]

/-- The 8-byte stores, which send interrupt messages in the Processor Interrupt Block (60_exceptions.md R513). -/
def Instr.storesEight : Instr → Bool
  | .st8 .. | .st8Rel .. | .st8Spill .. | .stfd .. | .stf8 .. => true
  | .memUpd _ (.store size _ _) _ _ _ => decide (size = 3)
  | .memUpd _ (.spill _) _ _ _ => true
  | .memUpd _ (.fpStore fmt _) _ _ _ => decide (fmt = .double) || decide (fmt = .int8)
  | _ => false

/-- The instruction sends an interrupt message, which compares its address with LID (60_exceptions.md R513; log entry 22). -/
def Instr.sendsMessage (s : State) (i : Instr) : Bool :=
  i.storesEight &&
    match i.dataAddr s with
    | some va => (s.refPages va).any fun p => (pibOffset p.2 p.1).any fun o => decide (o < 0x100000)
    | none => false

/-- The instruction's own effect is an interruption. -/
def Instr.interrupts : Instr → Bool
  | .breakM .. | .breakI .. | .breakB .. | .breakFX .. => true
  | _ => false

/-- What an interruption reads differs: IVA, DCR.pp and DCR.be, PSR.ic (70_reset_and_hazards.md R556). -/
def Machine.Sys.interruptionDiffers (y z : Sys) : Bool :=
  y.getCr 2 != z.getCr 2 || bitsDiffer [0, 1] (y.getCr 0) (z.getCr 0) || bitsDiffer [Psr.ic] y.psr z.psr

/-- The instruction reads AR[ITC] (41_cr_and_serialization_instructions.md R362). -/
def Instr.readsItc : Instr → Bool
  | .movFromAr _ _ ar3 => decide (ar3.toNat = Ar.itc)
  | _ => false

/-- The speculative loads, which read PSR.ic and the deferral bits of DCR (11_state_control_registers.md R88). -/
def Instr.speculates : Instr → Bool
  | .ld1S .. | .ld2S .. | .ld4S .. | .ld8S .. | .ld1Sa .. | .ld2Sa .. | .ld4Sa .. | .ld8Sa .. => true
  | .memUpd _ (.load _ fl _) _ _ _ => decide (fl = .s) || decide (fl = .sa)
  | .memUpd _ (.fpLoad _ fl _) _ _ _ => decide (fl = .s) || decide (fl = .sa)
  | .memUpd _ (.fpPair _ fl _ _) _ _ _ => decide (fl = .s) || decide (fl = .sa)
  | .ldfFlav _ _ fl _ _ _ => decide (fl = .s) || decide (fl = .sa)
  | .ldfp _ _ fl _ _ _ _ => decide (fl = .s) || decide (fl = .sa)
  | _ => false

/-- What decides a deferral differs: PSR.ic, or a deferral bit of DCR, 14:8 (11_state_control_registers.md R84, R88). -/
def Machine.Sys.deferralDiffers (y z : Sys) : Bool :=
  bit y.psr Psr.ic != bit z.psr Psr.ic || decide ((y.getCr 0).extractLsb' 8 7 ≠ (z.getCr 0).extractLsb' 8 7)

/-- The instruction depends on a resource in flight: a control or region register, PSR bit or in-service interrupt it reads, ITC,
LID or the interruption's registers where it uses them, what governs its reference, or what decides whether it defers. -/
def Instr.dependsOn (s : State) (i : Instr) (y : Sys) : Bool :=
  (i.crReads.any fun n => y.getCr n != s.sys.getCr n) ||
  ((i.regionAddrs s).any fun va => y.rrOf va != s.sys.rrOf va) ||
  bitsDiffer (i.psrUses ++ if i.usesFp then [Psr.dfl, Psr.dfh] else []) y.psr s.sys.psr ||
  (i.crReads.contains 65 && decide (y.inService ≠ s.sys.inService)) || (i.speculates && y.deferralDiffers s.sys) ||
  (i.readsItc && y.itc != s.sys.itc) || (i.sendsMessage s && y.getCr 64 != s.sys.getCr 64) ||
  (i.interrupts && y.interruptionDiffers s.sys) ||
  match i.dataAddr s with
  | some va => y.refDiffers va s.sys
  | none => false

/-- The next fetch depends on a resource in flight, in the group of the srlz.i that serializes it: whatever the fetch finds, and
whatever the predicate of the instruction, its group breaks the rule (70_reset_and_hazards.md R560 (a)). -/
def Machine.State.fetchesEarly (s : State) : Bool :=
  s.srlzI && s.fetchOld.any fun y => y.fetchDiffers s.ip s.cpl s.sys

/-- An instruction that depends on a resource in flight, in the group of the srlz.i that serializes it
(70_reset_and_hazards.md R560 (a)). A break takes IVA as the fetch consumer sees it. -/
def Instr.readsEarly (s : State) (i : Instr) : Bool :=
  s.srlzI &&
    ((s.dataOld.any fun y => i.dependsOn s y) || (s.fetchOld.any fun y => i.interrupts && y.interruptionDiffers s.sys))

/-- What an instruction adds to the registers its group has written. -/
def Instr.tagsWritten (s : State) (i : Instr) : List Nat :=
  i.writes ++ i.sysWrites s ++ (if i.needsSerialization then [tagSerial] else [])

/-- The instruction breaks the rules of its group: it reads or writes a register the group has written, serializes a write of
the group, or depends on the group's srlz.i (70_reset_and_hazards.md R560). -/
def Instr.breaksGroup (s : State) (i : Instr) : Bool :=
  (i.reads ++ i.writes ++ i.sysReads s ++ i.sysWrites s).any (fun r => s.groupRegs.contains r) ||
    (i.serializes && s.groupRegs.contains tagSerial) || i.readsEarly s

end Sys2Proof
end

