-- ==== Sys2Proof/Machine/Fetch.lean ====
section
/-!
DEFINITION. Fetching a bundle and what stands before an instruction's own meaning: the instruction-side faults, the fetch view
of memory, reserved templates and encodings, the rules of instruction groups (21_memory_translation.md R280, R284;
20_memory.md R158, R164; 30_encoding.md R301 to R317; 70_reset_and_hazards.md R560, R561; log entries 8, 17, 38).
-/
namespace Sys2Proof
namespace Machine

/-- A byte as the fetch sees it: memory's, or one it held before (20_memory.md R164). -/
def State.fetchByte (s : State) (a : Nat) : Byte :=
  pick (readByte s.mem a) (staleValues s.stale a) (Config.freeNat (.fetchByte a) s.tick)

/-- n bytes as the fetch sees them. -/
def State.fetchBytes (s : State) (a : Nat) : Nat → List Byte
  | 0 => []
  | n + 1 => s.fetchByte a :: s.fetchBytes (a + 1) n

/-- The bundle at a physical address, little-endian whatever PSR.be says (20_memory.md R141). -/
def State.fetchBundle (s : State) (pa : Nat) : Bundle :=
  if unpopulated s.holes pa 16 then
    BitVec.ofNat 128 ((Config.freeWord .unpopulated s.tick).toNat + 2 ^ 64 * (Config.freeWord .unpopulatedHigh s.tick).toNat)
  else BitVec.ofNat 128 (leVal (s.fetchBytes pa 16))

/-- An instruction-side fault of the translation: x = 1, IFA is the bundle address (60_exceptions.md R483 to R492). -/
def instrExc (s : State) (off : Word) (code : BitVec 16) (itir iha : Option Word) : Exc :=
  { off := off, code := code, x := true, ifa := some s.ip, itir := itir, iha := iha }

/-- The region register that ITIR of an instruction-side fault reports, read on its own (10_state.md R64). -/
def State.fetchFaultRr (s : State) (va : Word) : Word := rd (s.fview (.fRr 400 (vrnOf va).toNat)).rr (vrnOf va).toNat 0

/-- IHA of an instruction-side miss, from reads of its own (10_state.md R64, 60_exceptions.md R501). -/
def State.fetchFaultIha (s : State) (va : Word) : Option Word :=
  ihaOf s.vm (s.fcr 8 401) (rd (s.fview (.fRr 401 (vrnOf va).toNat)).rr (vrnOf va).toNat 0) va

/-- The instruction-side checks of a found translation, in order (21_memory_translation.md R284). -/
def instrFaults (s : State) (v : TransView) (e : TlbEntry) : List (Bool × Exc) :=
  let rr := s.fetchFaultRr s.ip
  let itir := some (defaultItir rr)
  let keys := matchingPkrs v.pkr e.key
  [(!e.p, instrExc s 0x5000 0 itir none),
   (decide (e.ma = 7), instrExc s 0x5600 0x20 itir none),
   (v.pk && keys.isEmpty, instrExc s 0x1800 0 (some ((defaultItir rr &&& 0xFC) ||| ((e.key.setWidth 64) <<< 8))) none),
   (v.pk && keys.any (fun w => pkrDisables w .x), instrExc s 0x5100 0 itir none),
   (!rights e.ar e.pl s.cpl .x, instrExc s 0x5200 0 itir none),
   (!e.a && !s.psrNow Psr.ia, instrExc s 0x2400 0 itir none)]

/-- The Instruction Debug check; IFA is not listed for it (60_exceptions.md R493, R501; log entries 25, 32). -/
def instrDebug (s : State) (v : TransView) : Bool × Exc :=
  (v.db && !s.psrNow Psr.id &&
      Config.instrBreak (pickFile s.sys s.fetchOld (·.ibr) (.fIbr 0) s.tick).toList s.ip s.cpl,
   { off := 0x5900, x := true })

/-- The address of the bundle found: go on, or take the instruction-side fault (21_memory_translation.md R280). A fetch that
depends on what its group's srlz.i is to serialize is refused before it, whatever it would find (70_reset_and_hazards.md
R560 (a)). -/
def withInstrAddress (s : State) (k : Nat → Attr → State → Out) : Out :=
  let v := s.fetchView 0
  if unimplInstr s s.ip then deliver { s with ctx := Ctx.none } excUnimplInstr (uiaIip s s.ip) s.slot s.slot
  else if s.fetchesEarly then .refused .dependencyViolation
  else if !s.psrNow Psr.it then
    let s0 : State := { s with ctx := Ctx.none }
    guarded s0 [instrDebug s v] (k (s.ip.toNat % 2 ^ 63) (if bit s.ip 63 then .uc else .wbl) s0)
  else
    let itir := some (defaultItir (s.fetchFaultRr s.ip))
    let s0 : State := { s with ctx := Ctx.none }
    match searchTlb s0 v (s.fetchView 100) .instr s.ip with
    | .refuse r => .refused r
    | .alternate => raise s0 (instrExc s 0x0C00 0 itir (if Config.altMissWritesIha then s.fetchFaultIha s.ip else none))
    | .vhptFault a => raise s0 (instrExc s 0x0000 0 (some (defaultItir (s.fetchFaultRr a))) (some a))
    | .miss s' => raise s' (instrExc s 0x0400 0 itir (s.fetchFaultIha s.ip))
    | .found e s' =>
      let s1 : State := { s' with ctx := { Ctx.none with translated := true, ed := e.ed, ar := e.ar, pl := e.pl } }
      guarded s1 (instrFaults s v e ++ [instrDebug s v]) (k (e.pa s.ip) (attrOf e.ma) s1)

/-- The rules of the group an instruction stands in: refuse, or record what it writes. -/
def withGroup (i : Instr) (qp : BitVec 6) (s : State) (k : State → Out) : Out :=
  if i.mustEndGroup && !s.ctx.stopAfter then .refused .lastInGroup
  else if s.pred qp then
    if i.breaksGroup s then .refused .dependencyViolation
    else k { s with groupRegs := i.tagsWritten s ++ s.groupRegs }
  else k s

/-- What follows the fetch: reserved templates and encodings, instructions outside the spec, the group's rules, then the
instruction (30_encoding.md R305, R317; log entry 17). -/
def withDecoded (b : Bundle) (s : State) (k : Instr → State → Out) : Out :=
  match decodeBundleSlot b s.slot.toNat with
  | none => raise s excIllegalOperation
  | some info =>
    let s1 : State := { s with ctx := { s.ctx with mlx := info.mlx, stopAfter := info.stop } }
    if info.mlxTail then raise s1 excIllegalOperation
    else
      let live := s1.pred info.qp
      match info.result with
      | .ok i => withGroup i info.qp s1 (k i)
      | .error .reserved => if live || decide (info.unit = .b) then raise s1 excIllegalOperation else finish s1 s1
      | .error .outside => if live then .refused .outsideSpec else finish s1 s1

/-- FETCHING THE NEXT INSTRUCTION and handing it on (10_state.md R31; 40_psr_instructions.md R343 for slot 3); a fetch
uses its lines with the coherence class of its page (20_memory.md R162, R211; log entry 56). -/
def withFetched (s : State) (k : Instr → State → Out) : Out :=
  withInstrAddress s fun pa attr s1 =>
    if s1.slot = 3 then .refused .reservedRestartSlot
    else if s1.aliased attr pa 16 then .refused .attributeAliasing
    else if (pibOffset attr pa).isSome then .refused .pibUndefined
    else
      let s2 : State := if unpopulated s1.holes pa 16 then { s1 with mcOwed := true } else s1.touch attr pa 16
      withDecoded (s1.fetchBundle pa) s2 k

end Machine
end Sys2Proof
end

