-- ==== Sys2Proof/Machine/Place.lean ====
section
/-!
DEFINITION. Placing one instruction of the opcode table where the machine fetches next (log entry 16).
-/
namespace Sys2Proof
namespace Machine

/-- The template and the slot an instruction of a unit stands in: M in slot 0 and I in slot 1 of MII, B in slot 2 of MIB
with a stop after it. -/
def placeFor (u : UnitKind) : BitVec 5 × Nat :=
  match u with
  | .b => (0x11, 2)
  | .i => (0x01, 1)
  | _ => (0x01, 0)

/-- A bundle with one slot word, the others nop.m, nop.i and nop.b by their common words. -/
def bundleWith (template : BitVec 5) (n : Nat) (w : Slot) : Nat :=
  template.toNat + (if n = 0 then w.toNat else 0x8000000) * 2 ^ 5 + (if n = 1 then w.toNat else 0x8000000) * 2 ^ 46 +
    (if n = 2 then w.toNat else 0x8000000) * 2 ^ 87

/-- The unit that reads a table word, as the decoder chooses it; M where no unit does. -/
def unitOfWord (w : Slot) : UnitKind :=
  match tableUnit w with
  | some p => p.1
  | none => .m

/-- The physical address of the next bundle, with translation off. -/
def State.fetchPa (s : State) : Nat := s.ip.toNat % 2 ^ 63

/-- Write the bundle of a table word at the next fetch address and select its slot. -/
def placeWord (s : State) (nbits w : Nat) : State :=
  let word : Slot := BitVec.ofNat 41 (w % 2 ^ nbits)
  let place := placeFor (unitOfWord word)
  let pa := s.fetchPa
  { s with
    mem := writeList s.mem pa (leBytes 16 (bundleWith place.1 place.2 word))
    stale := s.stale.filter fun e => decide (e.addr < pa) || decide (pa + 16 ≤ e.addr)
    slot := BitVec.ofNat 2 place.2 }

end Machine
end Sys2Proof
end

