-- ==== Sys2Proof/Machine/Step.lean ====
section
/-!
DEFINITION. The step: what is taken at an instruction boundary, the fetch, the instruction, and what happens by itself.
-/
namespace Sys2Proof
namespace Machine

/-- One step: one slot, or one interruption. -/
def step (s : State) : Host.Outcome State Fault Refusal := ticked (withBoundary s fun t => withFetched t exec)

/-- The state with an instruction of the opcode table where step fetches next (log entry 16). -/
def State.withFetchWord (s : State) (nbits w : Nat) : State := placeWord s nbits w

end Machine
end Sys2Proof
end

