-- ==== Sys2Proof/Safety.lean ====
section
/-!
DEFINITION. The terms the claims use: when a step is safe, when nothing traps after an instruction, which references are
accessible, what an instruction may change, the invariants.
-/
namespace Sys2Proof
namespace Machine

/-- A step that ends neither in a fault nor in a refusal. -/
def SafeStep (s : State) : Prop := ∃ t, step s = .next t

/-- n safe steps. -/
def SafeFor : Nat → State → Prop
  | 0, _ => True
  | n + 1, s => ∃ t, step s = .next t ∧ SafeFor n t

/-- Nothing traps after an instruction that does not branch: no single step, and what follows is an implemented address
or its absence is found at the fetch, and not past the last bundle of the address space (60_exceptions.md R497, 20_memory.md R158,
10_state.md R31). -/
def Quiet (s : State) : Prop :=
  s.psrNow Psr.ss = false ∧
    (lastSlot s && ((unimplInstr s (s.ip + 16) && Config.uiaAsTrap) || pastTop s (s.ip + 16))) = false

/-- Nothing traps after a taken branch to a target. -/
def QuietBranch (s : State) (target : Word) : Prop :=
  s.psrNow Psr.ss = false ∧ s.dpsr Psr.tb = false ∧ unimplInstr s (target &&& ~~~15#64) = false

/-- No resource is in flight (70_reset_and_hazards.md R556). -/
def Settled (s : State) : Prop := s.dataOld = [] ∧ s.fetchOld = []

/-- The reference passes every check: its physical address, its attribute, and the state (a walk of the VHPT may have
inserted a translation). -/
def Accessible (s : State) (ref : Ref) (pa : Nat) (attr : Attr) (t : State) : Prop :=
  checkRef s 0 ref = .ok { faults := [], pa := pa, attr := attr, st := t }

/-- The bytes are ordinary memory: populated, not in the Processor Interrupt Block, mapped with one cacheability and used with
coherent attributes only. -/
def Ordinary (s : State) (attr : Attr) (pa n : Nat) : Prop :=
  unpopulated s.holes pa n = false ∧ pibOffset attr pa = none ∧ s.aliased attr pa n = false

/-- The bytes from pa to pa + n - 1. -/
def inBytes (pa n a : Nat) : Bool := decide (pa ≤ a) && decide (a < pa + n)

/-- The register files beside the PSR, the control registers and the translation caches. -/
inductive SysFile where
  | itc | rr | pkr | itr | dtr | dbr | ibr | pmc | pmd
  deriving DecidableEq, Repr

/-- What an instruction may change besides the instruction pointer and the one-instruction PSR bits: general registers of
the current bank, floating-point registers, application registers (ITC apart), control registers, PSR bits (a mask), CFM, the
other register files, the translation caches, the interrupt state, the ALAT, the owed machine check, bytes of memory. Then
whether it leaves the sequential path, puts the old resources in flight for the data and for the fetch consumer (and which PSR
bits then still change in the views that were in flight), serializes, and changes what a fetch may see of old bytes or which
lines have been used with which attributes. -/
structure Footprint where
  gr : List (BitVec 7) := []
  fr : List (BitVec 7) := []
  ar : List Nat := []
  cr : List Nat := []
  psr : Word := 0
  cfm : Bool := false
  files : List SysFile := []
  tc : Bool := false
  irq : Bool := false
  alat : Bool := false
  owed : Bool := false
  bytes : Nat → Bool := fun _ => false
  jump : Bool := false
  data : Bool := false
  fetch : Bool := false
  oldPsr : Word := 0
  serial : Bool := false
  stale : Bool := false
  lines : Bool := false

/-- The instruction ends its group: a stop follows it, or it is a taken branch. -/
def Footprint.ends (f : Footprint) (s : State) : Bool := s.ctx.stopAfter || f.jump

/-- What changes in a view that was in flight: what the instruction changes, or, where its write stays in flight, only the PSR
bits that its footprint names for this. -/
def Footprint.views (f : Footprint) : Footprint := if f.data || f.fetch then { psr := f.oldPsr } else f

/-- The serializable resources outside a footprint are as before, the one-instruction PSR bits cleared. -/
structure SysFrame (f : Footprint) (y z : Sys) : Prop where
  psr : z.psr &&& ~~~f.psr = clearOneShot y.psr &&& ~~~f.psr
  cr : ∀ n, n ∉ f.cr → z.cr[n]? = y.cr[n]?
  itc : .itc ∉ f.files → z.itc = y.itc
  rr : .rr ∉ f.files → z.rr = y.rr
  pkr : .pkr ∉ f.files → z.pkr = y.pkr
  itr : .itr ∉ f.files → z.itr = y.itr
  dtr : .dtr ∉ f.files → z.dtr = y.dtr
  dbr : .dbr ∉ f.files → z.dbr = y.dbr
  ibr : .ibr ∉ f.files → z.ibr = y.ibr
  pmc : .pmc ∉ f.files → z.pmc = y.pmc
  pmd : .pmd ∉ f.files → z.pmd = y.pmd
  tc : f.tc = false → z.itcTlb = y.itcTlb ∧ z.dtcTlb = y.dtcTlb
  inService : f.irq = false → z.inService = y.inService

/-- The views that an instruction leaves in flight, before its own changes: the resources before it, where its write stays in
flight, and the older views; the end of a group that holds a srlz.i leaves those that the group itself put in flight
(70_reset_and_hazards.md R551). -/
def inFlight (f : Footprint) (s : State) (push : Bool) (olds : List Sys) (writes : Nat) : List Sys :=
  (if push then [s.sys] else []) ++ if f.ends s && s.srlzI then olds.take writes else olds

/-- What a fetch may see of old bytes after an instruction that neither stores nor flushes. -/
def staleAfter (f : Footprint) (s : State) : List StaleByte :=
  if f.ends s then (if s.srlzI then staleSerialize s.stale else staleEndGroup s.stale) else s.stale

/-- Everything outside a footprint is as before, in the current resources and in every view in flight; the one-instruction PSR
bits are cleared (10_state.md R59); without a jump execution goes on in the next slot or the next bundle (10_state.md R31);
the bundle becomes the IIPA source when PSR.ic was 1 (11_state_control_registers.md R116). -/
structure Frame (f : Footprint) (s t : State) : Prop where
  next : f.jump = false →
    t.ip = (if lastSlot s then s.ip + 16 else s.ip) ∧ t.slot = if lastSlot s then 0 else s.slot + 1
  last : 22 ∉ f.cr → t.lastBundle = if s.icRetire then s.ip else s.lastBundle
  gr : ∀ i, (∀ r ∈ f.gr, i ≠ grIndex (s.psrNow Psr.bn) r) → t.gr[i]? = s.gr[i]?
  fr : ∀ r : BitVec 7, r ∉ f.fr → t.fr[r.toNat]? = s.fr[r.toNat]?
  pr : t.pr = s.pr
  br : t.br = s.br
  ar : ∀ n, n ∉ f.ar → t.ar[n]? = s.ar[n]?
  cfm : f.cfm = false → t.cfm = s.cfm
  sys : SysFrame f s.sys t.sys
  pmdKnown : .pmd ∉ f.files → t.pmdKnown = s.pmdKnown
  dataOld : f.serial = false →
    List.Forall₂ (SysFrame f.views) (inFlight f s f.data s.dataOld s.dataWrites) t.dataOld
  fetchOld : f.serial = false →
    List.Forall₂ (SysFrame f.views) (inFlight f s f.fetch s.fetchOld s.fetchWrites) t.fetchOld
  dataWrites : t.dataWrites = if f.ends s then 0 else s.dataWrites + f.data.toNat
  fetchWrites : t.fetchWrites = if f.ends s then 0 else s.fetchWrites + f.fetch.toNat
  srlzI : f.serial = false → t.srlzI = (s.srlzI && !f.ends s)
  groupRegs : t.groupRegs = if f.ends s then [] else s.groupRegs
  irq : f.irq = false → t.irr = s.irr ∧ t.xtp = s.xtp ∧ t.palOwed = s.palOwed
  alat : f.alat = false → t.alat = s.alat
  owed : f.owed = false → t.mcOwed = s.mcOwed
  lastTc : f.tc = false →
    t.lastTc = (if bit t.sys.psr Psr.ic then none else s.lastTc) ∧ t.tcLost = if bit t.sys.psr Psr.ic then 0 else s.tcLost
  mem : ∀ a, f.bytes a = false → readByte t.mem a = readByte s.mem a
  stale : f.stale = false → f.serial = false → t.stale = staleAfter f s
  lines : f.lines = false → t.lines = s.lines
  same : t.holes = s.holes ∧ t.waited = s.waited ∧ t.ctx = s.ctx ∧ t.tick = s.tick

/-- What an interruption and a return from one leave alone: every register but the PSR, the control registers, CFM and the
instruction pointer; memory; what is pending. -/
structure Undisturbed (s t : State) : Prop where
  gr : t.gr = s.gr
  fr : t.fr = s.fr
  pr : t.pr = s.pr
  br : t.br = s.br
  ar : t.ar = s.ar
  itc : t.sys.itc = s.sys.itc
  rr : t.sys.rr = s.sys.rr
  pkr : t.sys.pkr = s.sys.pkr
  itr : t.sys.itr = s.sys.itr
  dtr : t.sys.dtr = s.sys.dtr
  itcTlb : t.sys.itcTlb = s.sys.itcTlb
  dtcTlb : t.sys.dtcTlb = s.sys.dtcTlb
  dbr : t.sys.dbr = s.sys.dbr
  ibr : t.sys.ibr = s.sys.ibr
  pmc : t.sys.pmc = s.sys.pmc
  pmd : t.sys.pmd = s.sys.pmd
  pmdKnown : t.pmdKnown = s.pmdKnown
  inService : t.sys.inService = s.sys.inService
  irr : t.irr = s.irr
  xtp : t.xtp = s.xtp
  alat : t.alat = s.alat
  mem : t.mem = s.mem
  lines : t.lines = s.lines
  holes : t.holes = s.holes
  owed : t.mcOwed = s.mcOwed ∧ t.palOwed = s.palOwed
  same : t.waited = s.waited ∧ t.ctx = s.ctx ∧ t.tick = s.tick

/-! The invariants. -/

/-- The memory keeps its canonical form. -/
def MemoryOk (s : State) : Prop := Memory.wf s.mem = true

/-- The reserved PSR bits are 0 (40_psr_instructions.md R333). -/
def PsrClean (s : State) : Prop := psrReservedSet s.sys.psr = false

/-- At most one valid protection key register holds a key (21_memory_translation.md R249). -/
def PkrUnique (s : State) : Prop :=
  ∀ i j : Nat, i < 256 → j < 256 → pkrValid (rd s.sys.pkr i 0) = true → pkrValid (rd s.sys.pkr j 0) = true →
    pkrKey (rd s.sys.pkr i 0) = pkrKey (rd s.sys.pkr j 0) → i = j

/-! The forms of one shape, so that one claim covers them. Each form names the constructors it stands for. -/

/-- An integer load: bytes, completer, target, base, base update. -/
structure LoadForm where
  qp : BitVec 6
  size : Nat
  flav : LoadFlavour
  r1 : BitVec 7
  r3 : BitVec 7
  upd : BaseUpd

/-- The integer loads, with and without base update (43_memory_instructions.md R423 to R429, R441 to R443). -/
def intLoadForm : Instr → Option LoadForm
  | .ld1 qp r1 r3 _ => some ⟨qp, 1, .plain, r1, r3, .none⟩
  | .ld2 qp r1 r3 _ => some ⟨qp, 2, .plain, r1, r3, .none⟩
  | .ld4 qp r1 r3 _ => some ⟨qp, 4, .plain, r1, r3, .none⟩
  | .ld8 qp r1 r3 _ => some ⟨qp, 8, .plain, r1, r3, .none⟩
  | .ld1S qp r1 r3 _ => some ⟨qp, 1, .s, r1, r3, .none⟩
  | .ld2S qp r1 r3 _ => some ⟨qp, 2, .s, r1, r3, .none⟩
  | .ld4S qp r1 r3 _ => some ⟨qp, 4, .s, r1, r3, .none⟩
  | .ld8S qp r1 r3 _ => some ⟨qp, 8, .s, r1, r3, .none⟩
  | .ld1A qp r1 r3 _ => some ⟨qp, 1, .a, r1, r3, .none⟩
  | .ld2A qp r1 r3 _ => some ⟨qp, 2, .a, r1, r3, .none⟩
  | .ld4A qp r1 r3 _ => some ⟨qp, 4, .a, r1, r3, .none⟩
  | .ld8A qp r1 r3 _ => some ⟨qp, 8, .a, r1, r3, .none⟩
  | .ld1Sa qp r1 r3 _ => some ⟨qp, 1, .sa, r1, r3, .none⟩
  | .ld2Sa qp r1 r3 _ => some ⟨qp, 2, .sa, r1, r3, .none⟩
  | .ld4Sa qp r1 r3 _ => some ⟨qp, 4, .sa, r1, r3, .none⟩
  | .ld8Sa qp r1 r3 _ => some ⟨qp, 8, .sa, r1, r3, .none⟩
  | .ld1Bias qp r1 r3 _ => some ⟨qp, 1, .bias, r1, r3, .none⟩
  | .ld2Bias qp r1 r3 _ => some ⟨qp, 2, .bias, r1, r3, .none⟩
  | .ld4Bias qp r1 r3 _ => some ⟨qp, 4, .bias, r1, r3, .none⟩
  | .ld8Bias qp r1 r3 _ => some ⟨qp, 8, .bias, r1, r3, .none⟩
  | .ld1Acq qp r1 r3 _ => some ⟨qp, 1, .acq, r1, r3, .none⟩
  | .ld2Acq qp r1 r3 _ => some ⟨qp, 2, .acq, r1, r3, .none⟩
  | .ld4Acq qp r1 r3 _ => some ⟨qp, 4, .acq, r1, r3, .none⟩
  | .ld8Acq qp r1 r3 _ => some ⟨qp, 8, .acq, r1, r3, .none⟩
  | .ld1CClr qp r1 r3 _ => some ⟨qp, 1, .cClr, r1, r3, .none⟩
  | .ld2CClr qp r1 r3 _ => some ⟨qp, 2, .cClr, r1, r3, .none⟩
  | .ld4CClr qp r1 r3 _ => some ⟨qp, 4, .cClr, r1, r3, .none⟩
  | .ld8CClr qp r1 r3 _ => some ⟨qp, 8, .cClr, r1, r3, .none⟩
  | .ld1CNc qp r1 r3 _ => some ⟨qp, 1, .cNc, r1, r3, .none⟩
  | .ld2CNc qp r1 r3 _ => some ⟨qp, 2, .cNc, r1, r3, .none⟩
  | .ld4CNc qp r1 r3 _ => some ⟨qp, 4, .cNc, r1, r3, .none⟩
  | .ld8CNc qp r1 r3 _ => some ⟨qp, 8, .cNc, r1, r3, .none⟩
  | .ld1CClrAcq qp r1 r3 _ => some ⟨qp, 1, .cClrAcq, r1, r3, .none⟩
  | .ld2CClrAcq qp r1 r3 _ => some ⟨qp, 2, .cClrAcq, r1, r3, .none⟩
  | .ld4CClrAcq qp r1 r3 _ => some ⟨qp, 4, .cClrAcq, r1, r3, .none⟩
  | .ld8CClrAcq qp r1 r3 _ => some ⟨qp, 8, .cClrAcq, r1, r3, .none⟩
  | .memUpd qp (.load size flav r1) r3 upd _ =>
    some ⟨qp, sizeOf size, flav, r1, r3, (UpdOp.load size flav r1).baseUpd upd⟩
  | _ => none

/-- A store or a fill: bytes, data or target register, base, base update. -/
structure StoreForm where
  qp : BitVec 6
  size : Nat
  r2 : BitVec 7
  r3 : BitVec 7
  upd : BaseUpd

/-- The integer stores (43_memory_instructions.md R432, R433). -/
def intStoreForm : Instr → Option StoreForm
  | .st1 qp r2 r3 _ => some ⟨qp, 1, r2, r3, .none⟩
  | .st2 qp r2 r3 _ => some ⟨qp, 2, r2, r3, .none⟩
  | .st4 qp r2 r3 _ => some ⟨qp, 4, r2, r3, .none⟩
  | .st8 qp r2 r3 _ => some ⟨qp, 8, r2, r3, .none⟩
  | .st1Rel qp r2 r3 _ => some ⟨qp, 1, r2, r3, .none⟩
  | .st2Rel qp r2 r3 _ => some ⟨qp, 2, r2, r3, .none⟩
  | .st4Rel qp r2 r3 _ => some ⟨qp, 4, r2, r3, .none⟩
  | .st8Rel qp r2 r3 _ => some ⟨qp, 8, r2, r3, .none⟩
  | .memUpd qp (.store size rel r2) r3 upd _ => some ⟨qp, sizeOf size, r2, r3, (UpdOp.store size rel r2).baseUpd upd⟩
  | _ => none

/-- ld8.fill (43_memory_instructions.md R430); r2 is the target. -/
def fillForm : Instr → Option StoreForm
  | .ld8Fill qp r1 r3 _ => some ⟨qp, 8, r1, r3, .none⟩
  | .memUpd qp (.fill r1) r3 upd _ => some ⟨qp, 8, r1, r3, (UpdOp.fill r1).baseUpd upd⟩
  | _ => none

/-- st8.spill (43_memory_instructions.md R434). -/
def spillForm : Instr → Option StoreForm
  | .st8Spill qp r2 r3 _ => some ⟨qp, 8, r2, r3, .none⟩
  | .memUpd qp (.spill r2) r3 upd _ => some ⟨qp, 8, r2, r3, (UpdOp.spill r2).baseUpd upd⟩
  | _ => none

/-- ld16 and ld16.acq: predicate, target, base (43_memory_instructions.md R431). -/
def load16Form : Instr → Option (BitVec 6 × BitVec 7 × BitVec 7)
  | .ld16 qp r1 r3 _ => some (qp, r1, r3)
  | .ld16Acq qp r1 r3 _ => some (qp, r1, r3)
  | _ => none

/-- st16 and st16.rel: predicate, data, base (43_memory_instructions.md R435). -/
def store16Form : Instr → Option (BitVec 6 × BitVec 7 × BitVec 7)
  | .st16 qp r2 r3 _ => some (qp, r2, r3)
  | .st16Rel qp r2 r3 _ => some (qp, r2, r3)
  | _ => none

/-- A semaphore: bytes, target, data, base. -/
structure SemForm where
  qp : BitVec 6
  size : Nat
  r1 : BitVec 7
  r2 : BitVec 7
  r3 : BitVec 7

/-- cmpxchg (43_memory_instructions.md R449). -/
def cmpxchgForm : Instr → Option SemForm
  | .cmpxchg1Acq qp r1 r2 r3 _ => some ⟨qp, 1, r1, r2, r3⟩
  | .cmpxchg2Acq qp r1 r2 r3 _ => some ⟨qp, 2, r1, r2, r3⟩
  | .cmpxchg4Acq qp r1 r2 r3 _ => some ⟨qp, 4, r1, r2, r3⟩
  | .cmpxchg8Acq qp r1 r2 r3 _ => some ⟨qp, 8, r1, r2, r3⟩
  | .cmpxchg1Rel qp r1 r2 r3 _ => some ⟨qp, 1, r1, r2, r3⟩
  | .cmpxchg2Rel qp r1 r2 r3 _ => some ⟨qp, 2, r1, r2, r3⟩
  | .cmpxchg4Rel qp r1 r2 r3 _ => some ⟨qp, 4, r1, r2, r3⟩
  | .cmpxchg8Rel qp r1 r2 r3 _ => some ⟨qp, 8, r1, r2, r3⟩
  | _ => none

/-- xchg (43_memory_instructions.md R450). -/
def xchgForm : Instr → Option SemForm
  | .xchg1 qp r1 r2 r3 _ => some ⟨qp, 1, r1, r2, r3⟩
  | .xchg2 qp r1 r2 r3 _ => some ⟨qp, 2, r1, r2, r3⟩
  | .xchg4 qp r1 r2 r3 _ => some ⟨qp, 4, r1, r2, r3⟩
  | .xchg8 qp r1 r2 r3 _ => some ⟨qp, 8, r1, r2, r3⟩
  | _ => none

/-- cmp8xchg16 (43_memory_instructions.md R453). -/
def cmp8xchg16Form : Instr → Option SemForm
  | .cmp8xchg16Acq qp r1 r2 r3 _ => some ⟨qp, 8, r1, r2, r3⟩
  | .cmp8xchg16Rel qp r1 r2 r3 _ => some ⟨qp, 8, r1, r2, r3⟩
  | _ => none

/-- fetchadd: predicate, bytes, target, increment field, base (43_memory_instructions.md R451). -/
def fetchaddForm : Instr → Option (BitVec 6 × Nat × BitVec 7 × BitVec 3 × BitVec 7)
  | .fetchadd4Acq qp r1 inc r3 _ => some (qp, 4, r1, inc, r3)
  | .fetchadd8Acq qp r1 inc r3 _ => some (qp, 8, r1, inc, r3)
  | .fetchadd4Rel qp r1 inc r3 _ => some (qp, 4, r1, inc, r3)
  | .fetchadd8Rel qp r1 inc r3 _ => some (qp, 8, r1, inc, r3)
  | _ => none

/-- A floating-point load or store: format, bytes, alignment, supported pages, completer, register, base, base update. -/
structure FpForm where
  qp : BitVec 6
  fmt : Config.FpFormat
  size : Nat
  align : Nat
  sup : Support
  flav : LoadFlavour
  f : BitVec 7
  r3 : BitVec 7
  upd : BaseUpd

/-- A form of one of the four formats. -/
def fpFormOf (qp : BitVec 6) (fmt : FpFmt) (flav : LoadFlavour) (f r3 : BitVec 7) (upd : BaseUpd) : FpForm :=
  ⟨qp, fmt.config, fmt.bytes, fmt.align, if fmt.needsTenByte then .tenByte else .any, flav, f, r3, upd⟩

/-- The single floating-point loads (43_memory_instructions.md R455). -/
def fpLoadForm : Instr → Option FpForm
  | .ldfs qp f1 r3 _ => some (fpFormOf qp .single .plain f1 r3 .none)
  | .ldfd qp f1 r3 _ => some (fpFormOf qp .double .plain f1 r3 .none)
  | .ldf8 qp f1 r3 _ => some (fpFormOf qp .int8 .plain f1 r3 .none)
  | .ldfe qp f1 r3 _ => some (fpFormOf qp .extended .plain f1 r3 .none)
  | .ldfFill qp f1 r3 _ => some ⟨qp, .spill, 16, 16, .any, .plain, f1, r3, .none⟩
  | .ldfFlav qp fmt flav f1 r3 _ => some (fpFormOf qp fmt flav.flavour.load f1 r3 .none)
  | .memUpd qp (.fpLoad fmt flav f1) r3 upd _ =>
    some (fpFormOf qp fmt flav.load f1 r3 ((UpdOp.fpLoad fmt flav f1).baseUpd upd))
  | .memUpd qp (.fpFill f1) r3 upd _ => some ⟨qp, .spill, 16, 16, .any, .plain, f1, r3, (UpdOp.fpFill f1).baseUpd upd⟩
  | _ => none

/-- The floating-point stores (43_memory_instructions.md R455). -/
def fpStoreForm : Instr → Option FpForm
  | .stfs qp f2 r3 _ => some (fpFormOf qp .single .plain f2 r3 .none)
  | .stfd qp f2 r3 _ => some (fpFormOf qp .double .plain f2 r3 .none)
  | .stf8 qp f2 r3 _ => some (fpFormOf qp .int8 .plain f2 r3 .none)
  | .stfe qp f2 r3 _ => some (fpFormOf qp .extended .plain f2 r3 .none)
  | .stfSpill qp f2 r3 _ => some ⟨qp, .spill, 16, 16, .any, .plain, f2, r3, .none⟩
  | .memUpd qp (.fpStore fmt f2) r3 upd _ => some (fpFormOf qp fmt .plain f2 r3 ((UpdOp.fpStore fmt f2).baseUpd upd))
  | .memUpd qp (.fpSpill f2) r3 upd _ => some ⟨qp, .spill, 16, 16, .any, .plain, f2, r3, (UpdOp.fpSpill f2).baseUpd upd⟩
  | _ => none

/-- A pair load: format of each half, completer, the two targets, base, base update. -/
structure PairForm where
  qp : BitVec 6
  fmt : PairFmt
  flav : LoadFlavour
  f1 : BitVec 7
  f2 : BitVec 7
  r3 : BitVec 7
  upd : BaseUpd

/-- The pair loads (43_memory_instructions.md R455). -/
def fpPairForm : Instr → Option PairForm
  | .ldfp qp fmt flav f1 f2 r3 _ => some ⟨qp, fmt, flav.load, f1, f2, r3, .none⟩
  | .memUpd qp (.fpPair fmt flav f1 f2) r3 upd _ =>
    some ⟨qp, fmt, flav.load, f1, f2, r3, (UpdOp.fpPair fmt flav f1 f2).baseUpd upd⟩
  | _ => none

/-- The prefetches: predicate, faulting, exclusive, base, base update (43_memory_instructions.md R454). -/
def lfetchForm : Instr → Option (BitVec 6 × Bool × Bool × BitVec 7 × BaseUpd)
  | .lfetch qp r3 _ => some (qp, false, false, r3, .none)
  | .lfetchExcl qp r3 _ => some (qp, false, true, r3, .none)
  | .lfetchFault qp r3 _ => some (qp, true, false, r3, .none)
  | .lfetchFaultExcl qp r3 _ => some (qp, true, true, r3, .none)
  | .memUpd qp (.lfetch fault excl) r3 upd _ => some (qp, fault, excl, r3, (UpdOp.lfetch fault excl).baseUpd upd)
  | _ => none

/-- The reference of an integer load. -/
def LoadForm.ref (f : LoadForm) (s : State) : Ref :=
  { va := s.val f.r3, size := f.size, align := f.size, r := true, sp := f.flav.speculative, adv := f.flav.advanced
    pl := s.cpl }
/-- The reference of an integer store. -/
def StoreForm.ref (f : StoreForm) (s : State) : Ref :=
  { va := s.val f.r3, size := f.size, align := f.size, w := true, dirty := true, pl := s.cpl }
/-- The reference of cmp8xchg16: 16 bytes around an address aligned to 8 (43_memory_instructions.md R453). -/
def pairSemRef (s : State) (r3 : BitVec 7) : Ref :=
  { va := s.val r3, size := 16, align := 8, r := true, w := true, dirty := true, strict := true, sup := .writeBackOnly
    wide := true, pl := s.cpl }
/-- The reference of a semaphore of n bytes. -/
def semRef (s : State) (r3 : BitVec 7) (n : Nat) (sup : Support) : Ref :=
  { va := s.val r3, size := n, align := n, r := true, w := true, dirty := true, strict := true, sup := sup, pl := s.cpl }
/-- The reference of a floating-point load. -/
def FpForm.loadRef (f : FpForm) (s : State) : Ref :=
  { va := s.val f.r3, size := f.size, align := f.align, r := true, sp := f.flav.speculative, adv := f.flav.advanced
    sup := f.sup, pl := s.cpl }
/-- The reference of a floating-point store. -/
def FpForm.storeRef (f : FpForm) (s : State) : Ref :=
  { va := s.val f.r3, size := f.size, align := f.align, w := true, dirty := true, sup := f.sup, pl := s.cpl }
/-- The reference of a pair load. -/
def PairForm.ref (f : PairForm) (s : State) : Ref :=
  { va := s.val f.r3, size := 2 * f.fmt.bytes, align := 2 * f.fmt.bytes, r := true, sp := f.flav.speculative
    adv := f.flav.advanced, pl := s.cpl }
/-- The reference of a non-access instruction. -/
def naRef (s : State) (r3 : BitVec 7) (r w chk : Bool) (pl : BitVec 2) : Ref :=
  { va := s.val r3, size := 1, align := 1, r := r, w := w, chk := chk, na := true, pl := pl }

/-- A base update is legal: GR0 and the load's own target are not updated (43_memory_instructions.md R423). -/
def BaseOk (r3 : BitVec 7) (target : Option (BitVec 7)) (u : BaseUpd) : Prop :=
  u = .none ∨ (r3 ≠ 0 ∧ target ≠ some r3)

/-- The base register after a base update: the sum, with the NaT bit of either source. -/
def NewBase (s t : State) (r3 : BitVec 7) (u : BaseUpd) : Prop :=
  match u with
  | .none => True
  | .reg r2 => t.getGr r3 = { val := s.val r3 + s.val r2, nat := s.nat r3 || s.nat r2 }
  | .imm i => t.getGr r3 = { val := s.val r3 + i, nat := s.nat r3 }

/-- The register a base update changes. -/
def baseGr (r3 : BitVec 7) : BaseUpd → List (BitVec 7)
  | .none => []
  | _ => [r3]

/-- A DCR value defers the fault when the page of the load allows it (11_state_control_registers.md R87); faults that no DCR bit
governs are always or never deferred (20_memory.md R156, R205, R206). -/
def dcrDefers (dcr : Word) : DFault → Bool
  | .tlb => bit dcr 8
  | .notPresent => bit dcr 9
  | .keyMiss => bit dcr 10
  | .keyPermission => bit dcr 11
  | .accessRights => bit dcr 12
  | .accessBit => bit dcr 13
  | .debug => bit dcr 14
  | .unimplemented | .natPage | .unsupported => true
  | .dirtyBit | .unaligned => false

/-- A control-speculative load defers the fault: PSR.ic is 0, or its own page has ed = 1 and the DCR bit is 1, or the fault
always is (11_state_control_registers.md R88). -/
def FaultDeferred (s : State) (k : DFault) : Prop :=
  s.dpsr Psr.ic k.use = false ∨ k = .unimplemented ∨ k = .natPage ∨ k = .unsupported ∨
    (s.ctx.translated = true ∧ s.ctx.ed = true ∧ dcrDefers (s.dcr 0 k.use) k = true)

/-- The causes that defer a control-speculative load (43_memory_instructions.md R421, R427): a NaT address, PSR.ed = 1, a page
that does not allow speculation, or a fault that is deferred, as is every later fault that could be delivered instead. -/
def Deferred (s : State) (nat : Bool) (ref : Ref) : Prop :=
  nat = true ∨ s.psrNow Psr.ed = true ∨
    (∃ pa attr u, Accessible s ref pa attr u ∧ attr.speculative = false) ∨
    ∃ c k e rest, checkRef s 0 ref = .ok c ∧ c.faults = (k, e) :: rest ∧ FaultDeferred s k ∧
      ∀ q ∈ rest, k.allowsAfter q.1 = true → FaultDeferred s q.1

/-- The caches of translations and the owed machine check are as a search left them. -/
def Searched (u t : State) : Prop :=
  t.sys.itcTlb = u.sys.itcTlb ∧ t.sys.dtcTlb = u.sys.dtcTlb ∧ t.mcOwed = u.mcOwed

/-- All that a search may change is as the search left it: the walker reads its table through the caches. -/
def Left (u t : State) : Prop := Searched u t ∧ t.lines = u.lines

/-- What a reference that was performed leaves: what its search left, and its lines used with the coherence class of its page. -/
def Reached (u t : State) (attr : Attr) (pa n : Nat) : Prop :=
  Searched u t ∧ t.lines = useLines u.lines attr.coherence pa n

/-- A load of this completer is performed on such a page and brings its datum (43_memory_instructions.md R427, R441 to R443). -/
def Performs (s : State) (flav : LoadFlavour) (fp : Bool) (r : BitVec 7) (attr : Attr) : Prop :=
  (flav.checks = true → s.alatHit fp r = false) ∧
  (flav.speculative = true → attr.speculative = true ∧ s.psrNow Psr.ed = false) ∧
  (flav.advanced = true → attr.nonSpeculative = false)

/-- A load of this completer allocates an ALAT entry on such a page. -/
def allocates (flav : LoadFlavour) (attr : Attr) : Bool :=
  (flav.advanced || decide (flav = .cNc)) && !attr.nonSpeculative

/-- The ALAT with the entry of a register replaced. -/
def alatWith (s : State) (fp : Bool) (r : BitVec 7) (pa n : Nat) : List AlatEntry :=
  { fp := fp, reg := r, pa := pa, size := n } :: s.alat.filter fun e => !(e.fp == fp && decide (e.reg = r))

/-- The ALAT without the entry of a register. -/
def alatLess (s : State) (fp : Bool) (r : BitVec 7) : List AlatEntry :=
  s.alat.filter fun e => !(e.fp == fp && decide (e.reg = r))

/-- The floating-point registers may be used (10_state.md R50, R51). -/
def FpEnabled (s : State) (f : BitVec 7) : Prop :=
  (2 ≤ f.toNat → f.toNat < 32 → s.dpsr Psr.dfl = false) ∧ (32 ≤ f.toNat → s.dpsr Psr.dfh = false)

/-- The register-written bits of PSR (10_state.md R42, R43). -/
def fpMarks : Word := 0x30

/-- The data TLB translates the address: PSR.dt is 1, the address implemented, the search finds an entry. -/
def Translates (s : State) (va : Word) (e : TlbEntry) (u : State) : Prop :=
  (s.dataView 0).dt = true ∧ unimplVa s.vm va = false ∧
    searchTlb s (s.dataView 0) (s.dataView 100) .data va = .found e u

/-- The entry an insert makes: the fields of the first word, of ITIR and of the region register, at IFA's page
(21_memory_translation.md R232). -/
structure InsertedAs (s : State) (pte : Word) (e : TlbEntry) : Prop where
  p : e.p = bit pte 0
  ma : e.ma = pte.extractLsb' 2 3
  a : e.a = bit pte 5
  d : e.d = bit pte 6
  pl : e.pl = pte.extractLsb' 7 2
  ar : e.ar = pte.extractLsb' 9 3
  ed : e.ed = bit pte 52
  ps : e.ps = (s.sys.getCr 21).extractLsb' 2 6
  key : e.key = (s.sys.getCr 21).extractLsb' 8 24
  rid : e.rid = (rd s.sys.rr ((s.sys.getCr 20).extractLsb' 61 3).toNat 0).extractLsb' 8 24
  hits : e.hits e.rid (s.sys.getCr 20) = true
  pa : e.pa (s.sys.getCr 20) =
    (pte &&& 0x3FFFFFFFFF000).toNat / 2 ^ e.ps.toNat * 2 ^ e.ps.toNat + (s.sys.getCr 20).toNat % 2 ^ e.ps.toNat

/-- An insert passes its checks (42_translation_instructions.md R390): PSR.ic is 0, level 0, the operands are no NaT, the
insertion format has no reserved bits, IFA and the physical page number are implemented, PSR.vm is 0. -/
def InsertOk (s : State) (r2 : BitVec 7) : Prop :=
  s.dpsr Psr.ic = false ∧ s.cpl = 0 ∧ s.nat r2 = false ∧ s.vm = false ∧
  insertReserved (s.val r2) (s.sys.getCr 21) = false ∧ ppnUnimpl (s.val r2) = false ∧
  unimplVa s.vm (s.sys.getCr 20) = false

/-- What a cache of n entries keeps of a list beside one new entry: a part of it, and all of it where there is room
(21_memory_translation.md R226). -/
def KeptIn (n : Nat) (l kept : List TlbEntry) : Prop :=
  kept.Sublist l ∧ kept.length + 1 ≤ n ∧ (l.length < n → kept = l)

/-- A purge with operands passes its checks (42_translation_instructions.md R391). -/
def PurgeOk (s : State) (r3 r2 : BitVec 7) : Prop :=
  s.cpl = 0 ∧ s.nat r3 = false ∧ s.nat r2 = false ∧ unimplVa s.vm (s.val r3) = false ∧ s.vm = false

/-- The translations a list holds that a purge does not reach (21_memory_translation.md R231). -/
def outside (l : List TlbEntry) (rid : BitVec 24) (va : Word) (ps : Nat) : List TlbEntry :=
  l.filter fun e => !e.overlaps rid (va.extractLsb' 0 61) ps

/-- The privilege level a probe asks about: never more privileged than the caller (42_translation_instructions.md R392). -/
def askedLevel (s : State) (pl : BitVec 2) : BitVec 2 := if pl.toNat < s.cpl.toNat then s.cpl else pl

/-- The qualifying predicate of an instruction; those that take none have PR0 (30_encoding.md R317). -/
def qpOf : Instr → BitVec 6
  | .breakM qp .. => qp
  | .invala qp => qp
  | .fwb qp => qp
  | .srlzD qp => qp
  | .nopM qp .. => qp
  | .hintM qp .. => qp
  | .srlzI qp => qp
  | .invalaER qp .. => qp
  | .mf qp => qp
  | .invalaEF qp .. => qp
  | .mfA qp => qp
  | .syncI qp => qp
  | .sum qp .. => qp
  | .rum qp .. => qp
  | .ssm qp .. => qp
  | .rsm qp .. => qp
  | .movArImm qp .. => qp
  | .chkANcR qp .. => qp
  | .chkAClrR qp .. => qp
  | .chkANcF qp .. => qp
  | .chkAClrF qp .. => qp
  | .movToRr qp .. => qp
  | .movToDbr qp .. => qp
  | .movToIbr qp .. => qp
  | .movToPkr qp .. => qp
  | .movToPmc qp .. => qp
  | .movToPmd qp .. => qp
  | .movFromRr qp .. => qp
  | .movFromDbr qp .. => qp
  | .movFromIbr qp .. => qp
  | .movFromPkr qp .. => qp
  | .movFromPmc qp .. => qp
  | .movFromPmd qp .. => qp
  | .movFromCpuid qp .. => qp
  | .ptcL qp .. => qp
  | .ptcG qp .. => qp
  | .ptcGa qp .. => qp
  | .ptrD qp .. => qp
  | .ptrI qp .. => qp
  | .itrD qp .. => qp
  | .itrI qp .. => qp
  | .probeRImm qp .. => qp
  | .probeWImm qp .. => qp
  | .thash qp .. => qp
  | .ttag qp .. => qp
  | .tpa qp .. => qp
  | .tak qp .. => qp
  | .movFromUm qp .. => qp
  | .movFromAr qp .. => qp
  | .movFromCr qp .. => qp
  | .movFromPsr qp .. => qp
  | .movToUm qp .. => qp
  | .movToAr qp .. => qp
  | .movToCr qp .. => qp
  | .movToPsrL qp .. => qp
  | .itcD qp .. => qp
  | .itcI qp .. => qp
  | .fc qp .. => qp
  | .fcI qp .. => qp
  | .probeRwFault qp .. => qp
  | .probeRFault qp .. => qp
  | .probeWFault qp .. => qp
  | .ptcE qp .. => qp
  | .probeR qp .. => qp
  | .probeW qp .. => qp
  | .chkSM qp .. => qp
  | .chkSF qp .. => qp
  | .breakI qp .. => qp
  | .nopI qp .. => qp
  | .hintI qp .. => qp
  | .breakB qp .. => qp
  | .brCond qp .. => qp
  | .brRet qp .. => qp
  | .nopB qp .. => qp
  | .hintB qp .. => qp
  | .ld1 qp .. => qp
  | .ld2 qp .. => qp
  | .ld4 qp .. => qp
  | .ld8 qp .. => qp
  | .ld1S qp .. => qp
  | .ld2S qp .. => qp
  | .ld4S qp .. => qp
  | .ld8S qp .. => qp
  | .ld1A qp .. => qp
  | .ld2A qp .. => qp
  | .ld4A qp .. => qp
  | .ld8A qp .. => qp
  | .ld1Sa qp .. => qp
  | .ld2Sa qp .. => qp
  | .ld4Sa qp .. => qp
  | .ld8Sa qp .. => qp
  | .ld1Bias qp .. => qp
  | .ld2Bias qp .. => qp
  | .ld4Bias qp .. => qp
  | .ld8Bias qp .. => qp
  | .ld1Acq qp .. => qp
  | .ld2Acq qp .. => qp
  | .ld4Acq qp .. => qp
  | .ld8Acq qp .. => qp
  | .ld1CClr qp .. => qp
  | .ld2CClr qp .. => qp
  | .ld4CClr qp .. => qp
  | .ld8CClr qp .. => qp
  | .ld1CNc qp .. => qp
  | .ld2CNc qp .. => qp
  | .ld4CNc qp .. => qp
  | .ld8CNc qp .. => qp
  | .ld1CClrAcq qp .. => qp
  | .ld2CClrAcq qp .. => qp
  | .ld4CClrAcq qp .. => qp
  | .ld8CClrAcq qp .. => qp
  | .ld8Fill qp .. => qp
  | .st1 qp .. => qp
  | .st2 qp .. => qp
  | .st4 qp .. => qp
  | .st8 qp .. => qp
  | .st1Rel qp .. => qp
  | .st2Rel qp .. => qp
  | .st4Rel qp .. => qp
  | .st8Rel qp .. => qp
  | .st8Spill qp .. => qp
  | .cmpxchg1Acq qp .. => qp
  | .cmpxchg2Acq qp .. => qp
  | .cmpxchg4Acq qp .. => qp
  | .cmpxchg8Acq qp .. => qp
  | .cmpxchg1Rel qp .. => qp
  | .cmpxchg2Rel qp .. => qp
  | .cmpxchg4Rel qp .. => qp
  | .cmpxchg8Rel qp .. => qp
  | .xchg1 qp .. => qp
  | .xchg2 qp .. => qp
  | .xchg4 qp .. => qp
  | .xchg8 qp .. => qp
  | .fetchadd4Acq qp .. => qp
  | .fetchadd8Acq qp .. => qp
  | .fetchadd4Rel qp .. => qp
  | .fetchadd8Rel qp .. => qp
  | .cmp8xchg16Acq qp .. => qp
  | .cmp8xchg16Rel qp .. => qp
  | .ld16 qp .. => qp
  | .ld16Acq qp .. => qp
  | .st16 qp .. => qp
  | .st16Rel qp .. => qp
  | .lfetch qp .. => qp
  | .lfetchExcl qp .. => qp
  | .lfetchFault qp .. => qp
  | .lfetchFaultExcl qp .. => qp
  | .ldfe qp .. => qp
  | .stfe qp .. => qp
  | .ldfs qp .. => qp
  | .ldfd qp .. => qp
  | .ldf8 qp .. => qp
  | .ldfFill qp .. => qp
  | .ldfp qp .. => qp
  | .stfs qp .. => qp
  | .stfd qp .. => qp
  | .stf8 qp .. => qp
  | .stfSpill qp .. => qp
  | .ldfFlav qp .. => qp
  | .memUpd qp .. => qp
  | .breakFX qp .. => qp
  | .movI qp .. => qp
  | .brRel (.cond qp ..) => qp
  | .brRel (.call qp ..) => qp
  | .brRel (.wexit qp ..) => qp
  | .brRel (.wtop qp ..) => qp
  | .brRel _ => 0
  | .addp4 qp .. => qp
  | .shladdp4 qp .. => qp
  | .addp4Imm qp .. => qp
  | .loadrs | .flushrs | .alloc .. | .cover | .clrrrb | .clrrrbPr | .rfi | .bsw0 | .bsw1 | .epc | .vmsw0 | .vmsw1 | .brIa .. => 0

/-- The privileged instructions (60_exceptions.md R520, Table 3-10). -/
def privileged : Instr → Bool
  | .ssm .. | .rsm .. | .movToRr .. | .movToDbr .. | .movToIbr .. | .movToPkr .. | .movToPmc .. | .movToPmd ..
  | .movFromRr .. | .movFromDbr .. | .movFromIbr .. | .movFromPkr .. | .movFromPmc .. | .ptcL .. | .ptcG ..
  | .ptcGa .. | .ptrD .. | .ptrI .. | .itrD .. | .itrI .. | .tpa .. | .tak .. | .movFromCr .. | .movFromPsr ..
  | .movToCr .. | .movToPsrL .. | .itcD .. | .itcI .. | .ptcE .. | .rfi | .bsw0 | .bsw1 => true
  | _ => false

/-- The operands, the enables and PSR.ic let a virtualized instruction run at level 0 with PSR.vm = 0 (60_exceptions.md R520):
the only fault left with PSR.vm = 1 is Virtualization. -/
def virtualReady (s : State) : Instr → Prop
  | .ssm _ imm => imm.setWidth 64 &&& 0x11FC1#64 = 0
  | .rsm _ imm => imm.setWidth 64 &&& 0x11FC1#64 = 0
  | .movFromPsr _ r1 => r1 ≠ 0
  | .movToPsrL _ r2 => s.nat r2 = false ∧ s.val r2 &&& 0xF0011FC1#64 = 0
  | .bsw0 => True
  | .bsw1 => True
  | .rfi => psrReservedSet (s.impliedCr 16) = false
  | .movToCr _ cr3 r2 => crDefined cr3.toNat = true ∧ crReadOnly cr3.toNat = false ∧
    (16 ≤ cr3.toNat → cr3.toNat ≤ 25 → s.dpsr Psr.ic = false) ∧ s.nat r2 = false ∧
    crReserved cr3.toNat (s.val r2) = false ∧ (cr3 = 20 → unimplVa true (s.val r2) = false)
  | .movFromCr _ r1 cr3 => r1 ≠ 0 ∧ crDefined cr3.toNat = true ∧
    (16 ≤ cr3.toNat → cr3.toNat ≤ 25 → s.dpsr Psr.ic = false)
  | .movToRr _ r3 r2 => s.nat r3 = false ∧ s.nat r2 = false ∧ rrReserved (s.val r2) = false
  | .movToPkr _ r3 r2 => s.nat r3 = false ∧ s.nat r2 = false ∧ pkrReserved (s.val r3) (s.val r2) = false
  | .movToDbr _ r3 r2 => s.nat r3 = false ∧ s.nat r2 = false ∧ ((s.val r3).extractLsb' 0 8).toNat < Config.numDbr
  | .movToIbr _ r3 r2 => s.nat r3 = false ∧ s.nat r2 = false ∧ ((s.val r3).extractLsb' 0 8).toNat < Config.numIbr
  | .movToPmc _ r3 r2 => s.nat r3 = false ∧ s.nat r2 = false ∧ ((s.val r3).extractLsb' 0 8).toNat < Config.numPm
  | .movToPmd _ r3 r2 => s.nat r3 = false ∧ s.nat r2 = false ∧ ((s.val r3).extractLsb' 0 8).toNat < Config.numPm
  | .movFromRr _ r1 r3 => r1 ≠ 0 ∧ s.nat r3 = false
  | .movFromPkr _ r1 r3 => r1 ≠ 0 ∧ s.nat r3 = false ∧ ((s.val r3).extractLsb' 0 8).toNat < Config.numPkr
  | .movFromDbr _ r1 r3 => r1 ≠ 0 ∧ s.nat r3 = false ∧ ((s.val r3).extractLsb' 0 8).toNat < Config.numDbr
  | .movFromIbr _ r1 r3 => r1 ≠ 0 ∧ s.nat r3 = false ∧ ((s.val r3).extractLsb' 0 8).toNat < Config.numIbr
  | .movFromPmc _ r1 r3 => r1 ≠ 0 ∧ s.nat r3 = false ∧ ((s.val r3).extractLsb' 0 8).toNat < Config.numPm
  | .movFromCpuid _ r1 r3 => r1 ≠ 0 ∧ s.nat r3 = false ∧ ((s.val r3).extractLsb' 0 8).toNat < Config.numCpuid
  | .movFromAr _ r1 ar3 => r1 ≠ 0 ∧ ar3 = 44 ∧ s.dpsr Psr.si = true
  | .movToAr _ ar3 r2 => ar3 = 44 ∧ s.nat r2 = false
  | .movArImm _ ar3 _ => ar3 = 44
  | .itcD _ r2 => s.dpsr Psr.ic = false ∧ s.nat r2 = false ∧ insertReserved (s.val r2) (s.impliedCr 21) = false ∧
    ppnUnimpl (s.val r2) = false ∧ unimplVa true (s.impliedCr 20) = false
  | .itcI _ r2 => s.dpsr Psr.ic = false ∧ s.nat r2 = false ∧ insertReserved (s.val r2) (s.impliedCr 21) = false ∧
    ppnUnimpl (s.val r2) = false ∧ unimplVa true (s.impliedCr 20) = false
  | .itrD _ r3 r2 => s.dpsr Psr.ic = false ∧ s.nat r3 = false ∧ s.nat r2 = false ∧
    ((s.val r3).extractLsb' 0 8).toNat < Config.numDtr ∧ insertReserved (s.val r2) (s.impliedCr 21) = false ∧
    ppnUnimpl (s.val r2) = false ∧ unimplVa true (s.impliedCr 20) = false
  | .itrI _ r3 r2 => s.dpsr Psr.ic = false ∧ s.nat r3 = false ∧ s.nat r2 = false ∧
    ((s.val r3).extractLsb' 0 8).toNat < Config.numItr ∧ insertReserved (s.val r2) (s.impliedCr 21) = false ∧
    ppnUnimpl (s.val r2) = false ∧ unimplVa true (s.impliedCr 20) = false
  | .ptcL _ r3 r2 => s.nat r3 = false ∧ s.nat r2 = false ∧ purgeable ((s.val r2).extractLsb' 2 6).toNat = true ∧
    unimplVa true (s.val r3) = false
  | .ptcG _ r3 r2 => s.nat r3 = false ∧ s.nat r2 = false ∧ purgeable ((s.val r2).extractLsb' 2 6).toNat = true ∧
    unimplVa true (s.val r3) = false
  | .ptcGa _ r3 r2 => s.nat r3 = false ∧ s.nat r2 = false ∧ purgeable ((s.val r2).extractLsb' 2 6).toNat = true ∧
    unimplVa true (s.val r3) = false
  | .ptrD _ r3 r2 => s.nat r3 = false ∧ s.nat r2 = false ∧ purgeable ((s.val r2).extractLsb' 2 6).toNat = true ∧
    unimplVa true (s.val r3) = false
  | .ptrI _ r3 r2 => s.nat r3 = false ∧ s.nat r2 = false ∧ purgeable ((s.val r2).extractLsb' 2 6).toNat = true ∧
    unimplVa true (s.val r3) = false
  | .ptcE _ r3 => s.nat r3 = false
  | .tpa _ r1 r3 => r1 ≠ 0 ∧ s.nat r3 = false ∧ unimplVa true (s.val r3) = false
  | .tak _ r1 r3 => r1 ≠ 0 ∧ s.nat r3 = false
  | .thash _ r1 _ => r1 ≠ 0
  | .ttag _ r1 _ => r1 ≠ 0
  | .cover => True
  | _ => False

/-- A branch that is taken: the state its own effects leave, its target, whether it lowers the privilege level (30_encoding.md
R311, 41_cr_and_serialization_instructions.md R376, 43_memory_instructions.md R444, R445). -/
inductive TakenTo (s : State) : Instr → State → Word → Bool → Prop
  /-- br.cond and br.ret, indirect. -/
  | cond (qp b2 p wh d) : s.pred qp = true → TakenTo s (.brCond qp b2 p wh d) s (s.getBr b2) false
  | ret (qp b2 p wh d) : s.pred qp = true → TakenTo s (.brRet qp b2 p wh d) (retState s) (s.getBr b2)
      (decide (s.cpl.toNat < (pfsPpl (s.getAr 64)).toNat))
  /-- br.cond and br.cloop, IP-relative. -/
  | rel (qp imm p wh d) : s.pred qp = true →
      TakenTo s (.brRel (.cond qp imm p wh d)) s (s.ip + (imm.signExtend 64 <<< 4)) false
  | loop (imm p wh d) : s.getAr 65 ≠ 0 →
      TakenTo s (.brRel (.cloop imm p wh d)) (s.setAr 65 (s.getAr 65 - 1)) (s.ip + (imm.signExtend 64 <<< 4)) false
  /-- The failing checks, where they branch. -/
  | chkANcR (qp r imm) : s.pred qp = true → Config.chkBranches = true → s.alatHit false r = false →
      TakenTo s (.chkANcR qp r imm) s (s.ip + (imm.signExtend 64 <<< 4)) false
  | chkAClrR (qp r imm) : s.pred qp = true → Config.chkBranches = true → s.alatHit false r = false →
      TakenTo s (.chkAClrR qp r imm) s (s.ip + (imm.signExtend 64 <<< 4)) false
  | chkANcF (qp r imm) : s.pred qp = true → Config.chkBranches = true → s.alatHit true r = false →
      TakenTo s (.chkANcF qp r imm) s (s.ip + (imm.signExtend 64 <<< 4)) false
  | chkAClrF (qp r imm) : s.pred qp = true → Config.chkBranches = true → s.alatHit true r = false →
      TakenTo s (.chkAClrF qp r imm) s (s.ip + (imm.signExtend 64 <<< 4)) false
  | chkSM (qp r imm) : s.pred qp = true → Config.chkBranches = true → s.nat r = true →
      TakenTo s (.chkSM qp r imm) s (s.ip + (imm.signExtend 64 <<< 4)) false
  | chkSF (qp r imm) : s.pred qp = true → Config.chkBranches = true → FpEnabled s r → 2 ≤ r.toNat →
      s.getFr r = Config.natVal → TakenTo s (.chkSF qp r imm) s (s.ip + (imm.signExtend 64 <<< 4)) false

/-- An instruction that does not branch and raises nothing: the state its own effects leave. The no-operations, hints, fences,
brp and invala, the 32-bit pointer additions, and the moves of AR[CCV] (30_encoding.md
R316; 43_memory_instructions.md R444, R446 to R448, R456, R457; 41_cr_and_serialization_instructions.md R373). -/
inductive CompletesTo (s : State) : Instr → State → Prop
  | plain (i qp imm) : s.pred qp = true →
      i ∈ [Instr.nopM qp imm, .hintM qp imm, .nopI qp imm, .hintI qp imm, .nopB qp imm, .hintB qp imm, .mf qp, .mfA qp, .fwb qp] →
      CompletesTo s i s
  | brp (w) : CompletesTo s (.brRel (.brp w)) s
  | invala (qp) : s.pred qp = true → CompletesTo s (.invala qp) { s with alat := [] }
  | addp4 (qp r1 r2 r3) : s.pred qp = true → r1 ≠ 0 → CompletesTo s (.addp4 qp r1 r2 r3)
      (s.setGr r1 { val := addp4Val (s.val r2) (s.val r3), nat := s.nat r2 || s.nat r3 })
  | addp4Imm (qp r1 imm r3) : s.pred qp = true → r1 ≠ 0 → CompletesTo s (.addp4Imm qp r1 imm r3)
      (s.setGr r1 { val := addp4Val (simm imm) (s.val r3), nat := s.nat r3 })
  | shladdp4 (qp r1 r2 ct r3) : s.pred qp = true → r1 ≠ 0 → CompletesTo s (.shladdp4 qp r1 r2 ct r3)
      (s.setGr r1 { val := addp4Val (s.val r2 <<< (ct.toNat + 1)) (s.val r3), nat := s.nat r2 || s.nat r3 })
  /-- AR[CCV]. -/
  | toCcv (qp r2) : s.pred qp = true → s.nat r2 = false → CompletesTo s (.movToAr qp 32 r2) (s.setAr 32 (s.val r2))
  | fromCcv (qp r1) : s.pred qp = true → r1 ≠ 0 → CompletesTo s (.movFromAr qp r1 32) (s.setVal r1 (s.getAr 32))

/-- A page allows the reference by its protection key (21_memory_translation.md R250). -/
def KeyAllows (v : TransView) (ref : Ref) (e : TlbEntry) : Prop :=
  v.pk = true → matchingPkrs v.pkr e.key ≠ [] ∧
    ∀ w ∈ matchingPkrs v.pkr e.key, (ref.r = true → pkrDisables w .r = false) ∧ (ref.w = true → pkrDisables w .w = false)

/-- No check of an address and its translation stops the reference, which then goes to this physical address with this attribute:
with PSR.dt = 0 its own, by bit 63; with PSR.dt = 1 those of the one entry that matches (43_memory_instructions.md R421 steps 1 to
3, 20_memory.md R150, R161, 21_memory_translation.md R284). -/
def Mapped (s : State) (ref : Ref) (pa : Nat) (attr : Attr) : Prop :=
  ((s.dataView 0).dt = false ∧ unimplPa ref.va = false ∧ pa = ref.va.toNat % 2 ^ 63 ∧
    attr = if bit ref.va 63 then .uc else .wbl) ∨
  ((s.dataView 0).dt = true ∧ unimplVa s.vm ref.va = false ∧
    ∃ e, (s.dataView 0).tlb.lookup .data (rrRid ((s.dataView 0).rrOf ref.va)) ref.va = [e] ∧ e.p = true ∧ e.ma ≠ 7 ∧
      KeyAllows (s.dataView 0) ref e ∧
      (ref.r = true → rights e.ar e.pl ref.pl .r = true) ∧ (ref.w = true → rights e.ar e.pl ref.pl .w = true) ∧
      (ref.dirty = true → e.d = true ∨ s.psrNow Psr.da = true) ∧ (e.a = true ∨ s.psrNow Psr.da = true) ∧
      pa = e.pa ref.va ∧ attr = attrOf e.ma)

/-- A data breakpoint stops the reference: PSR.db = 1, PSR.dd = 0 and a match (60_exceptions.md R493; log entry 25). -/
def Breakpoint (s : State) (ref : Ref) : Prop :=
  (s.dataView 0).db = true ∧ s.psrNow Psr.dd = false ∧
    Config.dataBreak (s.dataView 0).dbr ref.first ref.size ref.r ref.w ref.pl = true

/-- The reference is not aligned, and that stops it: a semaphore; with PSR.ac = 1 any; with PSR.ac = 0 one that crosses 16 bytes, and
where the processor reports it (20_memory.md R143, D14). -/
def AlignmentStops (s : State) (ref : Ref) : Prop :=
  ref.va.toNat % ref.align ≠ 0 ∧
    (ref.strict = true ∨ s.dpsr Psr.ac = true ∨ 16 < ref.va.toNat % 16 + ref.size ∨
      Config.ac0MisalignedFaults ref.va ref.size = true)

/-- A page of the attribute does not support the access (20_memory.md R206 to R208). -/
def Unsupported : Support → Attr → Prop
  | .any, _ => False
  | .writeBackOnly, attr => attr.writeBack = false
  | .fetchadd, attr => attr.writeBack = false ∧ (attr = .uce → Config.supportsUce = false)
  | .tenByte, attr => attr.writeBack = false ∧ Config.supportsLdfeUncached = false

/-- The fault of a reference: vector and code, IFA its address, ITIR as given, ISR as the reference is. -/
def faultOf (ref : Ref) (off : Word) (code : BitVec 16) (itir : Option Word) : Exc :=
  { off := off, code := code, w := ref.w, r := ref.r, na := ref.na, sp := ref.sp, ifa := some ref.va, itir := itir
    codeFree := if ref.na then 0xF else 0 }

/-- The first fault of a reference is this one, and its search changed nothing. -/
def FaultsWith (s : State) (ref : Ref) (k : DFault) (e : Exc) : Prop :=
  ∃ c rest, checkRef s 0 ref = .ok c ∧ c.st = s ∧ c.faults = (k, e) :: rest

/-- The step begins with a fetch: nothing is owed or pending, no IA-32 code. -/
def Fetches (s : State) : Prop :=
  (s.mcOwed = false ∨ s.psrNow Psr.mc = true) ∧ s.palOwed = false ∧ s.psrNow Psr.is = false ∧ s.interruptPending = false

/-- A fault of the fetch: ISR.x is 1. -/
def fetchFault (off : Word) (code : BitVec 16) (ifa itir : Option Word) : Exc :=
  { off := off, code := code, x := true, ifa := ifa, itir := itir }

end Machine
end Sys2Proof
end

