-- ==== Sys2Proof/Certificates/Slice0/Obligations.lean ====
section
/-!
DEFINITION. The statements for the provers. A log entry <n> is notes/assumptions/<n>.md.
-/
open Sys2Proof Sys2Proof.Machine

/-! The machine: reset, memory, encoding, step. -/

/-- R68, as far as the spec fixes the state after reset: the hard-wired registers, and what is stated or decided (D8); and the
three invariants hold there (the model's reset values, log entries 1, 3 and 4). -/
def Obligations.ResetState : Prop :=
  State.reset.getGr 0 = { val := 0, nat := false } ∧ State.reset.getFr 0 = Config.frZero ∧
  State.reset.getFr 1 = Config.frOne ∧ State.reset.pred 0 = true ∧ State.reset.psrNow Psr.is = false ∧
  State.reset.cpl = 0 ∧ State.reset.psrNow Psr.it = false ∧ State.reset.dpsr Psr.dt = false ∧
  State.reset.dpsr Psr.rt = false ∧ State.reset.dpsr Psr.ic = false ∧ State.reset.dpsr Psr.i = false ∧
  (∀ i, i < 256 → rd State.reset.sys.itr i none = none ∧ rd State.reset.sys.dtr i none = none) ∧
  State.reset.sys.itcTlb = [] ∧ State.reset.sys.dtcTlb = [] ∧ State.reset.alat = [] ∧
  MemoryOk State.reset ∧ PsrClean State.reset ∧ PkrUnique State.reset

/-- Every step keeps the memory in its canonical form, the model's own (log entry 4). -/
def Obligations.MemoryOkKept : Prop := ∀ s t : State, MemoryOk s → step s = .next t → MemoryOk t

/-- Every step keeps the reserved PSR bits 0 (R333). -/
def Obligations.PsrCleanKept : Prop := ∀ s t : State, PsrClean s → step s = .next t → PsrClean t

/-- Every step keeps the valid protection keys unique (R249). -/
def Obligations.PkrUniqueKept : Prop := ∀ s t : State, PkrUnique s → step s = .next t → PkrUnique t

/-- Decoding what the encoder writes gives the instruction back, for every instruction with every operand. -/
def Obligations.DecodeEncode : Prop :=
  ∀ i : Instr, i.WF → decodeSlot i.unitOf (encodeL i) (encodeWord i) = .ok i

/-- A few words of the encoding tables decode to the instructions they stand for. -/
def Obligations.DecodeWords : Prop :=
  decodeSlot .m 0 0x00030180000 = .ok (.ssm 0 0x6000) ∧
  decodeSlot .m 0 0x02161304000 = .ok (.movToCr 0 19 2) ∧
  decodeSlot .m 0 0x080C0300040 = .ok (.ld8 0 1 3 0) ∧
  decodeSlot .b 0 0x00040000000 = .ok .rfi ∧
  decodeSlot .m 0 0x10040304040 = .ok (.addp4 0 1 2 3) ∧
  decodeSlot .m 0 0x021A0300000 = .ok (.ptcE 0 3) ∧
  decodeSlot .m 0 0x08488306040 = .ok (.fetchadd4Acq 0 1 3 3 0)

/-- Loads and stores: a store of n bytes reads back as the bytes stored, in either byte order, and every other byte is as
before (R141). -/
def Obligations.StoreReadsBack : Prop :=
  ∀ (be : Bool) (m : List Host.Cell) (a n v : Nat), Memory.wf m = true →
    readBytes be (writeList m a (valBytes be n v)) a n = v % 256 ^ n ∧
    ∀ x, inBytes a n x = false → readByte (writeList m a (valBytes be n v)) x = readByte m x

/-- The bytes at the fetch address decode to an instruction that does not break the rules of its group: the step is that
instruction in the state the fetch leaves, and then what happens by itself. Translation is off, or the instruction TLB holds a
usable translation (R31, R280, R284). A fetch uses its lines with the coherence class of its page (log entry 56). A fetch that
depends on what a srlz.i of its own group is to serialize is undefined, whatever it would find (70 R560 (a); log entry 38). -/
def Obligations.StepRunsDecoded : Prop :=
  (∀ s : State, Fetches s → unimplInstr s s.ip = false → s.fetchesEarly = true → step s = .refused .dependencyViolation) ∧
  ∀ (s u v : State) (pa : Nat) (attr : Attr) (info : SlotInfo) (i : Instr), Fetches s →
    unimplInstr s s.ip = false → s.fetchesEarly = false → (s.fetchView 0).db = false →
    (s.psrNow Psr.it = false ∧ pa = s.ip.toNat % 2 ^ 63 ∧ attr = (if bit s.ip 63 then .uc else .wbl) ∧
        u = { s with ctx := Ctx.none } ∨
      s.psrNow Psr.it = true ∧ ∃ e u',
        searchTlb { s with ctx := Ctx.none } (s.fetchView 0) (s.fetchView 100) .instr s.ip = .found e u' ∧
        (∀ c ∈ instrFaults s (s.fetchView 0) e, c.1 = false) ∧ pa = e.pa s.ip ∧ attr = attrOf e.ma ∧
        u = { u' with ctx := { Ctx.none with translated := true, ed := e.ed, ar := e.ar, pl := e.pl } }) →
    s.slot ≠ 3 → Ordinary u attr pa 16 → (∀ a, inBytes pa 16 a = true → staleValues u.stale a = []) →
    decodeBundleSlot (BitVec.ofNat 128 (leVal (readList s.mem pa 16))) s.slot.toNat = some info →
    info.result = .ok i → info.mlxTail = false → (i.mustEndGroup = true → info.stop = true) →
    v = { u.touch attr pa 16 with ctx := { u.ctx with mlx := info.mlx, stopAfter := info.stop } } →
    (v.pred info.qp = true → i.breaksGroup v = false) →
    step s = ticked (exec i (if v.pred info.qp then { v with groupRegs := i.tagsWritten v ++ v.groupRegs } else v))

/-! Interruptions. -/

/-- R500 and R61, taking an interruption with PSR.ic = 1 and nothing in flight: the interruption registers are written, ISR
describes the event, the PSR changes as R61 says, execution goes on at the vector; the other registers and memory stay. -/
def Obligations.InterruptionEntry : Prop :=
  ∀ (s : State) (e : Exc) (iip : Word) (ri ei : BitVec 2), Settled s → s.psrNow Psr.ic = true →
    ivaBad s (s.sys.getCr 2 &&& 0xFFFFFFFFFFFF8000) = false →
    ∃ t, deliver s e iip ri ei = .next t ∧
      t.sys.getCr 16 = setField s.sys.psr Psr.riLo ri ∧ t.sys.getCr 19 = iip ∧ t.sys.getCr 22 = s.lastBundle ∧
      bit (t.sys.getCr 23) 63 = false ∧
      (∀ v, e.ifa = some v → t.sys.getCr 20 = v) ∧ (∀ v, e.itir = some v → t.sys.getCr 21 = v) ∧
      (∀ v, e.iim = some v → t.sys.getCr 24 = v) ∧ (∀ v, e.iha = some v → t.sys.getCr 25 = v &&& ~~~3#64) ∧
      (e.codeFree = 0 → t.sys.getCr 17 = isrWord e.code e.x e.w e.r e.na e.sp false (s.ctx.translated && s.ctx.ed) ei) ∧
      (∀ n < 64, bit t.sys.psr n =
        if n = Psr.be then bit (s.sys.getCr 0) 1 else if n = Psr.pp then bit (s.sys.getCr 0) 0
        else if n = Psr.up ∨ n = Psr.mfl ∨ n = Psr.mfh ∨ n = Psr.pk ∨ n = Psr.dt ∨ n = Psr.rt ∨ n = Psr.mc ∨ n = Psr.it
          then bit s.sys.psr n
        else false) ∧
      t.ip = (s.sys.getCr 2 &&& 0xFFFFFFFFFFFF8000) ||| e.off ∧ t.slot = 0 ∧
      (∀ n, n < 16 ∨ n = 18 ∨ 25 < n → t.sys.getCr n = s.sys.getCr n) ∧
      t.cfm = s.cfm ∧ t.lastBundle = s.lastBundle ∧ Settled t ∧ Undisturbed s t

/-- R487, R500: with PSR.ic = 0 no interruption register but ISR is written; a data TLB miss then writes not even ISR and
goes to the Data Nested TLB vector. -/
def Obligations.InterruptionEntryNotCollected : Prop :=
  ∀ (s : State) (e : Exc) (iip : Word) (ri ei : BitVec 2), Settled s → s.psrNow Psr.ic = false →
    ivaBad s (s.sys.getCr 2 &&& 0xFFFFFFFFFFFF8000) = false →
    ∃ t, deliver s e iip ri ei = .next t ∧ (∀ n, n ≠ 17 → t.sys.getCr n = s.sys.getCr n) ∧
      (if e.dataMiss then t.sys.getCr 17 = s.sys.getCr 17 ∧ t.ip = (s.sys.getCr 2 &&& 0xFFFFFFFFFFFF8000) ||| 0x1400
       else (e.codeFree = 0 → t.sys.getCr 17 = isrWord e.code e.x e.w e.r e.na e.sp true (s.ctx.translated && s.ctx.ed) ei) ∧
         t.ip = (s.sys.getCr 2 &&& 0xFFFFFFFFFFFF8000) ||| e.off) ∧
      t.slot = 0 ∧ bit t.sys.psr Psr.ic = false ∧ bit t.sys.psr Psr.i = false ∧ bit t.sys.psr Psr.bn = false ∧
      psrCpl t.sys.psr = 0 ∧ t.cfm = s.cfm ∧ t.lastBundle = s.lastBundle ∧ Settled t ∧ Undisturbed s t

/-- R514: at a boundary where an external interrupt is pending, the step is its delivery at 0x3000, with the next
instruction as the restart point, or, while the processor does not take it yet, the next instruction. When it is taken is
free, but an interrupt that has waited for more than a fixed number of boundaries is taken (log entry 19); every boundary at
which it is pending counts. -/
def Obligations.ExternalInterruptTaken : Prop :=
  (∀ s : State, (s.mcOwed = false ∨ s.psrNow Psr.mc = true) → s.palOwed = false → s.psrNow Psr.is = false →
    s.interruptPending = true →
    step s = ticked (if Config.freeBit .takeInterrupt s.tick = true ∨ Config.maxLatency < s.waited
      then deliver { s with ctx := Ctx.none } { off := 0x3000 } s.ip s.slot s.slot else withFetched s exec)) ∧
  (∀ s : State, (tickOver s).waited = if (tickOver s).interruptPending then s.waited + 1 else 0)

/-- R343: rfi at level 0 restores the whole PSR from IPSR, CFM from a valid IFS, and goes on at IIP with its low bits
ignored, in the slot IPSR.ri names; everything is serialized. To IA-32 code it clears ed and ia (R59 note l), goes to the low 32
bits of IIP, and is undefined in the states of 70 R562, as is a restart slot of 3 (70 R562, 5). After the return it takes the
Unimplemented Instruction Address trap, and with PSR.ss = 1 before it the Single Step trap, but no other (R59, R56, R497; log
entry 35). A reserved bit that is set in IPSR raises Reserved Register/Field (R343, R479), and a change of PSR.rt outside enforced
lazy mode is undefined (70 R562, 4). That an rfi with PSR.ic = 1 returns like any other (R343 lets a model refuse it) is the model's choice (log entry
33). -/
def Obligations.RfiReturns : Prop :=
  (∀ s : State, Settled s → s.cpl = 0 →
    (psrReservedSet (s.sys.getCr 16) = true → exec .rfi s = raise s excReservedField) ∧
    (psrReservedSet (s.sys.getCr 16) = false → s.vm = false → rtChanges s (s.sys.getCr 16) = true →
      exec .rfi s = .refused .rtChange)) ∧
  ∀ (s : State) (uia : Bool), Settled s → s.cpl = 0 → psrReservedSet (s.sys.getCr 16) = false → s.vm = false →
    rtChanges s (s.sys.getCr 16) = false →
    (bit (s.sys.getCr 16) Psr.is = false → field (s.sys.getCr 16) 41 2 = (3 : BitVec 2) →
      exec .rfi s = .refused .reservedRestartSlot) ∧
    (bit (s.sys.getCr 16) Psr.is = false → field (s.sys.getCr 16) 41 2 ≠ (3 : BitVec 2) →
      uia = (if bit (s.sys.getCr 16) Psr.it then unimplVa (bit (s.sys.getCr 16) Psr.vm && Config.hasPsrVm) (s.sys.getCr 19 &&& ~~~15#64)
        else unimplPa (s.sys.getCr 19 &&& ~~~15#64)) →
      ∃ t, t.sys.psr = s.sys.getCr 16 ∧ t.ip = s.sys.getCr 19 &&& ~~~15#64 ∧ t.slot = field (s.sys.getCr 16) 41 2 ∧
        t.cfm = (if bit (s.sys.getCr 23) 63 then (s.sys.getCr 23).extractLsb' 0 38 else s.cfm) ∧
        t.lastBundle = (if s.psrNow Psr.ic then s.ip else s.lastBundle) ∧
        t.sys.cr = s.sys.cr ∧ Settled t ∧ Undisturbed s t ∧
        (uia = false → s.psrNow Psr.ss = false → exec .rfi s = .next t) ∧
        (uia = true ∨ s.psrNow Psr.ss = true →
          exec .rfi s = deliver t
            { off := if uia then 0x5E00 else 0x6000
              code := (if s.psrNow Psr.ss then 8 else 0) ||| (if uia then 16 else 0) }
            (if uia then (if Config.rfiLeavesIip then s.sys.getCr 19 else uiaIip t t.ip) else t.ip) t.slot
            (if s.ctx.mlx then 2 else s.slot))) ∧
    (bit (s.sys.getCr 16) Psr.is = true →
      if bit (s.sys.getCr 16) Psr.ic = true ∧ bit (s.sys.getCr 16) Psr.dt = true ∧ bit (s.sys.getCr 16) Psr.it = true ∧
          bit (s.sys.getCr 16) Psr.mc = false then
        ∃ t, t.sys.psr = s.sys.getCr 16 &&& ~~~(1#64 <<< 43 ||| 1#64 <<< 45) ∧
          t.ip = ((s.sys.getCr 19).extractLsb' 0 32).setWidth 64 ∧ t.slot = 0 ∧
          t.cfm = (if bit (s.sys.getCr 23) 63 then (s.sys.getCr 23).extractLsb' 0 38 else s.cfm) ∧
          t.sys.cr = s.sys.cr ∧ Settled t ∧ Undisturbed s t ∧
          (s.psrNow Psr.ss = false → exec .rfi s = .next t) ∧
          (s.psrNow Psr.ss = true →
            exec .rfi s = deliver t { off := 0x6000, code := 8 } t.ip 0 (if s.ctx.mlx then 2 else s.slot))
      else exec .rfi s = .refused .ia32EntryUndefined)

/-- R477, R476, R347: a privileged instruction, vmsw among them, never has its effect at another level than 0: it raises
Privileged Operation, or an Illegal Operation of its operands. -/
def Obligations.PrivilegedOnlyAtLevelZero : Prop :=
  ∀ (i : Instr) (s : State), (privileged i = true ∨ i = .vmsw0 ∨ i = .vmsw1) → s.pred (qpOf i) = true → s.cpl ≠ 0 →
    ∃ e, exec i s = raise s e ∧ e.off = 0x5400 ∧ (e.code = 0x10 ∨ e.code = 0x00)

/-- R520: with PSR.vm = 1, on a processor that has it, a virtualized instruction at level 0 that its operands let run raises
the Virtualization fault, the ones that are not privileged too: thash, ttag, mov from cpuid, cover, a read of ITC with
PSR.si = 1, a write of ITC; and no privileged instruction ever has its effect, at any level and with any operands (what a
non-access instruction reports in ISR besides is log entries 32 and 54). -/
def Obligations.VirtualizedPrivileged : Prop :=
  ∀ (i : Instr) (s : State), s.pred (qpOf i) = true → s.psrNow Psr.vm = true → Config.hasPsrVm = true →
    (s.cpl = 0 → virtualReady s i →
      exec i s = raise s excVirtualization ∨ exec i s = raise s excVirtualization.nonAccess) ∧
    (privileged i = true → ∃ e, exec i s = raise s e ∧ (e.off = 0x6100 ∨ e.off = 0x5400 ∨ e.off = 0x5600))

/-- R15, R317: with a false predicate an instruction does nothing and completes. -/
def Obligations.FalsePredicateDoesNothing : Prop :=
  ∀ (i : Instr) (s : State), s.pred (qpOf i) = false → Quiet s → ∃ t, exec i s = .next t ∧ Frame {} s t

/-- R377: break takes the Break Instruction fault; IIM is the zero-extended immediate, 0 for break.b (R496). With PSR.ic = 1 and
nothing in flight it completes at its vector with IIM, IIP and IPSR (R500). -/
def Obligations.Breaks : Prop :=
  ∀ (i : Instr) (imm : Word) (s : State),
    ((∃ qp k, (i = .breakM qp k ∨ i = .breakI qp k ∨ i = .breakFX qp (.f k)) ∧ imm = k.setWidth 64) ∨
      (∃ qp k, i = .breakFX qp (.x k) ∧ imm = k.setWidth 64) ∨ (∃ qp k, i = .breakB qp k ∧ imm = 0)) →
    s.pred (qpOf i) = true →
    exec i s = deliver s { off := 0x2C00, iim := some imm } s.ip s.slot s.slot ∧
    (Settled s → s.psrNow Psr.ic = true → ivaBad s (s.sys.getCr 2 &&& 0xFFFFFFFFFFFF8000) = false →
      ∃ t, exec i s = .next t ∧ t.sys.getCr 24 = imm ∧ t.sys.getCr 19 = s.ip ∧
        t.sys.getCr 16 = setField s.sys.psr Psr.riLo s.slot ∧
        t.ip = (s.sys.getCr 2 &&& 0xFFFFFFFFFFFF8000) ||| 0x2C00 ∧ t.slot = 0 ∧
        bit t.sys.psr Psr.ic = false ∧ psrCpl t.sys.psr = 0 ∧ t.cfm = s.cfm ∧ Settled t ∧ Undisturbed s t)

/-! The plain instructions. -/

/-- R316, R446, R447, R448: the no-operations, hints, fences and brp complete and change nothing. -/
def Obligations.HintsAndFencesComplete : Prop :=
  ∀ (qp : BitVec 6) (imm : BitVec 21) (w : BitVec 37) (s : State) (i : Instr), Quiet s →
    i ∈ [Instr.nopM qp imm, .hintM qp imm, .nopI qp imm, .hintI qp imm, .nopB qp imm, .hintB qp imm, .mf qp, .mfA qp,
      .fwb qp, .brRel (.brp w)] →
    ∃ t, exec i s = .next t ∧ Frame {} s t

/-- R456, R457: the 32-bit pointer additions: bits 62:61 from the base, the 32-bit sum below, zeros elsewhere; the NaT bit of
either source; GR0 as the target is an Illegal Operation fault. -/
def Obligations.PointerAdds : Prop :=
  ∀ (qp : BitVec 6) (r1 r2 r3 : BitVec 7) (ct : BitVec 2) (imm : BitVec 14) (s : State), s.pred qp = true →
    (r1 = 0 → exec (.addp4 qp r1 r2 r3) s = raise s excIllegalOperation ∧
      exec (.addp4Imm qp r1 imm r3) s = raise s excIllegalOperation ∧
      exec (.shladdp4 qp r1 r2 ct r3) s = raise s excIllegalOperation) ∧
    (r1 ≠ 0 → Quiet s →
      (∃ t, exec (.addp4 qp r1 r2 r3) s = .next t ∧
        t.getGr r1 =
          { val := 0#1 ++ (s.val r3).extractLsb' 30 2 ++ 0#29 ++ (s.val r2 + s.val r3).extractLsb' 0 32
            nat := s.nat r2 || s.nat r3 } ∧ Frame { gr := [r1] } s t) ∧
      (∃ t, exec (.addp4Imm qp r1 imm r3) s = .next t ∧
        t.getGr r1 =
          { val := 0#1 ++ (s.val r3).extractLsb' 30 2 ++ 0#29 ++ (imm.signExtend 64 + s.val r3).extractLsb' 0 32
            nat := s.nat r3 } ∧ Frame { gr := [r1] } s t) ∧
      (∃ t, exec (.shladdp4 qp r1 r2 ct r3) s = .next t ∧
        t.getGr r1 =
          { val := 0#1 ++ (s.val r3).extractLsb' 30 2 ++ 0#29 ++
              ((s.val r2 <<< (ct.toNat + 1)) + s.val r3).extractLsb' 0 32
            nat := s.nat r2 || s.nat r3 } ∧ Frame { gr := [r1] } s t))

/-! The PSR. -/

/-- R336, R337, R338: sum, rum and mov psr.um set, reset and write the user mask bits 5:1, bit 2 only while PSR.sp is 0; a
value outside them is a Reserved Register/Field fault, a NaT source a Register NaT Consumption (R333, R334). That the data
references of the same instruction group see the new mask at once is the model's choice (log entry 7): R332 and R38 ensure it
for subsequent groups only. For the fetch, whose monitoring sees PSR.up, the old resources stay in flight where that bit changes
(R38 note b, log entry 7). -/
def Obligations.UserMaskWrites : Prop :=
  ∀ (qp : BitVec 6) (imm : BitVec 24) (r2 : BitVec 7) (s : State), s.pred qp = true →
    (imm.setWidth 64 &&& ~~~0x3E#64 ≠ 0 → exec (.sum qp imm) s = raise s excReservedField ∧
      exec (.rum qp imm) s = raise s excReservedField) ∧
    (s.nat r2 = true → exec (.movToUm qp r2) s = raise s { off := 0x5600, code := 0x10 }) ∧
    (s.nat r2 = false → s.val r2 &&& ~~~0x3E#64 ≠ 0 → exec (.movToUm qp r2) s = raise s excReservedField) ∧
    (imm.setWidth 64 &&& ~~~0x3E#64 = 0 → Quiet s →
      (∃ t, exec (.sum qp imm) s = .next t ∧
        Frame { psr := 0x3E, fetch := bit t.sys.psr 2 != bit s.sys.psr 2, oldPsr := 0x3E } s t ∧
        (bit t.sys.psr 2 ≠ bit s.sys.psr 2 → ∃ y ∈ t.fetchOld, bit y.psr 2 = bit s.sys.psr 2) ∧
        ∀ n < 6, bit t.sys.psr n = (bit s.sys.psr n || (imm.getLsbD n && (n != 2 || !s.dpsr Psr.sp)))) ∧
      (∃ t, exec (.rum qp imm) s = .next t ∧
        Frame { psr := 0x3E, fetch := bit t.sys.psr 2 != bit s.sys.psr 2, oldPsr := 0x3E } s t ∧
        (bit t.sys.psr 2 ≠ bit s.sys.psr 2 → ∃ y ∈ t.fetchOld, bit y.psr 2 = bit s.sys.psr 2) ∧
        ∀ n < 6, bit t.sys.psr n = (bit s.sys.psr n && !(imm.getLsbD n && (n != 2 || !s.dpsr Psr.sp))))) ∧
    (s.nat r2 = false → s.val r2 &&& ~~~0x3E#64 = 0 → Quiet s →
      ∃ t, exec (.movToUm qp r2) s = .next t ∧
        Frame { psr := 0x3E, fetch := bit t.sys.psr 2 != bit s.sys.psr 2, oldPsr := 0x3E } s t ∧
        (bit t.sys.psr 2 ≠ bit s.sys.psr 2 → ∃ y ∈ t.fetchOld, bit y.psr 2 = bit s.sys.psr 2) ∧
        ∀ n, 1 ≤ n → n < 6 → bit t.sys.psr n =
          (if n = 2 ∧ s.dpsr Psr.sp = true then bit s.sys.psr n else bit (s.val r2) n))

/-- R340, R344, R333: ssm and rsm at level 0 set and reset PSR bits 23:0 by the immediate; the old values stay in flight, but
for a PSR.i that rsm clears: no consumer sees it 1 any more. A reserved bit in the immediate is a Reserved Register/Field
fault. -/
def Obligations.SystemMaskWrites : Prop :=
  ∀ (qp : BitVec 6) (imm : BitVec 24) (s : State), s.pred qp = true → s.cpl = 0 →
    (imm.setWidth 64 &&& 0x11FC1#64 ≠ 0 →
      exec (.ssm qp imm) s = raise s excReservedField ∧ exec (.rsm qp imm) s = raise s excReservedField) ∧
    (imm.setWidth 64 &&& 0x11FC1#64 = 0 → s.vm = false → Quiet s →
      (∃ t, exec (.ssm qp imm) s = .next t ∧ t.sys.psr = clearOneShot (s.sys.psr ||| imm.setWidth 64) ∧
        s.sys.onPsr clearOneShot ∈ t.dataOld ∧ s.sys.onPsr clearOneShot ∈ t.fetchOld ∧
        Frame { psr := 0xFFFFFF, data := true, fetch := true } s t) ∧
      (∃ t, exec (.rsm qp imm) s = .next t ∧ t.sys.psr = clearOneShot (s.sys.psr &&& ~~~(imm.setWidth 64)) ∧
        (∃ y, (∀ n, n ≠ Psr.i → bit y.psr n = bit (clearOneShot s.sys.psr) n) ∧ y ∈ t.dataOld ∧ y ∈ t.fetchOld) ∧
        (imm.getLsbD Psr.i = true → t.interruptPending = false) ∧
        Frame { psr := 0xFFFFFF, data := true, fetch := true, oldPsr := if imm.getLsbD Psr.i then 1#64 <<< Psr.i else 0 } s t))

/-- R345, R346, R339: mov psr.l at level 0 writes PSR bits 31:0; mov = psr, at level 0, returns bits 36:35 and 31:0 and zeros
elsewhere, mov = psr.um bits 5:1; GR0 as the target is an Illegal Operation fault, reserved bits of a new value a Reserved
Register/Field fault (R333, R335). A new PSR.rt outside enforced lazy mode is undefined (70 R562). That both reads always see a
PSR.mfl or PSR.mfh that an instruction of their own group has set is the model's choice (log entry 7): R339 lets either outcome
be seen. That the old value of a mov psr.l stays in flight is the model's (log entry 7). A NaT source of mov psr.l is Register
NaT Consumption (R480). -/
def Obligations.PsrMoves : Prop :=
  ∀ (qp : BitVec 6) (r1 r2 : BitVec 7) (s : State), s.pred qp = true →
    (Quiet s → s.cpl = 0 → s.nat r2 = false → s.val r2 &&& 0xF0011FC1#64 = 0 → s.vm = false →
      rtChanges s (s.val r2) = false →
      ∃ t, exec (.movToPsrL qp r2) s = .next t ∧ t.sys.psr.extractLsb' 0 32 = (s.val r2).extractLsb' 0 32 ∧
        s.sys.onPsr clearOneShot ∈ t.dataOld ∧ Frame { psr := 0xFFFFFFFF, data := true, fetch := true } s t) ∧
    (s.cpl = 0 → s.nat r2 = true → exec (.movToPsrL qp r2) s = raise s { off := 0x5600, code := 0x10 }) ∧
    (s.cpl = 0 → s.nat r2 = false → s.val r2 &&& 0xF0011FC1#64 ≠ 0 → exec (.movToPsrL qp r2) s = raise s excReservedField) ∧
    (s.cpl = 0 → s.nat r2 = false → s.val r2 &&& 0xF0011FC1#64 = 0 → s.vm = false → rtChanges s (s.val r2) = true →
      exec (.movToPsrL qp r2) s = .refused .rtChange) ∧
    (r1 = 0 → exec (.movFromPsr qp r1) s = raise s excIllegalOperation ∧
      exec (.movFromUm qp r1) s = raise s excIllegalOperation) ∧
    (r1 ≠ 0 → s.cpl ≠ 0 → exec (.movFromPsr qp r1) s = raise s excPrivilegedOperation) ∧
    (r1 ≠ 0 → s.cpl = 0 → s.vm = true → exec (.movFromPsr qp r1) s = raise s excVirtualization) ∧
    (Quiet s → s.cpl = 0 → r1 ≠ 0 → s.vm = false →
      ∃ t, exec (.movFromPsr qp r1) s = .next t ∧
        t.getGr r1 = { val := s.sys.psr &&& 0x18FFFFFFFF, nat := false } ∧ Frame { gr := [r1] } s t) ∧
    (Quiet s → r1 ≠ 0 → ∃ t, exec (.movFromUm qp r1) s = .next t ∧
      t.getGr r1 = { val := s.sys.psr &&& 0x3E, nat := false } ∧ Frame { gr := [r1] } s t)

/-- R341, R342: bsw at level 0 with PSR.vm = 0 selects the bank, which no register but PSR.bn shows, and GR16 to GR31 name the
bank's; with the bank selected already it changes nothing; at another level it raises Privileged Operation, with PSR.vm = 1
Virtualization; it must be the last of its instruction group, and is undefined elsewhere. -/
def Obligations.BankSwitches : Prop :=
  ∀ s : State,
    (s.cpl ≠ 0 → exec .bsw0 s = raise s excPrivilegedOperation ∧ exec .bsw1 s = raise s excPrivilegedOperation) ∧
    (s.cpl = 0 → s.vm = true → exec .bsw0 s = raise s excVirtualization ∧ exec .bsw1 s = raise s excVirtualization) ∧
    (s.ctx.stopAfter = false → ∀ qp k, withGroup .bsw0 qp s k = .refused .lastInGroup ∧
      withGroup .bsw1 qp s k = .refused .lastInGroup) ∧
    (s.cpl = 0 → s.vm = false → Quiet s →
      (∃ t, exec .bsw0 s = .next t ∧ t.gr = s.gr ∧ bit t.sys.psr Psr.bn = false ∧
        (∀ r : BitVec 7, 16 ≤ r.toNat → r.toNat < 32 → t.getGr r = rd s.gr (r.toNat + 112) { val := 0, nat := false }) ∧
        Frame { psr := 1#64 <<< 44 } s t ∧ (s.psrNow Psr.bn = false → Settled s → Frame {} s t)) ∧
      (∃ t, exec .bsw1 s = .next t ∧ t.gr = s.gr ∧ bit t.sys.psr Psr.bn = true ∧
        (∀ r : BitVec 7, 16 ≤ r.toNat → r.toNat < 32 → t.getGr r = rd s.gr r.toNat { val := 0, nat := false }) ∧
        Frame { psr := 1#64 <<< 44 } s t ∧ (s.psrNow Psr.bn = true → Settled s → Frame {} s t)))

/-- R347: vmsw at level 0 on a page with access rights 7 writes PSR.vm, where the implementation has that bit and its
firmware has enabled the instruction; else it raises Illegal Operation, or Virtualization, as it does on another page. -/
def Obligations.VirtualMachineSwitch : Prop :=
  ∀ s : State, s.cpl = 0 → s.psrNow Psr.ss = false → unimplVa true s.ip = false →
    (lastSlot s = true → s.ip + 16 ≠ 0 ∧ ∀ vm, unimplVa vm (s.ip + 16) = false) →
    if Config.hasPsrVm = false then
      exec .vmsw0 s = raise s excIllegalOperation ∧ exec .vmsw1 s = raise s excIllegalOperation
    else if Config.vmswEnabled = false ∨ s.psrNow Psr.it = false ∨ s.ctx.ar ≠ 7 then
      exec .vmsw0 s = raise s excVirtualization ∧ exec .vmsw1 s = raise s excVirtualization
    else
      (∃ t, exec .vmsw0 s = .next t ∧ bit t.sys.psr Psr.vm = false ∧ Frame { psr := 1#64 <<< 46 } s t) ∧
      (∃ t, exec .vmsw1 s = .next t ∧ bit t.sys.psr Psr.vm = true ∧ Frame { psr := 1#64 <<< 46 } s t)

/-- R375: epc promotes on a page with access rights 7 to its level, never demotes; in physical mode it goes to level 0; a
PFS.ppl more privileged than the current level is an Illegal Operation fault. -/
def Obligations.EpcPromotes : Prop :=
  ∀ s : State,
    ((pfsPpl (s.getAr Ar.pfs)).toNat < s.cpl.toNat → exec .epc s = raise s excIllegalOperation) ∧
    (Quiet s → s.dataWrites = 0 → s.cpl.toNat ≤ (pfsPpl (s.getAr Ar.pfs)).toNat →
      ∃ t, exec .epc s = .next t ∧
        Frame { psr := 3#64 <<< 32
                data := !s.psrNow Psr.it || (s.ctx.ar == 7 && decide (s.ctx.pl.toNat < s.cpl.toNat))
                fetch := !s.psrNow Psr.it || (s.ctx.ar == 7 && decide (s.ctx.pl.toNat < s.cpl.toNat)) } s t ∧
        psrCpl t.sys.psr =
          if s.psrNow Psr.it then (if s.ctx.ar = 7 ∧ s.ctx.pl.toNat < s.cpl.toNat then s.ctx.pl else s.cpl) else 0)

/-- R372: cover saves CFM in IFS when PSR.ic is 0, and CFM becomes 0; clrrrb and clrrrb.pr clear rename bases
(log entry 13). -/
def Obligations.FrameMarker : Prop :=
  ∀ s : State, Quiet s →
    ((s.vm = false ∨ s.cpl ≠ 0) → ∃ t, exec .cover s = .next t ∧ t.cfm = 0 ∧
      t.sys.getCr 23 = (if s.dpsr Psr.ic then s.sys.getCr 23 else (1#64 <<< 63) ||| s.cfm.setWidth 64) ∧
      Frame { cfm := true, cr := [23] } s t) ∧
    (∃ t, exec .clrrrb s = .next t ∧ t.cfm = 0#20 ++ s.cfm.extractLsb' 0 18 ∧ Frame { cfm := true } s t) ∧
    (∃ t, exec .clrrrbPr s = .next t ∧ t.cfm = 0#6 ++ s.cfm.extractLsb' 0 32 ∧ Frame { cfm := true } s t)

/-! Branches. -/

/-- R311, R497: the indirect and the IP-relative branch go to their targets; the counted loop branch goes there while LC is
not 0 and counts down (PRESUMED, log entry 37). -/
def Obligations.BranchesTaken : Prop :=
  ∀ (qp : BitVec 6) (b2 : BitVec 3) (imm : BitVec 21) (p : BitVec 1) (wh : BitVec 2) (d : BitVec 1) (s : State),
    s.pred qp = true →
    (QuietBranch s (s.getBr b2) → ∃ t, exec (.brCond qp b2 p wh d) s = .next t ∧
      t.ip = s.getBr b2 &&& ~~~15#64 ∧ t.slot = 0 ∧ Frame { jump := true } s t) ∧
    (QuietBranch s (s.ip + (imm.signExtend 64 <<< 4)) → ∃ t, exec (.brRel (.cond qp imm p wh d)) s = .next t ∧
      t.ip = (s.ip + (imm.signExtend 64 <<< 4)) &&& ~~~15#64 ∧ t.slot = 0 ∧ Frame { jump := true } s t) ∧
    (QuietBranch s (s.ip + (imm.signExtend 64 <<< 4)) → s.getAr 65 ≠ 0 →
      ∃ t, exec (.brRel (.cloop imm p wh d)) s = .next t ∧ t.getAr 65 = s.getAr 65 - 1 ∧
        t.ip = (s.ip + (imm.signExtend 64 <<< 4)) &&& ~~~15#64 ∧ t.slot = 0 ∧ Frame { ar := [65], jump := true } s t) ∧
    (Quiet s → s.getAr 65 = 0 → ∃ t, exec (.brRel (.cloop imm p wh d)) s = .next t ∧ Frame {} s t)

/-- R376: br.ret goes to its target, restores CFM and EC from PFS, and lowers the privilege level to PFS.ppl, never raises
it. The places in PFS are PRESUMED (log entry 11). -/
def Obligations.ReturnBranch : Prop :=
  ∀ (qp : BitVec 6) (b2 : BitVec 3) (p : BitVec 1) (wh : BitVec 2) (d : BitVec 1) (s : State), s.pred qp = true →
    QuietBranch s (s.getBr b2) → s.dpsr Psr.lp = false → Settled s →
    ∃ t, exec (.brRet qp b2 p wh d) s = .next t ∧ t.ip = s.getBr b2 &&& ~~~15#64 ∧ t.slot = 0 ∧
      t.cfm = pfsPfm (s.getAr 64) ∧ t.getAr 66 = (pfsPec (s.getAr 64)).setWidth 64 ∧
      psrCpl t.sys.psr = (if s.cpl.toNat < (pfsPpl (s.getAr 64)).toNat then pfsPpl (s.getAr 64) else s.cpl) ∧
      Frame { cfm := true, ar := [66], psr := 3#64 <<< 32, jump := true } s t

/-- R497, R505: after it has completed, a taken branch takes the traps that apply, at the vector of the highest and with a code
bit for each: Unimplemented Instruction Address at its target, Lower-Privilege Transfer (PSR.lp, where it lowered the level),
Taken Branch (PSR.tb), Single Step (PSR.ss); the restart point is the target, ISR names the branch's slot. An instruction that
its predicate turns off, and one that completes without a branch, take the Single Step trap, and the Unimplemented Instruction
Address trap of sequential flow where the processor reports it so; past the last bundle of the address space IP does not silently
wrap (R31): that trap, or the fault of the fetch that follows (which one with PSR.ss = 1, and that the fault comes with the
instruction, is log entry 35). This is shown of the no-operations, hints and fences, invala, the pointer additions and the moves
of AR[CCV]. br.ia takes the Taken Branch and the Single Step trap (log entry 45). -/
def Obligations.BranchTraps : Prop :=
  (∀ (i : Instr) (s u v : State) (target : Word) (lowered uia : Bool) (code : BitVec 16), TakenTo s i u target lowered →
    v = branched s u target → uia = unimplInstr v v.ip →
    code = (if s.dpsr Psr.lp && lowered then 2 else 0) ||| (if s.dpsr Psr.tb then 4 else 0) |||
      (if s.psrNow Psr.ss then 8 else 0) ||| (if uia then 16 else 0) →
    v.ip = target &&& ~~~15#64 ∧
    exec i s =
      if code = 0 then .next v
      else deliver v
        { off := if uia || (s.dpsr Psr.lp && lowered) then 0x5E00 else if s.dpsr Psr.tb then 0x5F00 else 0x6000, code := code }
        (if uia then uiaIip v v.ip else v.ip) 0 (if s.ctx.mlx then 2 else s.slot)) ∧
  (∀ (i : Instr) (s v : State) (uia top : Bool), s.pred (qpOf i) = false → v = advanced s s →
    top = (lastSlot s && decide ((if s.psrNow Psr.it then v.ip else v.ip <<< 1) = 0)) →
    uia = ((lastSlot s && unimplInstr v v.ip && Config.uiaAsTrap) || (top && (Config.uiaAsTrap || s.psrNow Psr.ss))) →
    exec i s =
      if top = true ∧ uia = false then
        deliver { v with ctx := Ctx.none } (fetchFault 0x5E00 0x10 none none) (uiaIip v v.ip) v.slot v.slot
      else if s.psrNow Psr.ss = false ∧ uia = false then .next v
      else deliver v { off := if uia then 0x5E00 else 0x6000
                       code := (if s.psrNow Psr.ss then 8 else 0) ||| (if uia then 16 else 0) }
        (if uia then uiaIip v v.ip else v.ip) v.slot (if s.ctx.mlx then 2 else s.slot)) ∧
  (∀ (i : Instr) (s u v : State) (uia top : Bool), CompletesTo s i u → v = advanced s u →
    top = (lastSlot s && decide ((if s.psrNow Psr.it then v.ip else v.ip <<< 1) = 0)) →
    uia = ((lastSlot s && unimplInstr v v.ip && Config.uiaAsTrap) || (top && (Config.uiaAsTrap || s.psrNow Psr.ss))) →
    v.ip = (if 2 ≤ s.slot.toNat ∨ s.ctx.mlx = true then s.ip + 16 else s.ip) ∧
    v.slot = (if 2 ≤ s.slot.toNat ∨ s.ctx.mlx = true then 0 else s.slot + 1) ∧
    exec i s =
      if top = true ∧ uia = false then
        deliver { v with ctx := Ctx.none } (fetchFault 0x5E00 0x10 none none) (uiaIip v v.ip) v.slot v.slot
      else if s.psrNow Psr.ss = false ∧ uia = false then .next v
      else deliver v { off := if uia then 0x5E00 else 0x6000
                       code := (if s.psrNow Psr.ss then 8 else 0) ||| (if uia then 16 else 0) }
        (if uia then uiaIip v v.ip else v.ip) v.slot (if s.ctx.mlx then 2 else s.slot)) ∧
  (∀ (b2 : BitVec 3) (p : BitVec 1) (wh : BitVec 2) (d : BitVec 1) (s : State), s.dpsr Psr.di = false →
    s.dpsr Psr.ic = true → s.dpsr Psr.dt = true → s.psrNow Psr.it = true → s.psrNow Psr.mc = false →
    (s.psrNow Psr.ss = true ∨ s.dpsr Psr.tb = true) →
    ∃ v, bit v.sys.psr Psr.is = true ∧ Frame { psr := 1#64 <<< 34, jump := true } s v ∧
      exec (.brIa b2 p wh d) s =
        deliver v { off := if s.dpsr Psr.tb then 0x5F00 else 0x6000
                    code := (if s.dpsr Psr.tb then 4 else 0) ||| (if s.psrNow Psr.ss then 8 else 0) }
          (0#32 ++ (s.getBr b2).extractLsb' 0 32) 0 (if s.ctx.mlx then 2 else s.slot))

/-- R348: br.ia, in a state from which IA-32 code may be entered, sets PSR.is and goes to the low 32 bits of its target
(log entry 45); with PSR.di = 1 it raises Disabled ISA Transition; from another state it is undefined (70 R562). -/
def Obligations.Ia32Entry : Prop :=
  ∀ (b2 : BitVec 3) (p : BitVec 1) (wh : BitVec 2) (d : BitVec 1) (s : State),
    (s.dpsr Psr.di = true → exec (.brIa b2 p wh d) s = raise s { off := 0x5400, code := 0x40 }) ∧
    (s.dpsr Psr.di = false →
      (s.dpsr Psr.ic = false ∨ s.dpsr Psr.dt = false ∨ s.psrNow Psr.it = false ∨ s.psrNow Psr.mc = true) →
      exec (.brIa b2 p wh d) s = .refused .ia32EntryUndefined) ∧
    (s.dpsr Psr.di = false → s.dpsr Psr.ic = true → s.dpsr Psr.dt = true → s.psrNow Psr.it = true →
      s.psrNow Psr.mc = false → s.psrNow Psr.ss = false → s.dpsr Psr.tb = false →
      ∃ t, exec (.brIa b2 p wh d) s = .next t ∧ bit t.sys.psr Psr.is = true ∧
        t.ip = 0#32 ++ (s.getBr b2).extractLsb' 0 32 ∧ t.slot = 0 ∧ Frame { psr := 1#64 <<< 34, jump := true } s t)

/-! Moves. -/

/-- R360, R371, R512: a write of a control register at level 0 stores the value, IVA without bits 14:0, IHA without bits 1:0; the
old value stays in flight; a value moved to IIPA is what the next collection takes unless an instruction completes with
PSR.ic = 1 (R117). EOI holds nothing: it ends the highest-priority interrupt in service, and the old in-service state stays in
flight (R82 note a). The reserved bits of LID, TPR, ITV, PMV, CMCV and LRR and the priority order NMI, ExtINT, 255 down to 16
are the recommended instance of R512 and D13 (log entry 20). -/
def Obligations.ControlRegisterWrites : Prop :=
  ∀ (qp : BitVec 6) (cr3 r2 : BitVec 7) (s : State), s.pred qp = true → crDefined cr3.toNat = true →
    crReadOnly cr3.toNat = false → (16 ≤ cr3.toNat → cr3.toNat ≤ 25 → s.dpsr Psr.ic = false) → s.cpl = 0 →
    s.nat r2 = false → crReserved cr3.toNat (s.val r2) = false →
    (cr3 = 20 → Config.ifaCheckAtMov = true → unimplVa s.vm (s.val r2) = false) → s.vm = false → Quiet s →
    ∃ t, exec (.movToCr qp cr3 r2) s = .next t ∧ s.sys.onPsr clearOneShot ∈ t.dataOld ∧
      (cr3 ≠ 67 → t.sys.getCr cr3.toNat =
          (if cr3 = 2 then s.val r2 &&& ~~~0x7FFF#64 else if cr3 = 25 then s.val r2 &&& ~~~3#64 else s.val r2) ∧
        (cr3 = 22 → t.lastBundle = if s.icRetire then s.ip else s.val r2) ∧
        Frame { cr := [cr3.toNat], data := true, fetch := true } s t) ∧
      (cr3 = 67 → t.sys.inService = (match highestVector s.sys.inService with
          | none => s.sys.inService
          | some v => s.sys.inService &&& ~~~(1#256 <<< v)) ∧
        t.irr = s.irr ∧ t.xtp = s.xtp ∧ t.palOwed = s.palOwed ∧ Frame { irq := true, data := true, fetch := true } s t)

/-- R361, R511, R512: a read of a control register at level 0, with nothing in flight, gives its value; reading IVR gives the
deliverable vector, moves it from pending to in service and leaves the others, and gives 15 when there is none; EOI reads 0;
IRR shows the pending bits; GR0 as the target is an Illegal Operation fault. That EOI reads 0, the layout of IRR0 to IRR3 and
which vector is deliverable are the recommended instance of R512 and D13 (log entries 20 and 19). -/
def Obligations.ControlRegisterReads : Prop :=
  ∀ (qp : BitVec 6) (r1 cr3 : BitVec 7) (s : State), s.pred qp = true →
    (r1 = 0 → exec (.movFromCr qp r1 cr3) s = raise s excIllegalOperation) ∧
    (r1 ≠ 0 → crDefined cr3.toNat = true → (16 ≤ cr3.toNat → cr3.toNat ≤ 25 → s.dpsr Psr.ic = false) → s.cpl = 0 → s.vm = false →
      Settled s → Quiet s → ∃ t, exec (.movFromCr qp r1 cr3) s = .next t ∧ t.nat r1 = false ∧
      (cr3 ≠ 65 → cr3 ≠ 67 → (cr3.toNat < 68 ∨ 71 < cr3.toNat) → cr3 ≠ 21 →
        t.val r1 = s.sys.getCr cr3.toNat ∧ Frame { gr := [r1] } s t) ∧
      (cr3 = 21 → t.val r1 &&& 0xFFFFFFFC = s.sys.getCr 21 &&& 0xFFFFFFFC ∧ Frame { gr := [r1] } s t) ∧
      (cr3 = 67 → t.val r1 = 0 ∧ Frame { gr := [r1] } s t) ∧
      (∀ k < 4, cr3.toNat = 68 + k → t.val r1 = s.irr.extractLsb' (64 * k) 64 ∧ Frame { gr := [r1] } s t) ∧
      (cr3 = 65 → Frame { gr := [r1], irq := true } s t ∧ t.xtp = s.xtp ∧ t.palOwed = s.palOwed ∧
        match s.deliverable with
        | none => t.val r1 = 15 ∧ t.irr = s.irr ∧ t.sys.inService = s.sys.inService
        | some v => t.val r1 = BitVec.ofNat 64 v ∧ t.irr = s.irr &&& ~~~(1#256 <<< v) ∧
            t.sys.inService = s.sys.inService ||| (1#256 <<< v)))

/-- R362, R363, R373: the moves of application registers from the M and the I unit. KRs and ITC are written at level 0 only, ITC
from the M unit and with PSR.vm = 0, and the old ITC stays in flight; a secured ITC is read at level 0 and with PSR.vm = 0 only,
a KR at any level (R373, R33; R478 differs, log entry 55). R373 gives KR, CCV, UNAT, PFS, LC and EC as plain cells; that
RSC, BSP, BSPSTORE, RNAT, FPSR and the other named registers take and give back any value in the same way is the model's choice
(log entries 9, 12 and 49). -/
def Obligations.ApplicationRegisterMoves : Prop :=
  (∀ (qp : BitVec 6) (ar3 r2 : BitVec 7) (imm : BitVec 8) (s : State) (i : Instr) (v : Word), s.pred qp = true →
    arNamed ar3.toNat = true → (ar3.toNat < 8 ∨ ar3 = 44 → s.cpl = 0) → (ar3 = 44 → s.vm = false) → Quiet s →
    ((i = .movToAr qp ar3 r2 ∧ s.nat r2 = false ∧ v = s.val r2) ∨ (i = .movArImm qp ar3 imm ∧ v = imm.signExtend 64) ∨
      (i = .movI qp (.toAr ar3 r2) ∧ ar3 ≠ 44 ∧ s.nat r2 = false ∧ v = s.val r2) ∨
      (i = .movI qp (.toArImm ar3 imm) ∧ ar3 ≠ 44 ∧ v = imm.signExtend 64)) →
    ∃ t, exec i s = .next t ∧
      (ar3 ≠ 44 → t.getAr ar3.toNat = v ∧ Frame { ar := [ar3.toNat] } s t) ∧
      (ar3 = 44 → t.sys.itc = v ∧ s.sys.onPsr clearOneShot ∈ t.dataOld ∧
        Frame { files := [.itc], data := true, fetch := true } s t)) ∧
  (∀ (qp : BitVec 6) (r1 ar3 : BitVec 7) (s : State) (i : Instr), s.pred qp = true → r1 ≠ 0 → arNamed ar3.toNat = true →
    (ar3 = 44 → (s.dpsr Psr.si 1 = true → s.cpl = 0) ∧ (s.dpsr Psr.si = true → s.vm = false)) →
    Quiet s →
    (i = .movFromAr qp r1 ar3 ∨ (i = .movI qp (.fromAr r1 ar3) ∧ ar3 ≠ 44)) →
    ∃ t, exec i s = .next t ∧ t.getGr r1 = { val := s.getAr ar3.toNat, nat := false } ∧ Frame { gr := [r1] } s t)

/-- R360, R361, R363, R371, R373, R382, R384, R476 to R480: when a move of a special register stops. A control register that does
not exist, a write of a read-only one and CR16 to CR25 with PSR.ic = 1 are Illegal Operation; a reserved value or register
number is Reserved Register/Field; a NaT source, the register number of a read among them, is Register NaT Consumption; a KR or ITC written, or a secured ITC read, at
another level than 0 is Privileged Register; an application register that is not named, and ITC from the I unit, are Illegal
Operation (which registers are named is log entry 12, the formats of the interrupt registers log entry 20). -/
def Obligations.SpecialRegisterStops : Prop :=
  ∀ (qp : BitVec 6) (r1 r2 r3 cr3 ar3 : BitVec 7) (imm : BitVec 8) (s : State), s.pred qp = true →
    ((crDefined cr3.toNat = false ∨ (16 ≤ cr3.toNat ∧ cr3.toNat ≤ 25 ∧ s.dpsr Psr.ic = true) →
        exec (.movToCr qp cr3 r2) s = raise s excIllegalOperation ∧
        exec (.movFromCr qp r1 cr3) s = raise s excIllegalOperation) ∧
      (cr3 = 65 ∨ (68 ≤ cr3.toNat ∧ cr3.toNat ≤ 71) → exec (.movToCr qp cr3 r2) s = raise s excIllegalOperation)) ∧
    (crDefined cr3.toNat = true → crReadOnly cr3.toNat = false →
      (16 ≤ cr3.toNat → cr3.toNat ≤ 25 → s.dpsr Psr.ic = false) →
      (s.cpl ≠ 0 → exec (.movToCr qp cr3 r2) s = raise s excPrivilegedOperation) ∧
      (s.cpl = 0 → s.nat r2 = true → exec (.movToCr qp cr3 r2) s = raise s { off := 0x5600, code := 0x10 }) ∧
      (s.cpl = 0 → s.nat r2 = false → crReserved cr3.toNat (s.val r2) = true →
        exec (.movToCr qp cr3 r2) s = raise s excReservedField) ∧
      (cr3 = 20 → s.cpl = 0 → s.nat r2 = false → Config.ifaCheckAtMov = true → unimplVa s.vm (s.val r2) = true →
        exec (.movToCr qp cr3 r2) s = raise s { off := 0x5400, code := 0x30, ifa := some (s.val r2) })) ∧
    (∀ i nat, (i = .movToAr qp ar3 r2 ∧ nat = s.nat r2 ∨ i = .movArImm qp ar3 imm ∧ nat = false ∨
        i = .movI qp (.toAr ar3 r2) ∧ nat = s.nat r2 ∧ ar3 ≠ 44 ∨ i = .movI qp (.toArImm ar3 imm) ∧ nat = false ∧ ar3 ≠ 44) →
      (arNamed ar3.toNat = false → exec i s = raise s excIllegalOperation) ∧
      (arNamed ar3.toNat = true → nat = true → exec i s = raise s { off := 0x5600, code := 0x10 }) ∧
      (nat = false → (ar3.toNat < 8 ∨ ar3 = 44) → s.cpl ≠ 0 → exec i s = raise s excPrivilegedRegister)) ∧
    (exec (.movI qp (.toAr 44 r2)) s = raise s excIllegalOperation ∧
      exec (.movI qp (.toArImm 44 imm)) s = raise s excIllegalOperation ∧
      exec (.movI qp (.fromAr r1 44)) s = raise s excIllegalOperation) ∧
    (∀ i, (i = .movFromAr qp r1 ar3 ∨ i = .movI qp (.fromAr r1 ar3) ∧ ar3 ≠ 44) →
      (r1 = 0 ∨ arNamed ar3.toNat = false → exec i s = raise s excIllegalOperation) ∧
      (r1 ≠ 0 → ar3 = 44 → s.vm = false → s.dpsr Psr.si 1 = true → s.cpl ≠ 0 → exec i s = raise s excPrivilegedRegister)) ∧
    (s.cpl = 0 →
      (s.nat r3 = true ∨ s.nat r2 = true → ∀ i ∈ [Instr.movToRr qp r3 r2, .movToPkr qp r3 r2, .movToDbr qp r3 r2,
        .movToIbr qp r3 r2, .movToPmc qp r3 r2, .movToPmd qp r3 r2], exec i s = raise s { off := 0x5600, code := 0x10 }) ∧
      (s.nat r3 = false → s.nat r2 = false →
        (rrReserved (s.val r2) = true → exec (.movToRr qp r3 r2) s = raise s excReservedField) ∧
        (pkrReserved (s.val r3) (s.val r2) = true → exec (.movToPkr qp r3 r2) s = raise s excReservedField) ∧
        (Config.numDbr ≤ ((s.val r3).extractLsb' 0 8).toNat → exec (.movToDbr qp r3 r2) s = raise s excReservedField) ∧
        (Config.numIbr ≤ ((s.val r3).extractLsb' 0 8).toNat → exec (.movToIbr qp r3 r2) s = raise s excReservedField) ∧
        (Config.numPm ≤ ((s.val r3).extractLsb' 0 8).toNat → exec (.movToPmc qp r3 r2) s = raise s excReservedField ∧
          exec (.movToPmd qp r3 r2) s = raise s excReservedField)) ∧
      (r1 ≠ 0 → s.nat r3 = true → ∀ i ∈ [Instr.movFromRr qp r1 r3, .movFromPkr qp r1 r3, .movFromDbr qp r1 r3,
        .movFromIbr qp r1 r3, .movFromPmc qp r1 r3], exec i s = raise s { off := 0x5600, code := 0x10 }) ∧
      (r1 ≠ 0 → s.nat r3 = false →
        (Config.numPkr ≤ ((s.val r3).extractLsb' 0 8).toNat → exec (.movFromPkr qp r1 r3) s = raise s excReservedField) ∧
        (Config.numDbr ≤ ((s.val r3).extractLsb' 0 8).toNat → exec (.movFromDbr qp r1 r3) s = raise s excReservedField) ∧
        (Config.numIbr ≤ ((s.val r3).extractLsb' 0 8).toNat → exec (.movFromIbr qp r1 r3) s = raise s excReservedField) ∧
        (Config.numPm ≤ ((s.val r3).extractLsb' 0 8).toNat → exec (.movFromPmc qp r1 r3) s = raise s excReservedField))) ∧
    (r1 ≠ 0 → s.nat r3 = true → ∀ i ∈ [Instr.movFromPmd qp r1 r3, .movFromCpuid qp r1 r3],
      exec i s = raise s { off := 0x5600, code := 0x10 }) ∧
    (r1 ≠ 0 → s.nat r3 = false →
      (Config.numPm ≤ ((s.val r3).extractLsb' 0 8).toNat → exec (.movFromPmd qp r1 r3) s = raise s excReservedField) ∧
      (Config.numCpuid ≤ ((s.val r3).extractLsb' 0 8).toNat → exec (.movFromCpuid qp r1 r3) s = raise s excReservedField))

/-- R382, R384, R249, R366 to R369: the writes of region, protection key, breakpoint and monitor registers at level 0; the number
comes from a general register, and the old values stay in flight. Before a valid protection key is written, every valid
register with its key becomes invalid and keeps its other bits. -/
def Obligations.IndirectWrites : Prop :=
  ∀ (qp : BitVec 6) (r3 r2 : BitVec 7) (s : State) (n : Nat), s.pred qp = true → s.cpl = 0 → s.nat r3 = false →
    s.nat r2 = false → s.vm = false → Quiet s → n = ((s.val r3).extractLsb' 0 8).toNat →
    (rrReserved (s.val r2) = false → ∃ t, exec (.movToRr qp r3 r2) s = .next t ∧
      t.sys.rr = wr s.sys.rr ((s.val r3).extractLsb' 61 3).toNat (s.val r2) ∧ s.sys.onPsr clearOneShot ∈ t.dataOld ∧
      Frame { files := [.rr], data := true, fetch := true } s t) ∧
    (pkrReserved (s.val r3) (s.val r2) = false → ∃ t, exec (.movToPkr qp r3 r2) s = .next t ∧ rd t.sys.pkr n 0 = s.val r2 ∧
      (∀ j, j < 256 → j ≠ n → rd t.sys.pkr j 0 =
        if bit (s.val r2) 0 = true ∧ bit (rd s.sys.pkr j 0) 0 = true ∧
            (rd s.sys.pkr j 0).extractLsb' 8 24 = (s.val r2).extractLsb' 8 24
        then rd s.sys.pkr j 0 &&& ~~~1#64 else rd s.sys.pkr j 0) ∧
      s.sys.onPsr clearOneShot ∈ t.dataOld ∧ Frame { files := [.pkr], data := true, fetch := true } s t) ∧
    (n < Config.numDbr → ∃ t, exec (.movToDbr qp r3 r2) s = .next t ∧ t.sys.dbr = wr s.sys.dbr n (s.val r2) ∧
      s.sys.onPsr clearOneShot ∈ t.dataOld ∧ Frame { files := [.dbr], data := true, fetch := true } s t) ∧
    (n < Config.numIbr → ∃ t, exec (.movToIbr qp r3 r2) s = .next t ∧ t.sys.ibr = wr s.sys.ibr n (s.val r2) ∧
      s.sys.onPsr clearOneShot ∈ t.fetchOld ∧ Frame { files := [.ibr], data := true, fetch := true } s t) ∧
    (n < Config.numPm → ∃ t, exec (.movToPmc qp r3 r2) s = .next t ∧ t.sys.pmc = wr s.sys.pmc n (s.val r2) ∧
      s.sys.onPsr clearOneShot ∈ t.dataOld ∧ Frame { files := [.pmc], data := true, fetch := true } s t) ∧
    (n < Config.numPm → ∃ t, exec (.movToPmd qp r3 r2) s = .next t ∧ t.sys.pmd = wr s.sys.pmd n (s.val r2) ∧
      (∀ j, t.pmdKnown.getLsbD j = (s.pmdKnown.getLsbD j || decide (j = n))) ∧
      s.sys.onPsr clearOneShot ∈ t.dataOld ∧ Frame { files := [.pmd], data := true, fetch := true } s t)

/-- R383, R385, R366 to R370: the reads of the indirect registers give the value written last; that of a PMD is not virtualized
(R369, R520); GR0 as the target is an Illegal Operation fault. -/
def Obligations.IndirectReads : Prop :=
  ∀ (qp : BitVec 6) (r1 r3 : BitVec 7) (s : State), s.pred qp = true →
    (r1 = 0 → ∀ i ∈ [Instr.movFromRr qp r1 r3, .movFromPkr qp r1 r3, .movFromDbr qp r1 r3, .movFromIbr qp r1 r3,
      .movFromPmc qp r1 r3, .movFromPmd qp r1 r3, .movFromCpuid qp r1 r3], exec i s = raise s excIllegalOperation) ∧
    (r1 ≠ 0 → s.nat r3 = false → Quiet s →
      (((s.val r3).extractLsb' 0 8).toNat < Config.numPm → ∃ t, exec (.movFromPmd qp r1 r3) s = .next t ∧ t.nat r1 = false ∧
        (s.dpsr Psr.sp = true → s.cpl ≠ 0 → t.val r1 = 0) ∧
        ((s.dpsr Psr.sp = false ∨ s.cpl = 0) → s.pmdKnown.getLsbD ((s.val r3).extractLsb' 0 8).toNat = true →
          t.val r1 = rd s.sys.pmd ((s.val r3).extractLsb' 0 8).toNat 0) ∧ Frame { gr := [r1] } s t)) ∧
    (r1 ≠ 0 → s.nat r3 = false → s.vm = false → Quiet s →
      (s.cpl = 0 → ∃ t, exec (.movFromRr qp r1 r3) s = .next t ∧
        t.getGr r1 = { val := rd s.sys.rr ((s.val r3).extractLsb' 61 3).toNat 0, nat := false } ∧ Frame { gr := [r1] } s t) ∧
      (s.cpl = 0 → ((s.val r3).extractLsb' 0 8).toNat < Config.numPkr → ∃ t, exec (.movFromPkr qp r1 r3) s = .next t ∧
        t.getGr r1 = { val := rd s.sys.pkr ((s.val r3).extractLsb' 0 8).toNat 0, nat := false } ∧ Frame { gr := [r1] } s t) ∧
      (s.cpl = 0 → ((s.val r3).extractLsb' 0 8).toNat < Config.numDbr → ∃ t, exec (.movFromDbr qp r1 r3) s = .next t ∧
        t.getGr r1 = { val := rd s.sys.dbr ((s.val r3).extractLsb' 0 8).toNat 0, nat := false } ∧ Frame { gr := [r1] } s t) ∧
      (s.cpl = 0 → ((s.val r3).extractLsb' 0 8).toNat < Config.numIbr → ∃ t, exec (.movFromIbr qp r1 r3) s = .next t ∧
        t.getGr r1 = { val := rd s.sys.ibr ((s.val r3).extractLsb' 0 8).toNat 0, nat := false } ∧ Frame { gr := [r1] } s t) ∧
      (s.cpl = 0 → ((s.val r3).extractLsb' 0 8).toNat < Config.numPm → ∃ t, exec (.movFromPmc qp r1 r3) s = .next t ∧
        t.getGr r1 = { val := rd s.sys.pmc ((s.val r3).extractLsb' 0 8).toNat 0, nat := false } ∧ Frame { gr := [r1] } s t) ∧
      (((s.val r3).extractLsb' 0 8).toNat < Config.numCpuid → ∃ t, exec (.movFromCpuid qp r1 r3) s = .next t ∧
        t.getGr r1 = { val := Config.cpuid ((s.val r3).extractLsb' 0 8).toNat, nat := false } ∧ Frame { gr := [r1] } s t))

/-- R364, R365, R551, R553: after srlz.d a data-side consumer sees as in flight only what this group wrote, and the fetch what it
saw before; srlz.i does the same for both at the end of its group, and until then changes nothing (what is in flight is the
model's, log entry 7). -/
def Obligations.Serialization : Prop :=
  ∀ (qp : BitVec 6) (s : State), s.pred qp = true → Quiet s →
    (∃ t, exec (.srlzD qp) s = .next t ∧ t.dataOld = (s.dataOld.take s.dataWrites).map (Sys.onPsr clearOneShot) ∧
      t.fetchOld = (if s.ctx.stopAfter && s.srlzI then s.fetchOld.take s.fetchWrites else s.fetchOld).map
        (Sys.onPsr clearOneShot) ∧
      t.srlzI = (s.srlzI && !s.ctx.stopAfter) ∧ t.stale = staleAfter {} s ∧ Frame { serial := true } s t) ∧
    (∃ t, exec (.srlzI qp) s = .next t ∧
      t.dataOld = (if s.ctx.stopAfter then s.dataOld.take s.dataWrites else s.dataOld).map (Sys.onPsr clearOneShot) ∧
      t.fetchOld = (if s.ctx.stopAfter then s.fetchOld.take s.fetchWrites else s.fetchOld).map (Sys.onPsr clearOneShot) ∧
      t.srlzI = !s.ctx.stopAfter ∧ t.stale = staleAfter {} { s with srlzI := true } ∧ Frame { serial := true } s t) ∧
    (∀ u : State, u.srlzI = true → u.endGroup.dataOld = u.dataOld.take u.dataWrites ∧
      u.endGroup.fetchOld = u.fetchOld.take u.fetchWrites)

/-! Translation. -/

/-- R386 to R390, R231, R225, R226, R152, R233, R110, R480: itc inserts the translation its operands describe in the translation
cache of its side, itr in the register it names; overlapping entries of the same cache go, a full cache gives up another
entry, those of the other cache may go; the old values stay in flight; what itc inserted is the entry that forward progress
depends on. Where a translation register of the same side overlaps, a machine check is owed, and the overlapping entries of the
cache of that side go as well. With PSR.ic = 1 each of the four is an Illegal Operation, a NaT operand Register NaT Consumption,
a register number that is out of range, a reserved bit or an unimplemented page size of the format Reserved Register/Field, an
unimplemented physical page number (R152, R233; log entry 51) or IFA Unimplemented Data Address with IFA, each with ISR.na = 1. An
attribute that the platform lacks and an itr into a live register
are undefined (70 R562). -/
def Obligations.Inserts : Prop :=
  ∀ (qp : BitVec 6) (r3 r2 : BitVec 7) (s : State), s.pred qp = true → Settled s →
    (∀ (i : Instr) (nat bad : Bool),
      ((i = .itcD qp r2 ∨ i = .itcI qp r2) ∧ nat = s.nat r2 ∧ bad = false ∨
        (∃ n, (i = .itrD qp r3 r2 ∧ n = Config.numDtr ∨ i = .itrI qp r3 r2 ∧ n = Config.numItr) ∧
          nat = (s.nat r3 || s.nat r2) ∧ bad = decide (n ≤ ((s.val r3).extractLsb' 0 8).toNat))) →
      (s.dpsr Psr.ic = true → exec i s = raise s excIllegalOperation.nonAccess) ∧
      (s.dpsr Psr.ic = false → s.cpl = 0 →
        (nat = true → exec i s = raise s { off := 0x5600, code := 0x10, na := true, codeFree := 0xF }) ∧
        (nat = false → bad = true ∨ insertReserved (s.val r2) (s.sys.getCr 21) = true →
          exec i s = raise s excReservedField.nonAccess) ∧
        (nat = false → bad = false → insertReserved (s.val r2) (s.sys.getCr 21) = false →
          (bit (s.val r2) 0 = true ∧ ppnUnimpl (s.val r2) = true ∨
            unimplVa s.vm (s.sys.getCr 20) = true ∧ Config.ifaCheckAtMov = false) →
          exec i s = raise s { off := 0x5400, code := 0x30, na := true, codeFree := 0xF, ifa := some (s.sys.getCr 20) }))) ∧
    (InsertOk s r2 → Quiet s →
      (bit (s.val r2) 0 = true → platformSupports (field (s.val r2) 2 3) = false →
        exec (.itcD qp r2) s = .refused .platformAttribute ∧ exec (.itcI qp r2) s = .refused .platformAttribute) ∧
      ((bit (s.val r2) 0 = true → platformSupports (field (s.val r2) 2 3) = true) →
        (∀ i side, (i = .itcD qp r2 ∧ side = .data ∨ i = .itcI qp r2 ∧ side = .instr ∨
            s.nat r3 = false ∧ rd (s.sys.trs side) ((s.val r3).extractLsb' 0 8).toNat none = none ∧
              (i = .itrD qp r3 r2 ∧ side = .data ∧ ((s.val r3).extractLsb' 0 8).toNat < Config.numDtr ∨
                i = .itrI qp r3 r2 ∧ side = .instr ∧ ((s.val r3).extractLsb' 0 8).toNat < Config.numItr)) →
          s.trClash side (insertEntry s (s.val r2)) = true → ∃ t e, exec i s = .next t ∧ InsertedAs s (s.val r2) e ∧
            t.mcOwed = true ∧ (∀ x ∈ t.sys.tc side, x = e ∨ x ∈ s.sys.tc side ∧ x.overlaps e.rid e.base e.ps.toNat = false) ∧
            (∀ x ∈ t.sys.tc side.other, x ∈ s.sys.tc side.other) ∧ s.sys.onPsr clearOneShot ∈ t.dataOld ∧
            s.sys.onPsr clearOneShot ∈ t.fetchOld ∧ Frame { tc := true, owed := true, data := true, fetch := true } s t) ∧
        (s.trClash .data (insertEntry s (s.val r2)) = false →
          (∃ t e kept, exec (.itcD qp r2) s = .next t ∧ InsertedAs s (s.val r2) e ∧ t.sys.dtcTlb = e :: kept ∧
            KeptIn (tcSize .data) (s.sys.dtcTlb.filter fun x => !x.overlaps e.rid e.base e.ps.toNat) kept ∧
            (∀ x ∈ t.sys.itcTlb, x ∈ s.sys.itcTlb) ∧ t.lastTc = some e ∧ s.sys.onPsr clearOneShot ∈ t.dataOld ∧
            Frame { tc := true, data := true, fetch := true } s t) ∧
          (s.nat r3 = false → ((s.val r3).extractLsb' 0 8).toNat < Config.numDtr →
            if (rd s.sys.dtr ((s.val r3).extractLsb' 0 8).toNat none).isSome then
              exec (.itrD qp r3 r2) s = .refused .trSlotLive
            else ∃ t e, exec (.itrD qp r3 r2) s = .next t ∧ InsertedAs s (s.val r2) e ∧
              t.sys.dtr = wr s.sys.dtr ((s.val r3).extractLsb' 0 8).toNat (some e) ∧
              t.sys.dtcTlb = s.sys.dtcTlb.filter (fun x => !x.overlaps e.rid e.base e.ps.toNat) ∧
              (∀ x ∈ t.sys.itcTlb, x ∈ s.sys.itcTlb) ∧ s.sys.onPsr clearOneShot ∈ t.dataOld ∧
              Frame { files := [.dtr], tc := true, data := true, fetch := true } s t)) ∧
        (s.trClash .instr (insertEntry s (s.val r2)) = false →
          (∃ t e kept, exec (.itcI qp r2) s = .next t ∧ InsertedAs s (s.val r2) e ∧ t.sys.itcTlb = e :: kept ∧
            KeptIn (tcSize .instr) (s.sys.itcTlb.filter fun x => !x.overlaps e.rid e.base e.ps.toNat) kept ∧
            (∀ x ∈ t.sys.dtcTlb, x ∈ s.sys.dtcTlb) ∧ t.lastTc = some e ∧ s.sys.onPsr clearOneShot ∈ t.fetchOld ∧
            Frame { tc := true, data := true, fetch := true } s t) ∧
          (s.nat r3 = false → ((s.val r3).extractLsb' 0 8).toNat < Config.numItr →
            if (rd s.sys.itr ((s.val r3).extractLsb' 0 8).toNat none).isSome then
              exec (.itrI qp r3 r2) s = .refused .trSlotLive
            else ∃ t e, exec (.itrI qp r3 r2) s = .next t ∧ InsertedAs s (s.val r2) e ∧
              t.sys.itr = wr s.sys.itr ((s.val r3).extractLsb' 0 8).toNat (some e) ∧
              t.sys.itcTlb = s.sys.itcTlb.filter (fun x => !x.overlaps e.rid e.base e.ps.toNat) ∧
              (∀ x ∈ t.sys.dtcTlb, x ∈ s.sys.dtcTlb) ∧ s.sys.onPsr clearOneShot ∈ t.fetchOld ∧
              Frame { files := [.itr], tc := true, data := true, fetch := true } s t))))

/-- R391 to R397, R400: a purge of a purgeable page size removes the overlapping entries: ptc from both caches, with no machine
check unless a translation register overlaps; ptc.ga also the ALAT entries of the pages it purges; ptr from the registers and
the cache of its side, and possibly from the other cache. The region identifier is the current one of the address. That a purge
removes nothing else and that one ptc.e empties both caches are the model's choice (log entry 30: R391 lets purges over-purge,
R396 lets ptc.e remove a part); what a page size that is not purgeable does is log entry 52. At level 0 a NaT operand of any of
them is Register NaT Consumption (R480), an unimplemented address in r3 of ptc or ptr Unimplemented Data Address with IFA the
address (R391, R481), each with ISR.na = 1. -/
def Obligations.Purges : Prop :=
  ∀ (qp : BitVec 6) (r3 r2 : BitVec 7) (s : State) (rid : BitVec 24) (ps : Nat), s.pred qp = true → Settled s → Quiet s →
    rid = (rd s.sys.rr ((s.val r3).extractLsb' 61 3).toNat 0).extractLsb' 8 24 →
    ps = ((s.val r2).extractLsb' 2 6).toNat →
    (s.cpl = 0 →
      (s.nat r3 = true → exec (.ptcE qp r3) s = raise s { off := 0x5600, code := 0x10, na := true, codeFree := 0xF }) ∧
      ∀ i ∈ [Instr.ptcL qp r3 r2, .ptcG qp r3 r2, .ptcGa qp r3 r2, .ptrD qp r3 r2, .ptrI qp r3 r2],
        (s.nat r3 = true ∨ s.nat r2 = true → exec i s = raise s { off := 0x5600, code := 0x10, na := true, codeFree := 0xF }) ∧
        (s.nat r3 = false → s.nat r2 = false → purgeable ps = true ∨ Config.purgeSizeFaults = false →
          unimplVa s.vm (s.val r3) = true →
          exec i s = raise s { off := 0x5400, code := 0x30, na := true, codeFree := 0xF, ifa := some (s.val r3) })) ∧
    (PurgeOk s r3 r2 → purgeable ps = false →
      ∀ i ∈ [Instr.ptcL qp r3 r2, .ptcG qp r3 r2, .ptcGa qp r3 r2, .ptrD qp r3 r2, .ptrI qp r3 r2],
        if Config.purgeSizeFaults = true then exec i s = raise s excReservedField.nonAccess
        else ∃ t, exec i s = .next t ∧ (∀ x ∈ t.sys.itcTlb, x ∈ s.sys.itcTlb) ∧ (∀ x ∈ t.sys.dtcTlb, x ∈ s.sys.dtcTlb) ∧
          Frame { files := [.itr, .dtr], tc := true, alat := true, owed := true, data := true, fetch := true } s t) ∧
    (PurgeOk s r3 r2 → purgeable ps = true →
      (∀ i ∈ [Instr.ptcL qp r3 r2, .ptcG qp r3 r2, .ptcGa qp r3 r2], ∃ t, exec i s = .next t ∧
        t.sys.itcTlb = outside s.sys.itcTlb rid (s.val r3) ps ∧ t.sys.dtcTlb = outside s.sys.dtcTlb rid (s.val r3) ps ∧
        s.sys.onPsr clearOneShot ∈ t.dataOld ∧
        t.alat = (if i = .ptcGa qp r3 r2 then s.alat.filter fun a => !(s.sys.itcTlb ++ s.sys.dtcTlb).any fun e =>
            e.overlaps rid ((s.val r3).extractLsb' 0 61) ps && rangesOverlap (e.pa 0) (2 ^ e.ps.toNat) a.pa a.size
          else s.alat) ∧
        t.mcOwed = (s.mcOwed || (trOverlaps s.sys.itr rid ((s.val r3).extractLsb' 0 61) ps ||
          trOverlaps s.sys.dtr rid ((s.val r3).extractLsb' 0 61) ps)) ∧
        Frame { tc := true, alat := true, owed := true, data := true, fetch := true } s t) ∧
      (∃ t, exec (.ptrD qp r3 r2) s = .next t ∧
        (∀ n, rd t.sys.dtr n none = (rd s.sys.dtr n none).filter fun e => !e.overlaps rid ((s.val r3).extractLsb' 0 61) ps) ∧
        t.sys.dtcTlb = outside s.sys.dtcTlb rid (s.val r3) ps ∧
        (∀ x ∈ t.sys.itcTlb, x ∈ s.sys.itcTlb) ∧ s.sys.onPsr clearOneShot ∈ t.dataOld ∧
        Frame { files := [.dtr], tc := true, data := true, fetch := true } s t) ∧
      (∃ t, exec (.ptrI qp r3 r2) s = .next t ∧
        (∀ n, rd t.sys.itr n none = (rd s.sys.itr n none).filter fun e => !e.overlaps rid ((s.val r3).extractLsb' 0 61) ps) ∧
        t.sys.itcTlb = outside s.sys.itcTlb rid (s.val r3) ps ∧
        (∀ x ∈ t.sys.dtcTlb, x ∈ s.sys.dtcTlb) ∧ s.sys.onPsr clearOneShot ∈ t.fetchOld ∧
        Frame { files := [.itr], tc := true, data := true, fetch := true } s t)) ∧
    (s.cpl = 0 → s.nat r3 = false → s.vm = false →
      ∃ t, exec (.ptcE qp r3) s = .next t ∧ t.sys.itcTlb = [] ∧ t.sys.dtcTlb = [] ∧
        s.sys.onPsr clearOneShot ∈ t.dataOld ∧ Frame { tc := true, data := true, fetch := true } s t)

/-- R392: a probe of a present page whose key is held answers 1 where the access rights at the asked level and the protection
key allow the access, else 0; of an unimplemented address it answers 0; probe.fault completes where such an access, the Dirty
bit apart, would take no fault. GR0 as the target is an Illegal Operation fault, a NaT source Register NaT Consumption. A probe
takes the first fault of its reference where that is a miss, Page Not Present, NaT Page Consumption or Key Miss, a probe.fault
whatever it is through Access Bit (what each is: PageFaults), with ISR.na = 1 and an ISR.code of which bits 3:0 are free (log
entry 32). With PSR.dt = 0 a probe is undefined (D24). -/
def Obligations.Probes : Prop :=
  ∀ (qp : BitVec 6) (r1 r2 r3 : BitVec 7) (imm pl : BitVec 2) (k : Acc) (s : State) (i : Instr), s.pred qp = true →
    (∀ x ∈ [Instr.probeRImm qp 0 r3 imm, .probeWImm qp 0 r3 imm, .probeR qp 0 r3 r2, .probeW qp 0 r3 r2],
      exec x s = raise s excIllegalOperation.nonAccess) ∧
    (∀ (r w nat : Bool),
      (i = .probeRImm qp r1 r3 imm ∧ r1 ≠ 0 ∧ r = true ∧ w = false ∧ nat = s.nat r3 ∨
        i = .probeWImm qp r1 r3 imm ∧ r1 ≠ 0 ∧ r = false ∧ w = true ∧ nat = s.nat r3 ∨
        i = .probeR qp r1 r3 r2 ∧ r1 ≠ 0 ∧ r = true ∧ w = false ∧ nat = (s.nat r3 || s.nat r2) ∨
        i = .probeW qp r1 r3 r2 ∧ r1 ≠ 0 ∧ r = false ∧ w = true ∧ nat = (s.nat r3 || s.nat r2) ∨
        i = .probeRwFault qp r3 imm ∧ r = true ∧ w = true ∧ nat = s.nat r3 ∨
        i = .probeRFault qp r3 imm ∧ r = true ∧ w = false ∧ nat = s.nat r3 ∨
        i = .probeWFault qp r3 imm ∧ r = false ∧ w = true ∧ nat = s.nat r3) → nat = true →
      exec i s = raise s { off := 0x5600, code := 0x10, w := w, r := r, na := true, codeFree := 0xF }) ∧
    (s.nat r3 = false → Quiet s →
      ((i = .probeRImm qp r1 r3 imm ∧ k = .r ∧ pl = imm ∨ i = .probeWImm qp r1 r3 imm ∧ k = .w ∧ pl = imm ∨
          i = .probeR qp r1 r3 r2 ∧ k = .r ∧ s.nat r2 = false ∧ pl = (s.val r2).extractLsb' 0 2 ∨
          i = .probeW qp r1 r3 r2 ∧ k = .w ∧ s.nat r2 = false ∧ pl = (s.val r2).extractLsb' 0 2) → r1 ≠ 0 →
        ((s.dataView 0).dt = false → exec i s = .refused .physicalQuery) ∧
        ((s.dataView 0).dt = true → unimplVa s.vm (s.val r3) = true →
          ∃ t, exec i s = .next t ∧ t.getGr r1 = { val := 0, nat := false } ∧ Frame { gr := [r1] } s t) ∧
        (∀ e u, Translates s (s.val r3) e u → e.p = true → e.ma ≠ 7 →
          ((s.dataView 0).pk = true → matchingPkrs (s.dataView 0).pkr e.key ≠ []) →
          ∃ t, exec i s = .next t ∧
            t.getGr r1 =
              { val := if rights e.ar e.pl (askedLevel s pl) k = true ∧
                  ((s.dataView 1).pk = true → ∀ w ∈ matchingPkrs (s.dataView 1).pkr e.key, pkrDisables w k = false)
                  then 1 else 0
                nat := false } ∧ Left u t ∧ Frame { gr := [r1], tc := true, owed := true, lines := true } s t) ∧
        ((s.dataView 0).dt = true → unimplVa s.vm (s.val r3) = false → ∀ c f e rest,
          checkRef s 0 (naRef s r3 (k == .r) (k == .w) false (askedLevel s pl)) = .ok c → c.faults = (f, e) :: rest →
          f ∈ [DFault.tlb, .notPresent, .natPage, .keyMiss] → exec i s = raise c.st e ∧ e.na = true ∧ e.codeFree = 0xF)) ∧
      (∀ r w, (i = .probeRwFault qp r3 imm ∧ r = true ∧ w = true ∨ i = .probeRFault qp r3 imm ∧ r = true ∧ w = false ∨
          i = .probeWFault qp r3 imm ∧ r = false ∧ w = true) →
        ((s.dataView 0).dt = false → exec i s = .refused .physicalQuery) ∧
        (∀ pa attr u, (s.dataView 0).dt = true → Accessible s (naRef s r3 r w false (askedLevel s imm)) pa attr u →
          ∃ t, exec i s = .next t ∧ Left u t ∧ Frame { tc := true, owed := true, lines := true } s t) ∧
        ((s.dataView 0).dt = true → ∀ c f e rest, checkRef s 0 (naRef s r3 r w false (askedLevel s imm)) = .ok c →
          c.faults = (f, e) :: rest → exec i s = raise c.st e ∧ e.na = true ∧ e.codeFree = 0xF)))

/-- R398 to R402: tpa gives the physical address of a present page; tak the protection key, or 1 where there is no
translation; with PSR.dt = 0 both are undefined (D24). thash and ttag give the address and the tag of the VHPT entry, NaT for
a NaT or unimplemented address; without a walker thash is a function of the implementation (log entry 29). GR0 as the target
is an Illegal Operation fault. At level 0 a NaT address of tpa or tak is Register NaT Consumption (R480); tpa of an unimplemented
address raises Unimplemented Data Address with IFA (R481), and it takes the first fault of its reference where that is a miss,
Page Not Present or NaT Page Consumption (what each is: PageFaults); each with ISR.na = 1 (R402). -/
def Obligations.TranslationQueries : Prop :=
  ∀ (qp : BitVec 6) (r1 r3 : BitVec 7) (s : State), s.pred qp = true →
    (∀ x ∈ [Instr.tpa qp 0 r3, .tak qp 0 r3, .thash qp 0 r3, .ttag qp 0 r3], exec x s = raise s excIllegalOperation.nonAccess) ∧
    (r1 ≠ 0 → s.cpl = 0 → s.nat r3 = true → ∀ i ∈ [Instr.tpa qp r1 r3, .tak qp r1 r3],
      exec i s = raise s { off := 0x5600, code := 0x10, na := true, codeFree := 0xF }) ∧
    (r1 ≠ 0 → s.cpl = 0 → s.nat r3 = false → s.vm = false → (s.dataView 0).dt = true →
      (unimplVa s.vm (s.val r3) = true → exec (.tpa qp r1 r3) s =
        raise s { off := 0x5400, code := 0x30, na := true, codeFree := 0xF, ifa := some (s.val r3) }) ∧
      (unimplVa s.vm (s.val r3) = false → ∀ c f e rest,
        checkRef s 0 (naRef s r3 false false true s.cpl) = .ok c → c.faults = (f, e) :: rest →
        f ∈ [DFault.tlb, .notPresent, .natPage] → exec (.tpa qp r1 r3) s = raise c.st e ∧ e.na = true ∧ e.codeFree = 0xF)) ∧
    (r1 ≠ 0 → s.vm = false → Quiet s →
      (s.cpl = 0 → s.nat r3 = false → (s.dataView 0).dt = false →
        exec (.tpa qp r1 r3) s = .refused .physicalQuery ∧ exec (.tak qp r1 r3) s = .refused .physicalQuery) ∧
      (s.cpl = 0 → s.nat r3 = false → (s.dataView 0).dt = true →
        (∀ e u, Translates s (s.val r3) e u → e.p = true → e.ma ≠ 7 → ∃ t, exec (.tpa qp r1 r3) s = .next t ∧
          t.getGr r1 = { val := BitVec.ofNat 64 (e.pa (s.val r3)), nat := false } ∧ Left u t ∧
          Frame { gr := [r1], tc := true, owed := true, lines := true } s t) ∧
        (∀ l, (s.dataView 0).tlb.lookup .data (rrRid ((s.dataView 0).rrOf (s.val r3))) (s.val r3) = l →
          (unimplVa s.vm (s.val r3) = true ∨ l = [] → ∃ t, exec (.tak qp r1 r3) s = .next t ∧
            t.getGr r1 = { val := 1, nat := false } ∧ Frame { gr := [r1] } s t) ∧
          (∀ e, unimplVa s.vm (s.val r3) = false → l = [e] → ∃ t, exec (.tak qp r1 r3) s = .next t ∧
            t.getGr r1 = { val := 0#32 ++ e.key ++ 0#8, nat := false } ∧ Frame { gr := [r1] } s t))) ∧
      ((s.nat r3 = true ∨ unimplVa s.vm (s.val r3) = true) → ∀ i ∈ [Instr.thash qp r1 r3, .ttag qp r1 r3],
        ∃ t, exec i s = .next t ∧ t.nat r1 = true ∧ Frame { gr := [r1] } s t) ∧
      (s.nat r3 = false → unimplVa s.vm (s.val r3) = false → Settled s →
        (∃ t, exec (.thash qp r1 r3) s = .next t ∧ t.nat r1 = false ∧
          t.val r1 = (if Config.hasVhptWalker = true then vhptAddr (s.sys.getCr 8) (s.sys.rrOf (s.val r3)) (s.val r3)
            else Config.hashWithoutWalker (s.sys.getCr 8) (s.sys.rrOf (s.val r3)) (s.val r3)) ∧ Frame { gr := [r1] } s t) ∧
        (∃ t, exec (.ttag qp r1 r3) s = .next t ∧ t.nat r1 = false ∧
          t.val r1 = vhptTag (s.sys.rrOf (s.val r3)) (s.val r3) ∧ bit (t.val r1) 63 = false ∧ Frame { gr := [r1] } s t)))

/-! The ALAT, the caches. -/

/-- R444, R445: chk.a on an entry goes on, and .clr drops it; chk.s on a register without NaT, or without NaTVal, goes on; a
failing check goes to its recovery code or raises a Speculative Operation fault, as the processor chooses, with IIM the
immediate and an ISR.code that tells chk.a from chk.s (which code is log entry 32). invala drops every
entry, invala.e the register's. -/
def Obligations.SpeculationChecks : Prop :=
  ∀ (qp : BitVec 6) (r : BitVec 7) (imm : BitVec 21) (s : State), s.pred qp = true →
    (∀ fp i c, (i = .chkANcR qp r imm ∧ fp = false ∧ c = false ∨ i = .chkAClrR qp r imm ∧ fp = false ∧ c = true ∨
        i = .chkANcF qp r imm ∧ fp = true ∧ c = false ∨ i = .chkAClrF qp r imm ∧ fp = true ∧ c = true) →
      s.alatHit fp r = true → Quiet s → ∃ t, exec i s = .next t ∧
        t.alat = (if c then alatLess s fp r else s.alat) ∧ Frame { alat := true } s t) ∧
    (∀ i, (i = .chkSM qp r imm ∧ s.nat r = false ∨
        i = .chkSF qp r imm ∧ FpEnabled s r ∧ (2 ≤ r.toNat → s.getFr r ≠ Config.natVal)) → Quiet s →
      ∃ t, exec i s = .next t ∧ Frame {} s t) ∧
    Config.chkACode ≠ 0 ∧
    (∀ i code, ((i = .chkANcR qp r imm ∨ i = .chkAClrR qp r imm) ∧ s.alatHit false r = false ∧ code = Config.chkACode ∨
        (i = .chkANcF qp r imm ∨ i = .chkAClrF qp r imm) ∧ s.alatHit true r = false ∧ code = Config.chkACode ∨
        i = .chkSM qp r imm ∧ s.nat r = true ∧ code = 0 ∨
        i = .chkSF qp r imm ∧ FpEnabled s r ∧ 2 ≤ r.toNat ∧ s.getFr r = Config.natVal ∧ code = 0) →
      (Config.chkBranches = true → QuietBranch s (s.ip + (imm.signExtend 64 <<< 4)) →
        ∃ t, exec i s = .next t ∧ t.ip = (s.ip + (imm.signExtend 64 <<< 4)) &&& ~~~15#64 ∧ t.slot = 0 ∧
          Frame { jump := true } s t) ∧
      (Config.chkBranches = false → exec i s = raise s { off := 0x5700, code := code, iim := some (imm.setWidth 64) })) ∧
    (Quiet s →
      (∃ t, exec (.invala qp) s = .next t ∧ t.alat = [] ∧ Frame { alat := true } s t) ∧
      (∃ t, exec (.invalaER qp r) s = .next t ∧ t.alat = alatLess s false r ∧ Frame { alat := true } s t) ∧
      (∃ t, exec (.invalaEF qp r) s = .next t ∧ t.alat = alatLess s true r ∧ Frame { alat := true } s t))

/-- R436 to R439: fc and fc.i flush the line of their address for the fetch, fc also from every cache and from the ALAT;
sync.i waits for the flushes. A NaT address of fc or fc.i is Register NaT Consumption (R480), and both take the first fault of
their reference, which is a read that makes no Debug, alignment or support check (what each is: PageFaults), with ISR.na = 1.
After a flush, sync.i and, in a later group, an instruction serialization a fetch of the line sees memory only; a sync.i in
the group of the serialization does not count (what a fetch may see before it is the model's, log entry 8; which lines have
been used with which attributes, log entry 56). -/
def Obligations.CacheFlushes : Prop :=
  (∀ (qp : BitVec 6) (r3 : BitVec 7) (s u : State) (pa : Nat) (attr : Attr), s.pred qp = true → s.nat r3 = false →
    Accessible s (naRef s r3 true false false s.cpl) pa attr u → Quiet s →
    (∃ t, exec (.fc qp r3) s = .next t ∧ t.alat = (s.alat.filter fun a => !rangesOverlap a.pa a.size (pa / 32 * 32) 32) ∧
      t.stale = staleAfter {} { s with stale := staleFlush pa s.stale } ∧
      t.lines = u.lines.filter (fun l => decide (l.1 ≠ pa / 32)) ∧ Searched u t ∧
      Frame { tc := true, owed := true, alat := true, stale := true, lines := true } s t) ∧
    (∃ t, exec (.fcI qp r3) s = .next t ∧ t.stale = staleAfter {} { s with stale := staleFlush pa s.stale } ∧ Left u t ∧
      Frame { tc := true, owed := true, stale := true, lines := true } s t)) ∧
  (∀ (qp : BitVec 6) (r3 : BitVec 7) (s : State), s.pred qp = true → ∀ i ∈ [Instr.fc qp r3, .fcI qp r3],
    (s.nat r3 = true → exec i s = raise s { off := 0x5600, code := 0x10, r := true, na := true, codeFree := 0xF }) ∧
    (s.nat r3 = false → ∀ c f e rest, checkRef s 0 (naRef s r3 true false false s.cpl) = .ok c → c.faults = (f, e) :: rest →
      exec i s = raise c.st e ∧ e.na = true ∧ e.codeFree = 0xF)) ∧
  (∀ (qp : BitVec 6) (s : State), s.pred qp = true → Quiet s → ∃ t, exec (.syncI qp) s = .next t ∧
    t.stale = staleAfter {} { s with stale := staleSync s.stale } ∧ Frame { stale := true } s t) ∧
  (∀ (st : List StaleByte) (pa a : Nat), a / 32 = pa / 32 →
    staleValues (staleSerialize (staleEndGroup (staleSync (staleFlush pa st)))) a = []) ∧
  (∀ (st : List StaleByte) (a : Nat), (∀ e ∈ st, e.stage ≠ .synced) →
    staleValues (staleSerialize (staleSync st)) a = staleValues st a)

/-- R454: a prefetch changes nothing but its base; the faulting forms complete where a non-access reference would take no
fault: of a page that is not cacheable without any access (R209), else with a use of their line, which is undefined where the
line is mapped uncacheable or was used with an attribute that is not coherent (R162; log entry 56); with PSR.ed = 1 without any
reference. They take the
first fault of their reference, and of a NaT address Register NaT Consumption (its ISR.w is log entry 54's). A base update of
GR0 is an Illegal Operation fault (log entry 48). -/
def Obligations.Prefetches : Prop :=
  ∀ (i : Instr) (qp : BitVec 6) (fault excl : Bool) (r3 : BitVec 7) (upd : BaseUpd) (s u : State) (pa : Nat) (attr : Attr),
    lfetchForm i = some (qp, fault, excl, r3, upd) → s.pred qp = true →
    (¬BaseOk r3 none upd → exec i s = raise s excIllegalOperation.nonAccess) ∧
    (BaseOk r3 none upd → Quiet s →
      (fault = true → s.psrNow Psr.ed = false → s.nat r3 = false →
        Accessible s (naRef s r3 true excl true s.cpl) pa attr u →
        if attr.cacheable = true ∧ u.aliased attr pa 1 = true then exec i s = .refused .attributeAliasing
        else ∃ t, exec i s = .next t ∧ NewBase s t r3 upd ∧ (if attr.cacheable then Reached u t attr pa 1 else Left u t) ∧
          Frame { gr := baseGr r3 upd, tc := true, owed := true, lines := true } s t) ∧
      (fault = true → s.psrNow Psr.ed = false →
        (s.nat r3 = true → exec i s = raise s { off := 0x5600, code := 0x10, r := true, na := true, codeFree := 0xF }) ∧
        (s.nat r3 = false → ∀ c f e rest, checkRef s 0 (naRef s r3 true excl true s.cpl) = .ok c →
          c.faults = (f, e) :: rest → exec i s = raise c.st e)) ∧
      (fault = false ∨ s.psrNow Psr.ed = true →
        ∃ t, exec i s = .next t ∧ NewBase s t r3 upd ∧ Frame { gr := baseGr r3 upd } s t))

/-! References. -/

/-- R421, R150, R161, R284: with PSR.dt = 0, and with PSR.dt = 1 and one matching translation, a reference that no check
stops is accessible: at the address without bit 63 and an attribute by bit 63, or at the translation's. An unaligned one is among
them with PSR.ac = 0 where it does not cross 16 bytes and the processor does not report it (R143). -/
def Obligations.AccessibleReferences : Prop :=
  ∀ (s : State) (ref : Ref) (pa : Nat) (attr : Attr), Mapped s ref pa attr →
    (ref.chk = true → ¬Breakpoint s ref ∧ ¬AlignmentStops s ref ∧ ¬Unsupported ref.sup attr) → Accessible s ref pa attr s

/-- R480, R484, R505: a load of a NaT address and a store of a NaT address or datum raise NaT Consumption; a load, a store and a
semaphore take the first fault of their reference; a reference that no translation matches, with the walker off, finds the
Alternate Data TLB Miss, with IFA and the default ITIR, and with PSR.ic = 0 a load then goes to the Data Nested TLB vector
(R487). A load or store that is not aligned raises Unaligned Data Reference with PSR.ac = 1, and with PSR.ac = 0 where it crosses
16 bytes or the processor reports it, a semaphore always (R143, R494), and a semaphore of a page that does not support it
Unsupported Data Reference (R495); that the fills, spills, 16-byte and floating-point accesses take the first fault of their
reference too is stated with them, and which that is in PageFaults. GR0 as a target
(R426, R449), and a base update of GR0 or of the load's own target (R423, log entry 48), are Illegal Operation faults, with
ISR.sp = 1 of a speculative load (R502). -/
def Obligations.DataFaults : Prop :=
  (∀ (i : Instr) (f : LoadForm) (s : State), intLoadForm i = some f → s.pred f.qp = true →
    (f.r1 = 0 ∨ ¬BaseOk f.r3 (some f.r1) f.upd → exec i s = raise s { excIllegalOperation with sp := f.flav.speculative }) ∧
    (f.r1 ≠ 0 → BaseOk f.r3 (some f.r1) f.upd → f.flav.speculative = false →
      (f.flav.checks = true → s.alatHit false f.r1 = false) →
      (s.nat f.r3 = true → exec i s = raise s { off := 0x5600, code := 0x10, r := true }) ∧
      (s.nat f.r3 = false → ∀ c k e rest, checkRef s 0 (f.ref s) = .ok c → c.faults = (k, e) :: rest →
        exec i s = raise c.st e) ∧
      (s.nat f.r3 = false → ∀ pa attr, Mapped s (f.ref s) pa attr → ¬Breakpoint s (f.ref s) → AlignmentStops s (f.ref s) →
        exec i s = raise s { off := 0x5A00, r := true, ifa := some (s.val f.r3) }) ∧
      (s.nat f.r3 = false → Settled s → s.psrNow Psr.ic = false → ivaBad s (s.sys.getCr 2 &&& 0xFFFFFFFFFFFF8000) = false →
        ∀ e, FaultsWith s (f.ref s) .tlb e → e.dataMiss = true →
        ∃ t, exec i s = .next t ∧ t.ip = (s.sys.getCr 2 &&& 0xFFFFFFFFFFFF8000) ||| 0x1400 ∧ t.sys.cr = s.sys.cr))) ∧
  (∀ (i : Instr) (f : StoreForm) (s : State), intStoreForm i = some f → s.pred f.qp = true →
    (¬BaseOk f.r3 none f.upd → exec i s = raise s excIllegalOperation) ∧
    (BaseOk f.r3 none f.upd →
      (s.nat f.r3 = true ∨ s.nat f.r2 = true → exec i s = raise s { off := 0x5600, code := 0x10, w := true }) ∧
      (s.nat f.r3 = false → s.nat f.r2 = false →
        (∀ c k e rest, checkRef s 0 (f.ref s) = .ok c → c.faults = (k, e) :: rest → exec i s = raise c.st e) ∧
        ∀ pa attr, Mapped s (f.ref s) pa attr → ¬Breakpoint s (f.ref s) → AlignmentStops s (f.ref s) →
          exec i s = raise s { off := 0x5A00, w := true, ifa := some (s.val f.r3) }))) ∧
  (∀ (s : State) (ref : Ref), (s.dataView 0).dt = true → unimplVa s.vm ref.va = false →
    (s.dataView 0).tlb.lookup .data (rrRid ((s.dataView 0).rrOf ref.va)) ref.va = [] →
    walkerEnabled (s.dataView 100) .data ref.va = false →
    ∃ e, FaultsWith s ref .tlb e ∧ e.off = 0x1000 ∧ e.dataMiss = true ∧
      e.ifa = some ref.va ∧ e.itir = some (s.faultRr ref.va &&& 0xFFFFFFFC) ∧ e.r = ref.r ∧ e.w = ref.w) ∧
  (∀ (i : Instr) (qp : BitVec 6) (r1 r3 : BitVec 7) (nat2 : Bool) (ref : Ref) (s : State),
    ((∃ f, (cmpxchgForm i = some f ∨ xchgForm i = some f) ∧ qp = f.qp ∧ r1 = f.r1 ∧ r3 = f.r3 ∧ nat2 = s.nat f.r2 ∧
        ref = semRef s f.r3 f.size .writeBackOnly) ∨
      (∃ f, cmp8xchg16Form i = some f ∧ qp = f.qp ∧ r1 = f.r1 ∧ r3 = f.r3 ∧ nat2 = s.nat f.r2 ∧ ref = pairSemRef s f.r3) ∨
      (∃ n inc, fetchaddForm i = some (qp, n, r1, inc, r3) ∧ nat2 = false ∧ ref = semRef s r3 n .fetchadd)) →
    s.pred qp = true →
    (r1 = 0 → exec i s = raise s excIllegalOperation) ∧
    (r1 ≠ 0 →
      (s.nat r3 = true ∨ nat2 = true → exec i s = raise s { off := 0x5600, code := 0x10, w := true, r := true }) ∧
      (s.nat r3 = false → nat2 = false →
        (∀ c k e rest, checkRef s 0 ref = .ok c → c.faults = (k, e) :: rest → exec i s = raise c.st e) ∧
        (∀ pa attr, Mapped s ref pa attr → ¬Breakpoint s ref →
          ((s.val r3).toNat % ref.align ≠ 0 →
            exec i s = raise s { off := 0x5A00, w := true, r := true, ifa := some (s.val r3) }) ∧
          ((s.val r3).toNat % ref.align = 0 → Unsupported ref.sup attr →
            exec i s = raise s { off := 0x5B00, w := true, r := true, ifa := some (s.val r3) })))))

/-- R485 to R495, R481, R505, R143: what a found translation, or an unimplemented address, makes the first fault of a data
reference, in the order of Figure 4-16: Unimplemented Data Address, Page Not Present, NaT Page Consumption, Key Miss, Key
Permission, Access Rights, Dirty Bit, Access Bit, and of a reference that has these checks, with PSR.dt 0 or 1, Data Debug (with
PSR.db = 1 and PSR.dd = 0), Unaligned Data Reference (with either value of PSR.ac), Unsupported Data Reference; each with its
vector and code, IFA and, but for the last three, ITIR (for a Key Miss with the entry's key), and the reference's r, w, na and sp in
ISR. Which addresses a breakpoint matches is log entry 25. ITIR reports the region register as it is read for the
fault, which may not be the value the search saw (R64): with nothing in flight it is the register's. -/
def Obligations.PageFaults : Prop :=
  ∀ (s : State) (ref : Ref) (rr : Word),
    (Settled s → s.faultRr ref.va = rd s.sys.rr (ref.va.extractLsb' 61 3).toNat 0) ∧
    ((if (s.dataView 0).dt then unimplVa s.vm ref.va else unimplPa ref.va) = true →
      FaultsWith s ref .unimplemented (faultOf ref 0x5400 0x30 none)) ∧
    (∀ e, (s.dataView 0).dt = true → unimplVa s.vm ref.va = false → rr = s.faultRr ref.va →
      (s.dataView 0).tlb.lookup .data (rrRid ((s.dataView 0).rrOf ref.va)) ref.va = [e] →
      (e.p = false → FaultsWith s ref .notPresent (faultOf ref 0x5000 0 (some (rr &&& 0xFFFFFFFC)))) ∧
      (e.p = true → e.ma = 7 → FaultsWith s ref .natPage (faultOf ref 0x5600 0x20 (some (rr &&& 0xFFFFFFFC)))) ∧
      (e.p = true → e.ma ≠ 7 →
        ((s.dataView 0).pk = true → matchingPkrs (s.dataView 0).pkr e.key = [] →
          FaultsWith s ref .keyMiss (faultOf ref 0x1C00 0 (some ((rr &&& 0xFC) ||| (0#32 ++ e.key ++ 0#8))))) ∧
        ((s.dataView 0).pk = true → (∃ w ∈ matchingPkrs (s.dataView 0).pkr e.key,
            ref.r = true ∧ pkrDisables w .r = true ∨ ref.w = true ∧ pkrDisables w .w = true) →
          FaultsWith s ref .keyPermission (faultOf ref 0x5100 0 (some (rr &&& 0xFFFFFFFC)))) ∧
        (KeyAllows (s.dataView 0) ref e →
          (ref.r = true ∧ rights e.ar e.pl ref.pl .r = false ∨ ref.w = true ∧ rights e.ar e.pl ref.pl .w = false →
            FaultsWith s ref .accessRights (faultOf ref 0x5300 0 (some (rr &&& 0xFFFFFFFC)))) ∧
          ((ref.r = true → rights e.ar e.pl ref.pl .r = true) → (ref.w = true → rights e.ar e.pl ref.pl .w = true) →
            (ref.dirty = true → e.d = false → s.psrNow Psr.da = false →
              FaultsWith s ref .dirtyBit (faultOf ref 0x2000 0 (some (rr &&& 0xFFFFFFFC)))) ∧
            ((ref.dirty = true → e.d = true) → e.a = false → s.psrNow Psr.da = false →
              FaultsWith s ref .accessBit (faultOf ref 0x2800 0 (some (rr &&& 0xFFFFFFFC)))))))) ∧
    (∀ pa attr, Mapped s ref pa attr → ref.chk = true →
      (Breakpoint s ref → FaultsWith s ref .debug (faultOf ref 0x5900 0 none)) ∧
      (¬Breakpoint s ref → AlignmentStops s ref → FaultsWith s ref .unaligned (faultOf ref 0x5A00 0 none)) ∧
      (¬Breakpoint s ref → ¬AlignmentStops s ref → Unsupported ref.sup attr →
        FaultsWith s ref .unsupported (faultOf ref 0x5B00 0 none)))

/-- R483, R485 to R493, R497, R158: the faults of an instruction fetch, in their order: an unimplemented instruction address;
with no translation, and the walker off, Alternate Instruction TLB; then by the entry found Page Not Present, NaT Page
Consumption, Key Miss, Key Permission, Access Rights, Access Bit; then Instruction Debug. The step is the delivery of the
fault, with IFA the bundle address (log entries 25 and 32 for Instruction Debug). That the fault of an unimplemented
instruction address has the trap's ISR.code 0x10 and ISR.x = 1 is the model's choice (log entry 35: R497 gives code bits for
the traps only). ITIR reports the region register as it is read for the fault (R64); with nothing in flight it is the
register's. A fetch that depends on what a srlz.i of its own group is to serialize is another matter (StepRunsDecoded). -/
def Obligations.InstructionFaults : Prop :=
  ∀ (s : State) (rr : Word), Fetches s →
    (Settled s → s.fetchFaultRr s.ip = rd s.sys.rr (s.ip.extractLsb' 61 3).toNat 0) ∧
    (unimplInstr s s.ip = true →
      step s = ticked (deliver { s with ctx := Ctx.none } (fetchFault 0x5E00 0x10 none none) (uiaIip s s.ip) s.slot s.slot)) ∧
    (unimplInstr s s.ip = false → s.fetchesEarly = false → s.psrNow Psr.it = true → rr = s.fetchFaultRr s.ip →
      ((s.fetchView 0).tlb.lookup .instr (rrRid ((s.fetchView 0).rrOf s.ip)) s.ip = [] →
        walkerEnabled (s.fetchView 100) .instr s.ip = false →
        ∃ iha, step s = ticked (raise { s with ctx := Ctx.none }
          { fetchFault 0x0C00 0 (some s.ip) (some (rr &&& 0xFFFFFFFC)) with iha := iha })) ∧
      (∀ e u, (s.fetchView 0).tlb.lookup .instr (rrRid ((s.fetchView 0).rrOf s.ip)) s.ip = [e] →
        u = { s with ctx := { Ctx.none with translated := true, ed := e.ed, ar := e.ar, pl := e.pl } } →
        (e.p = false → step s = ticked (raise u (fetchFault 0x5000 0 (some s.ip) (some (rr &&& 0xFFFFFFFC))))) ∧
        (e.p = true → e.ma = 7 → step s = ticked (raise u (fetchFault 0x5600 0x20 (some s.ip) (some (rr &&& 0xFFFFFFFC))))) ∧
        (e.p = true → e.ma ≠ 7 →
          ((s.fetchView 0).pk = true → matchingPkrs (s.fetchView 0).pkr e.key = [] →
            step s = ticked (raise u
              (fetchFault 0x1800 0 (some s.ip) (some ((rr &&& 0xFC) ||| (0#32 ++ e.key ++ 0#8)))))) ∧
          ((s.fetchView 0).pk = true → (∃ w ∈ matchingPkrs (s.fetchView 0).pkr e.key, pkrDisables w .x = true) →
            step s = ticked (raise u (fetchFault 0x5100 0 (some s.ip) (some (rr &&& 0xFFFFFFFC))))) ∧
          (((s.fetchView 0).pk = true → matchingPkrs (s.fetchView 0).pkr e.key ≠ [] ∧
              ∀ w ∈ matchingPkrs (s.fetchView 0).pkr e.key, pkrDisables w .x = false) →
            (rights e.ar e.pl s.cpl .x = false →
              step s = ticked (raise u (fetchFault 0x5200 0 (some s.ip) (some (rr &&& 0xFFFFFFFC))))) ∧
            (rights e.ar e.pl s.cpl .x = true →
              (e.a = false → s.psrNow Psr.ia = false →
                step s = ticked (raise u (fetchFault 0x2400 0 (some s.ip) (some (rr &&& 0xFFFFFFFC))))) ∧
              (e.a = true → Settled s → s.psrNow Psr.db = true → s.psrNow Psr.id = false →
                Config.instrBreak s.sys.ibr.toList s.ip s.cpl = true →
                step s = ticked (raise u (fetchFault 0x5900 0 none none))))))))

/-- R268 to R273, R267, R162: what a search that finds no entry, with the walker on, makes of the VHPT entry of its address: an
entry that is valid for the address is inserted and found, with the fields of its words; a long-format entry of another tag is a
miss; a table address that no translation maps is a VHPT Translation fault; with an unimplemented table base every walk is a miss
(11 R104). A table that is not aligned to its size, a long-format table while two region registers use one identifier with two
page sizes, and a long-format entry of a smaller page than the preferred one are undefined (70 R562, 6, 11), as is a table page
that another translation maps uncacheable. That, for rule 1 of R267, a region register uses a page size only if that size is
insertable, and the walk goes on where another one holds the identifier with a size that is not, is the model's choice (log
entry 29). The walker uses the lines it reads as cacheable (log entry 56). Whether the walker aborts is free (log entry 29). -/
def Obligations.WalkerInserts : Prop :=
  ∀ (s : State) (v w : TransView) (side : Side) (va a rr : Word) (n : Nat),
    v.tlb.lookup side (rrRid (v.rrOf va)) va = [] → walkerEnabled w side va = true → rr = w.rrOf va →
    a = vhptAddr w.pta rr va → n = (if ptaVf w.pta then 32 else 8) →
    (ptaBase w.pta &&& BitVec.ofNat 64 (2 ^ ptaSize w.pta - 1) ≠ 0 → searchTlb s v w side va = .refuse .vhptMisaligned) ∧
    (ptaBase w.pta &&& BitVec.ofNat 64 (2 ^ ptaSize w.pta - 1) = 0 →
      (unimplVa w.vm (ptaBase w.pta) = true → searchTlb s v w side va = .miss s) ∧
      (unimplVa w.vm (ptaBase w.pta) = false → ptaVf w.pta = true →
        (∃ r ∈ w.rr.toList, rrRid r = rrRid rr ∧ rrPs r ≠ rrPs rr ∧ insertable (rrPs r) = true) →
        searchTlb s v w side va = .refuse .vhptRulesBroken) ∧
      (unimplVa w.vm (ptaBase w.pta) = false →
        (ptaVf w.pta = true → ∀ r ∈ w.rr.toList, rrRid r = rrRid rr → insertable (rrPs r) = true → rrPs r = rrPs rr) →
        Config.hasVhptWalker = true → walkerSupports (rrPs rr) = true → Config.freeBit .walkAbort s.tick = false →
        unimplVa w.vm a = false → w.db = false →
        (w.tlb.lookup .data (rrRid (w.rrOf a)) a = [] → searchTlb s v w side va = .vhptFault a) ∧
        (∀ (t : TlbEntry) (u : State) (w0 w1 tag : Word) (ps : Nat) (key : BitVec 24),
          w.tlb.lookup .data (rrRid (w.rrOf a)) a = [t] → walkBlocked w t = false → unpopulated s.holes (t.pa a) n = false →
          u = s.touch .wb (t.pa a) n →
          w0 = BitVec.ofNat 64 (readBytes (bit w.dcr 1) s.mem (t.pa a) 8) →
          w1 = BitVec.ofNat 64 (readBytes (bit w.dcr 1) s.mem (t.pa a + 8) 8) →
          tag = BitVec.ofNat 64 (readBytes (bit w.dcr 1) s.mem (t.pa a + 16) 8) →
          ps = (if ptaVf w.pta then (w1.extractLsb' 2 6).toNat else rrPs rr) →
          key = (if ptaVf w.pta then w1.extractLsb' 8 24 else rrRid rr) →
          (s.aliased .wb (t.pa a) n = true → searchTlb s v w side va = .refuse .attributeAliasing) ∧
          (s.aliased .wb (t.pa a) n = false →
            (ptaVf w.pta = true → tag ≠ vhptTag rr va → searchTlb s v w side va = .miss u) ∧
            ((ptaVf w.pta = true → tag = vhptTag rr va) → insertable ps = true →
              (bit w0 0 = true → pteReserved w0 = false ∧ ppnUnimpl w0 = false ∧
                (ptaVf w.pta = true → w1 &&& 0xFFFFFFFF00000003 = 0 ∧ keyUnimpl key = false)) →
              (ptaVf w.pta = true → ps < rrPs rr → searchTlb s v w side va = .refuse .vhptRulesBroken) ∧
              ((ptaVf w.pta = true → rrPs rr ≤ ps) →
                (bit w0 0 = true → platformSupports (w0.extractLsb' 2 3) = true) →
                ∀ e, e = mkEntry w0 ps key (rrRid rr) va → trOverlaps (s.sys.trs side) e.rid e.base ps = false →
                searchTlb s v w side va = .found e (u.mapSys (Sys.insertTc s.tick side e)) ∧
                e ∈ (Sys.insertTc s.tick side e s.sys).tc side ∧
                e.hits (rrRid rr) va = true ∧ e.ps.toNat = ps ∧ e.key = key ∧ e.p = bit w0 0 ∧ e.ma = w0.extractLsb' 2 3 ∧
                e.a = bit w0 5 ∧ e.d = bit w0 6 ∧ e.pl = w0.extractLsb' 7 2 ∧ e.ar = w0.extractLsb' 9 3 ∧
                e.ed = bit w0 52 ∧
                e.pa va = (w0 &&& 0x3FFFFFFFFF000).toNat / 2 ^ ps * 2 ^ ps + va.toNat % 2 ^ ps))))))

/-- R97, R514, R513: the sources of external interrupts that one processor shows. The interval timer counts on by a positive
amount, and when it passes ITM the vector of ITV becomes pending unless ITV masks it (log entry 21); what is pending stays
pending until IVR is read. A store of 8 bytes to the interrupt region of the Processor Interrupt Block that names this
processor's LID makes its vector pending, or asks for the event of its delivery mode; another processor's leaves this one
alone; a byte store to XTP sets it; such a store removes the ALAT entries it overlaps (R65); other stores are undefined. A byte load of INTA completes with a free value
(the block's place, the message's fields and the LID's, and what a reserved vector or delivery mode does, are log entry 22). -/
def Obligations.InterruptSources : Prop :=
  (∀ s : State, Settled s → ∃ d, 0 < d ∧ d ≤ 2 ^ 32 ∧ (tickOver s).sys.itc = s.sys.itc + BitVec.ofNat 64 d ∧
    (∀ n, s.irr.getLsbD n = true → (tickOver s).irr.getLsbD n = true) ∧
    ((∃ k, 0 < k ∧ k ≤ d ∧ s.sys.itc + BitVec.ofNat 64 k = s.sys.getCr 1) → bit (s.sys.getCr 72) 16 = false →
      (tickOver s).irr.getLsbD ((s.sys.getCr 72).extractLsb' 0 8).toNat = true)) ∧
  (∀ (i : Instr) (f : StoreForm) (s u : State) (pa o v : Nat) (attr : Attr), intStoreForm i = some f → s.pred f.qp = true →
    BaseOk f.r3 none f.upd → s.nat f.r3 = false → s.nat f.r2 = false → Accessible s (f.ref s) pa attr u →
    pibOffset attr pa = some o → u.aliased attr pa f.size = false → v = (s.val f.r2).toNat → Settled s → Quiet s →
    (f.size = 8 → o < 0x100000 → o % 8 = 0 →
      ∃ t, exec i s = .next t ∧ NewBase s t f.r3 f.upd ∧ Left u t ∧ t.xtp = s.xtp ∧ t.sys.inService = s.sys.inService ∧
        t.alat = (s.alat.filter fun a => !rangesOverlap a.pa a.size pa f.size) ∧
        Frame { gr := baseGr f.r3 f.upd, tc := true, owed := true, alat := true, lines := true, irq := true } s t ∧
        (if o / 4096 = ((s.sys.getCr 64).extractLsb' 24 8).toNat ∧ o / 16 % 256 = ((s.sys.getCr 64).extractLsb' 16 8).toNat then
          t.irr = (if v / 256 % 8 = 0 then s.irr ||| (1#256 <<< (v % 256))
            else if v / 256 % 8 = 4 then s.irr ||| 4#256 else if v / 256 % 8 = 7 then s.irr ||| 1#256 else s.irr) ∧
          t.palOwed = (s.palOwed || (v / 256 % 8 == 2 || v / 256 % 8 == 5))
        else t.irr = s.irr ∧ t.palOwed = s.palOwed)) ∧
    (f.size = 1 → o = 0x1E0008 →
      ∃ t, exec i s = .next t ∧ NewBase s t f.r3 f.upd ∧ Left u t ∧ t.xtp.toNat = v % 256 ∧ t.irr = s.irr ∧
        t.palOwed = s.palOwed ∧ t.sys.inService = s.sys.inService ∧
        t.alat = (s.alat.filter fun a => !rangesOverlap a.pa a.size pa f.size) ∧
        Frame { gr := baseGr f.r3 f.upd, tc := true, owed := true, alat := true, lines := true, irq := true } s t) ∧
    ((f.size ≠ 8 ∨ o % 8 ≠ 0 ∨ 0x100000 ≤ o) → (f.size ≠ 1 ∨ o ≠ 0x1E0008) → exec i s = .refused .pibUndefined)) ∧
  (∀ (i : Instr) (f : LoadForm) (s u : State) (pa o : Nat) (attr : Attr), intLoadForm i = some f → s.pred f.qp = true →
    f.r1 ≠ 0 → BaseOk f.r3 (some f.r1) f.upd → s.nat f.r3 = false → f.flav = .plain → Accessible s (f.ref s) pa attr u →
    pibOffset attr pa = some o → u.aliased attr pa f.size = false → Quiet s →
    if f.size = 1 ∧ o = 0x1E0000 then
      ∃ t, exec i s = .next t ∧ t.nat f.r1 = false ∧ (t.val f.r1).toNat < 256 ∧ NewBase s t f.r3 f.upd ∧ Left u t ∧
        Frame { gr := f.r1 :: baseGr f.r3 f.upd, tc := true, owed := true, lines := true } s t
    else exec i s = .refused .pibUndefined)

/-! Loads. -/

/-- R423 to R429, R441 to R443: an integer load that is performed brings its bytes, zero-extended, with NaT 0; the base is
updated; an advanced load and a missing ld.c.nc allocate an ALAT entry. That they allocate on limited-speculation pages and not
on non-speculative ones is the model's choice (log entry 28: Table 4-16 is not in the source, N9). -/
def Obligations.IntegerLoads : Prop :=
  ∀ (i : Instr) (f : LoadForm) (s u : State) (pa : Nat) (attr : Attr), intLoadForm i = some f → s.pred f.qp = true →
    f.r1 ≠ 0 → BaseOk f.r3 (some f.r1) f.upd → s.nat f.r3 = false → Accessible s (f.ref s) pa attr u →
    Ordinary u attr pa f.size → Performs s f.flav false f.r1 attr → Quiet s →
    ∃ t, exec i s = .next t ∧
      t.getGr f.r1 = { val := BitVec.ofNat 64 (readBytes (s.dpsr Psr.be) s.mem pa f.size), nat := false } ∧
      NewBase s t f.r3 f.upd ∧ t.alat = (if allocates f.flav attr then alatWith s false f.r1 pa f.size else s.alat) ∧
      Reached u t attr pa f.size ∧
      Frame { gr := f.r1 :: baseGr f.r3 f.upd, tc := true, owed := true, alat := true, lines := true } s t

/-- R427, R441 to R443, R87, R88, R182, R205, R44, R59: a speculative load of a NaT address, with PSR.ed = 1, on a page that
does not allow speculation, or with a fault that PSR.ic = 0 or a DCR bit defers, is deferred: NaT; with a fault that is not, it
takes it; an advanced load of a non-speculative page gives 0 and no entry; a check load that hits leaves its target, and .clr
drops the entry. The base is updated in each case. -/
def Obligations.LoadCompleters : Prop :=
  ∀ (i : Instr) (f : LoadForm) (s : State), intLoadForm i = some f → s.pred f.qp = true → f.r1 ≠ 0 →
    BaseOk f.r3 (some f.r1) f.upd →
    (f.flav.speculative = true → Deferred s (s.nat f.r3) (f.ref s) → Quiet s →
      ∃ t, exec i s = .next t ∧ t.nat f.r1 = true ∧ NewBase s t f.r3 f.upd ∧
        t.alat = (if f.flav = .sa then alatLess s false f.r1 else s.alat) ∧
        Frame { gr := f.r1 :: baseGr f.r3 f.upd, tc := true, owed := true, alat := true, lines := true } s t) ∧
    (f.flav.speculative = true → s.nat f.r3 = false → s.psrNow Psr.ed = false →
      ∀ c k e rest, checkRef s 0 (f.ref s) = .ok c → c.faults = (k, e) :: rest → ¬FaultDeferred s k →
      exec i s = raise c.st e) ∧
    (f.flav = .a → s.nat f.r3 = false → Quiet s →
      ∀ pa attr u, Accessible s (f.ref s) pa attr u → attr.nonSpeculative = true →
      ∃ t, exec i s = .next t ∧ t.getGr f.r1 = { val := 0, nat := false } ∧ NewBase s t f.r3 f.upd ∧
        t.alat = alatLess s false f.r1 ∧ Left u t ∧
        Frame { gr := f.r1 :: baseGr f.r3 f.upd, tc := true, owed := true, alat := true, lines := true } s t) ∧
    (f.flav.checks = true → s.alatHit false f.r1 = true → s.nat f.r3 = false → Quiet s →
      ∀ pa attr u, Accessible s (f.ref s) pa attr u →
      ∃ t, exec i s = .next t ∧ t.getGr f.r1 = s.getGr f.r1 ∧ NewBase s t f.r3 f.upd ∧
        t.alat = (if f.flav.clears then alatLess s false f.r1 else s.alat) ∧
        Frame { gr := baseGr f.r3 f.upd, tc := true, owed := true, alat := true, lines := true } s t)

/-- R430, R434, R423, R426: ld8.fill takes the NaT bit from the UNAT bit that address bits 8:3 name; st8.spill stores the
value and puts the NaT bit there (what the bytes of a NaT register are is free, log entry 50). GR0 as the target of the fill,
and a base update of GR0 or of the target (log entry 48), are Illegal Operation faults; a NaT address is Register NaT
Consumption (R480), and both take the first fault of their reference. -/
def Obligations.FillAndSpill : Prop :=
  ∀ (i : Instr) (f : StoreForm) (s u : State) (pa : Nat) (attr : Attr), s.pred f.qp = true →
    (fillForm i = some f → f.r2 = 0 ∨ ¬BaseOk f.r3 (some f.r2) f.upd → exec i s = raise s excIllegalOperation) ∧
    (spillForm i = some f → ¬BaseOk f.r3 none f.upd → exec i s = raise s excIllegalOperation) ∧
    (fillForm i = some f → f.r2 ≠ 0 → BaseOk f.r3 (some f.r2) f.upd →
      (s.nat f.r3 = true → exec i s = raise s { off := 0x5600, code := 0x10, r := true }) ∧
      (s.nat f.r3 = false → ∀ c k e rest,
        checkRef s 0 { va := s.val f.r3, size := 8, align := 8, r := true, pl := s.cpl } = .ok c →
        c.faults = (k, e) :: rest → exec i s = raise c.st e)) ∧
    (spillForm i = some f → BaseOk f.r3 none f.upd →
      (s.nat f.r3 = true → exec i s = raise s { off := 0x5600, code := 0x10, w := true }) ∧
      (s.nat f.r3 = false → ∀ c k e rest, checkRef s 0 (f.ref s) = .ok c → c.faults = (k, e) :: rest →
        exec i s = raise c.st e)) ∧
    (s.nat f.r3 = false → Ordinary u attr pa 8 → Quiet s →
      (fillForm i = some f → f.r2 ≠ 0 → BaseOk f.r3 (some f.r2) f.upd →
        Accessible s { va := s.val f.r3, size := 8, align := 8, r := true, pl := s.cpl } pa attr u →
        ∃ t, exec i s = .next t ∧
          t.getGr f.r2 = { val := BitVec.ofNat 64 (readBytes (s.dpsr Psr.be) s.mem pa 8)
                           nat := bit (s.getAr 36) ((s.val f.r3).extractLsb' 3 6).toNat } ∧
          NewBase s t f.r3 f.upd ∧ Reached u t attr pa 8 ∧
          Frame { gr := f.r2 :: baseGr f.r3 f.upd, tc := true, owed := true, lines := true } s t) ∧
      (spillForm i = some f → BaseOk f.r3 none f.upd → Accessible s (f.ref s) pa attr u → MemoryOk s →
        ∃ t, exec i s = .next t ∧
          (s.nat f.r2 = false → readBytes (s.dpsr Psr.be) t.mem pa 8 = (s.val f.r2).toNat) ∧
          (∀ k < 64, bit (t.getAr 36) k =
            if k = ((s.val f.r3).extractLsb' 3 6).toNat then s.nat f.r2 else bit (s.getAr 36) k) ∧
          NewBase s t f.r3 f.upd ∧ t.alat = (s.alat.filter fun a => !rangesOverlap a.pa a.size pa 8) ∧
          Reached u t attr pa 8 ∧
          Frame { gr := baseGr f.r3 f.upd, ar := [36], tc := true, owed := true, alat := true, bytes := inBytes pa 8
                  stale := true, lines := true } s t))

/-- R431, R435, R206: ld16 and st16 move 16 bytes between memory and a general register with CSD, the register in the low half
with PSR.be = 0; with PSR.be = 1 they complete, and which half goes where is not stated (log entry 41). They take the first
fault of their reference, which asks for a write-back page. GR0 as the target of ld16 is an Illegal Operation fault, a NaT
address of either and a NaT datum of st16 are Register NaT Consumption (R480). -/
def Obligations.SixteenBytes : Prop :=
  ∀ (i : Instr) (qp : BitVec 6) (r r3 : BitVec 7) (s : State), s.pred qp = true →
    (load16Form i = some (qp, r, r3) → r = 0 → exec i s = raise s excIllegalOperation) ∧
    (load16Form i = some (qp, r, r3) → r ≠ 0 → s.nat r3 = true →
      exec i s = raise s { off := 0x5600, code := 0x10, r := true }) ∧
    (store16Form i = some (qp, r, r3) → s.nat r3 = true ∨ s.nat r = true →
      exec i s = raise s { off := 0x5600, code := 0x10, w := true }) ∧
    (s.nat r3 = false →
      (load16Form i = some (qp, r, r3) → r ≠ 0 →
        ∀ ref, ref = { va := s.val r3, size := 16, align := 16, r := true, strict := true, sup := .writeBackOnly, pl := s.cpl } →
        (∀ u pa attr, Accessible s ref pa attr u → Ordinary u attr pa 16 → Quiet s →
          ∃ t, exec i s = .next t ∧ t.nat r = false ∧
            (s.dpsr Psr.be = false → t.val r = BitVec.ofNat 64 (readBytes false s.mem pa 8) ∧
              t.getAr 25 = BitVec.ofNat 64 (readBytes false s.mem (pa + 8) 8)) ∧
            Reached u t attr pa 16 ∧ Frame { gr := [r], ar := [25], tc := true, owed := true, lines := true } s t) ∧
        ∀ c k e rest, checkRef s 0 ref = .ok c → c.faults = (k, e) :: rest → exec i s = raise c.st e) ∧
      (store16Form i = some (qp, r, r3) → s.nat r = false →
        ∀ ref, ref = { va := s.val r3, size := 16, align := 16, w := true, dirty := true, strict := true
                       sup := .writeBackOnly, pl := s.cpl } →
        (∀ u pa attr, Accessible s ref pa attr u → Ordinary u attr pa 16 → MemoryOk s → Quiet s →
          ∃ t, exec i s = .next t ∧
            (s.dpsr Psr.be = false → s.dpsr Psr.be 1 = false → readBytes false t.mem pa 8 = (s.val r).toNat ∧
              readBytes false t.mem (pa + 8) 8 = (s.getAr 25).toNat) ∧
            t.alat = (s.alat.filter fun a => !rangesOverlap a.pa a.size pa 16) ∧ Reached u t attr pa 16 ∧
            Frame { tc := true, owed := true, alat := true, bytes := inBytes pa 16, stale := true, lines := true } s t) ∧
        ∀ c k e rest, checkRef s 0 ref = .ok c → c.faults = (k, e) :: rest → exec i s = raise c.st e))

/-! Stores and semaphores. -/

/-- R432, R433, R141, R440: an integer store writes the low bytes of its register in the byte order of PSR.be and no other
byte, updates its base, and drops the ALAT entries it overlaps. -/
def Obligations.IntegerStores : Prop :=
  ∀ (i : Instr) (f : StoreForm) (s u : State) (pa : Nat) (attr : Attr), intStoreForm i = some f → s.pred f.qp = true →
    BaseOk f.r3 none f.upd → s.nat f.r3 = false → s.nat f.r2 = false → Accessible s (f.ref s) pa attr u →
    Ordinary u attr pa f.size → MemoryOk s → Quiet s →
    ∃ t, exec i s = .next t ∧ readBytes (s.dpsr Psr.be) t.mem pa f.size = (s.val f.r2).toNat % 256 ^ f.size ∧
      NewBase s t f.r3 f.upd ∧ t.alat = (s.alat.filter fun a => !rangesOverlap a.pa a.size pa f.size) ∧
      Reached u t attr pa f.size ∧
      Frame { gr := baseGr f.r3 f.upd, tc := true, owed := true, alat := true, bytes := inBytes pa f.size, stale := true
              lines := true } s t

/-- R449, R450, R453: xchg stores its register and brings the old bytes; cmpxchg stores only where the old bytes equal CCV's;
cmp8xchg16 compares the 8 bytes with CCV and, where they are equal, stores its register and CSD in the 16 bytes around them
(their order with PSR.be = 1 is not stated, log entry 41); it brings the old 8 bytes. -/
def Obligations.Exchanges : Prop :=
  ∀ (i : Instr) (f : SemForm) (s u : State) (pa : Nat) (attr : Attr), s.pred f.qp = true → f.r1 ≠ 0 → s.nat f.r3 = false →
    s.nat f.r2 = false → MemoryOk s → Quiet s →
    (Accessible s (semRef s f.r3 f.size .writeBackOnly) pa attr u → Ordinary u attr pa f.size → attr.writeBack = true →
      (xchgForm i = some f ∨ cmpxchgForm i = some f ∧
          readBytes (s.dpsr Psr.be) s.mem pa f.size = (s.getAr 32).toNat % 256 ^ f.size →
        ∃ t, exec i s = .next t ∧
          t.getGr f.r1 = { val := BitVec.ofNat 64 (readBytes (s.dpsr Psr.be) s.mem pa f.size), nat := false } ∧
          readBytes (s.dpsr Psr.be 1) t.mem pa f.size = (s.val f.r2).toNat % 256 ^ f.size ∧
          t.alat = (s.alat.filter fun a => !rangesOverlap a.pa a.size pa f.size) ∧ Reached u t attr pa f.size ∧
          Frame { gr := [f.r1], tc := true, owed := true, alat := true, bytes := inBytes pa f.size, stale := true
                  lines := true } s t) ∧
      (cmpxchgForm i = some f → readBytes (s.dpsr Psr.be) s.mem pa f.size ≠ (s.getAr 32).toNat % 256 ^ f.size →
        ∃ t, exec i s = .next t ∧
          t.getGr f.r1 = { val := BitVec.ofNat 64 (readBytes (s.dpsr Psr.be) s.mem pa f.size), nat := false } ∧
          Reached u t attr pa f.size ∧
          Frame { gr := [f.r1], tc := true, owed := true, lines := true } s t)) ∧
    (cmp8xchg16Form i = some f → Accessible s (pairSemRef s f.r3) pa attr u → Ordinary u attr (pa / 16 * 16) 16 →
      ∃ t, exec i s = .next t ∧
        t.getGr f.r1 = { val := BitVec.ofNat 64 (readBytes (s.dpsr Psr.be) s.mem pa 8), nat := false } ∧
        Reached u t attr (pa / 16 * 16) 16 ∧
        (readBytes (s.dpsr Psr.be) s.mem pa 8 = (s.getAr 32).toNat →
          (s.dpsr Psr.be 1 = false → readBytes false t.mem (pa / 16 * 16) 8 = (s.val f.r2).toNat ∧
            readBytes false t.mem (pa / 16 * 16 + 8) 8 = (s.getAr 25).toNat) ∧
          t.alat = (s.alat.filter fun a => !rangesOverlap a.pa a.size (pa / 16 * 16) 16) ∧
          Frame { gr := [f.r1], tc := true, owed := true, alat := true, bytes := inBytes (pa / 16 * 16) 16, stale := true
                  lines := true } s t) ∧
        (readBytes (s.dpsr Psr.be) s.mem pa 8 ≠ (s.getAr 32).toNat →
          Frame { gr := [f.r1], tc := true, owed := true, lines := true } s t))

/-- R451, R452, R312: fetchadd adds its increment to the bytes and brings the old ones; on a page where it is exported, what
comes back, zero-extended, and what is stored is the platform's (log entry 42). -/
def Obligations.FetchAndAdds : Prop :=
  ∀ (i : Instr) (qp : BitVec 6) (n : Nat) (r1 r3 : BitVec 7) (inc : BitVec 3) (s u : State) (pa : Nat) (attr : Attr),
    fetchaddForm i = some (qp, n, r1, inc, r3) → s.pred qp = true → r1 ≠ 0 → s.nat r3 = false →
    Accessible s (semRef s r3 n .fetchadd) pa attr u → Ordinary u attr pa n → MemoryOk s → Quiet s →
    (attr.writeBack = true →
      ∃ t, exec i s = .next t ∧
        t.getGr r1 = { val := BitVec.ofNat 64 (readBytes (s.dpsr Psr.be) s.mem pa n), nat := false } ∧
        readBytes (s.dpsr Psr.be 1) t.mem pa n =
          (readBytes (s.dpsr Psr.be) s.mem pa n +
            (if inc.getLsbD 2 then 256 ^ n - [16, 8, 4, 1].getD (inc.toNat % 4) 0 else [16, 8, 4, 1].getD (inc.toNat % 4) 0)) %
            256 ^ n ∧
        t.alat = (s.alat.filter fun a => !rangesOverlap a.pa a.size pa n) ∧ Reached u t attr pa n ∧
        Frame { gr := [r1], tc := true, owed := true, alat := true, bytes := inBytes pa n, stale := true, lines := true } s t) ∧
    (attr.writeBack = false → ∃ t, exec i s = .next t ∧ t.nat r1 = false ∧ (t.val r1).toNat < 256 ^ n ∧ Reached u t attr pa n ∧
      t.alat = (s.alat.filter fun a => !rangesOverlap a.pa a.size pa n) ∧
      Frame { gr := [r1], tc := true, owed := true, alat := true, bytes := inBytes pa n, stale := true
              lines := true } s t)

/-! Floating point. -/

/-- R455, R42, R43, R87, R88, R421: a floating-point load that is performed brings the register form of its datum and marks
its register set; one that is deferred brings NaTVal; an advanced load of a non-speculative page brings the form of 0 and no
entry; a check load that hits leaves its target; other loads take the first fault of their reference. The register forms are
not in the source (log entry 27); the pages on which a load allocates an ALAT entry are the model's choice (log entry 28: N9).
A disabled register set is a Disabled Floating-Point Register fault (R50, R51), a NaT address of a load that is not
speculative a Register NaT Consumption; that FR0 or FR1 as the target is an Illegal Operation fault is the model's choice (log
entry 27), a base update of GR0 is one too (log entry 48); ISR.sp tells a speculative load (R502). -/
def Obligations.FloatLoads : Prop :=
  ∀ (i : Instr) (f : FpForm) (s : State), fpLoadForm i = some f → s.pred f.qp = true →
    (f.f.toNat < 2 ∨ ¬BaseOk f.r3 none f.upd → exec i s = raise s { excIllegalOperation with sp := f.flav.speculative }) ∧
    (BaseOk f.r3 none f.upd → 2 ≤ f.f.toNat → f.f.toNat < 32 → s.dpsr Psr.dfl = true →
      exec i s = raise s { off := 0x5500, code := 1, sp := f.flav.speculative }) ∧
    (BaseOk f.r3 none f.upd → 32 ≤ f.f.toNat → s.dpsr Psr.dfh = true →
      exec i s = raise s { off := 0x5500, code := 2, sp := f.flav.speculative }) ∧
    (2 ≤ f.f.toNat → FpEnabled s f.f → BaseOk f.r3 none f.upd →
      (s.nat f.r3 = true → f.flav.speculative = false → (f.flav.checks = true → s.alatHit true f.f = false) →
        exec i s = raise s { off := 0x5600, code := 0x10, r := true }) ∧
      (∀ c k e rest, s.nat f.r3 = false → checkRef s 0 (f.loadRef s) = .ok c → c.faults = (k, e) :: rest →
        (f.flav.checks = true → s.alatHit true f.f = false) →
        (f.flav.speculative = true → s.psrNow Psr.ed = false ∧ ¬FaultDeferred s k) → exec i s = raise c.st e) ∧
      (f.flav.speculative = true → Deferred s (s.nat f.r3) (f.loadRef s) → Quiet s →
        ∃ t, exec i s = .next t ∧ t.getFr f.f = Config.natVal ∧ NewBase s t f.r3 f.upd ∧
          t.alat = (if f.flav = .sa then alatLess s true f.f else s.alat) ∧
          Frame { gr := baseGr f.r3 f.upd, fr := [f.f], psr := fpMarks, tc := true, owed := true, alat := true
                  lines := true } s t) ∧
      (∀ u pa attr, s.nat f.r3 = false → Accessible s (f.loadRef s) pa attr u → Quiet s →
        (Ordinary u attr pa f.size → Performs s f.flav true f.f attr →
          ∃ t, exec i s = .next t ∧ t.getFr f.f = Config.fpFromMem f.fmt (readBytes (s.dpsr Psr.be) s.mem pa f.size) ∧
            bit t.sys.psr (if f.f.toNat < 32 then Psr.mfl else Psr.mfh) = true ∧
            bit t.sys.psr (if f.f.toNat < 32 then Psr.mfh else Psr.mfl) =
              bit s.sys.psr (if f.f.toNat < 32 then Psr.mfh else Psr.mfl) ∧
            NewBase s t f.r3 f.upd ∧ t.alat = (if allocates f.flav attr then alatWith s true f.f pa f.size else s.alat) ∧
            Reached u t attr pa f.size ∧
            Frame { gr := baseGr f.r3 f.upd, fr := [f.f], psr := fpMarks, tc := true, owed := true, alat := true
                    lines := true } s t) ∧
        (f.flav = .a → attr.nonSpeculative = true →
          ∃ t, exec i s = .next t ∧ t.getFr f.f = Config.frZero ∧ NewBase s t f.r3 f.upd ∧ t.alat = alatLess s true f.f ∧
            Frame { gr := baseGr f.r3 f.upd, fr := [f.f], psr := fpMarks, tc := true, owed := true, alat := true
                    lines := true } s t) ∧
        (f.flav.checks = true → s.alatHit true f.f = true →
          ∃ t, exec i s = .next t ∧ t.getFr f.f = s.getFr f.f ∧ NewBase s t f.r3 f.upd ∧
            t.alat = (if f.flav.clears then alatLess s true f.f else s.alat) ∧
            Frame { gr := baseGr f.r3 f.upd, psr := fpMarks, tc := true, owed := true, alat := true, lines := true } s t)))

/-- R455, R421, R87, R88: a pair load brings two data, the first register from the lower address; deferred, failed and hitting
ones do with both registers what a single load does with one; other pair loads take the first fault of their reference. Which
register the lower address goes to, and that the ALAT tracks the first register, are log entry 27's; the pages on which a load
allocates an ALAT entry are the model's choice (log entry 28: N9). A disabled register set of either target is a Disabled
Floating-Point Register fault whose code names the sets (R50, R51), a NaT address of a load that is not speculative a Register NaT
Consumption. That a target of FR0 or FR1 is an Illegal Operation fault and that equal targets keep the datum of the higher address
are the model's choices (log entry 27); a base update of GR0 is an Illegal Operation fault (log entry 48); ISR.sp tells a
speculative load (R502). -/
def Obligations.FloatPairLoads : Prop :=
  ∀ (i : Instr) (f : PairForm) (s : State), fpPairForm i = some f → s.pred f.qp = true →
    (f.f1.toNat < 2 ∨ f.f2.toNat < 2 ∨ ¬BaseOk f.r3 none f.upd →
      exec i s = raise s { excIllegalOperation with sp := f.flav.speculative }) ∧
    (∀ low high, BaseOk f.r3 none f.upd → 2 ≤ f.f1.toNat → 2 ≤ f.f2.toNat →
      low = (s.dpsr Psr.dfl && (decide (f.f1.toNat < 32) || decide (f.f2.toNat < 32))) →
      high = (s.dpsr Psr.dfh && (decide (32 ≤ f.f1.toNat) || decide (32 ≤ f.f2.toNat))) → low = true ∨ high = true →
      exec i s =
        raise s { off := 0x5500, code := (if low then 1 else 0) + (if high then 2 else 0), sp := f.flav.speculative }) ∧
    (2 ≤ f.f1.toNat → 2 ≤ f.f2.toNat → FpEnabled s f.f1 → FpEnabled s f.f2 → BaseOk f.r3 none f.upd →
      (s.nat f.r3 = true → f.flav.speculative = false → (f.flav.checks = true → s.alatHit true f.f1 = false) →
        exec i s = raise s { off := 0x5600, code := 0x10, r := true }) ∧
      (∀ c k e rest, s.nat f.r3 = false → checkRef s 0 (f.ref s) = .ok c → c.faults = (k, e) :: rest →
        (f.flav.checks = true → s.alatHit true f.f1 = false) →
        (f.flav.speculative = true → s.psrNow Psr.ed = false ∧ ¬FaultDeferred s k) → exec i s = raise c.st e) ∧
      (f.flav.speculative = true → Deferred s (s.nat f.r3) (f.ref s) → Quiet s →
        ∃ t, exec i s = .next t ∧ t.getFr f.f1 = Config.natVal ∧ t.getFr f.f2 = Config.natVal ∧ NewBase s t f.r3 f.upd ∧
          t.alat = (if f.flav = .sa then alatLess s true f.f1 else s.alat) ∧
          Frame { gr := baseGr f.r3 f.upd, fr := [f.f1, f.f2], psr := fpMarks, tc := true, owed := true, alat := true
                  lines := true } s t) ∧
      (∀ u pa attr, s.nat f.r3 = false → Accessible s (f.ref s) pa attr u → Quiet s →
        (Ordinary u attr pa (2 * f.fmt.bytes) → Performs s f.flav true f.f1 attr →
          ∃ t, exec i s = .next t ∧
            (f.f1 ≠ f.f2 → t.getFr f.f1 = Config.fpFromMem f.fmt.config (readBytes (s.dpsr Psr.be) s.mem pa f.fmt.bytes)) ∧
            t.getFr f.f2 = Config.fpFromMem f.fmt.config (readBytes (s.dpsr Psr.be) s.mem (pa + f.fmt.bytes) f.fmt.bytes) ∧
            NewBase s t f.r3 f.upd ∧
            t.alat = (if allocates f.flav attr then alatWith s true f.f1 pa (2 * f.fmt.bytes) else s.alat) ∧
            Reached u t attr pa (2 * f.fmt.bytes) ∧
            Frame { gr := baseGr f.r3 f.upd, fr := [f.f1, f.f2], psr := fpMarks, tc := true, owed := true, alat := true
                    lines := true } s t) ∧
        (f.flav = .a → attr.nonSpeculative = true →
          ∃ t, exec i s = .next t ∧ t.getFr f.f1 = Config.frZero ∧ t.getFr f.f2 = Config.frZero ∧ NewBase s t f.r3 f.upd ∧
            t.alat = alatLess s true f.f1 ∧
            Frame { gr := baseGr f.r3 f.upd, fr := [f.f1, f.f2], psr := fpMarks, tc := true, owed := true, alat := true
                    lines := true } s t) ∧
        (f.flav.checks = true → s.alatHit true f.f1 = true →
          ∃ t, exec i s = .next t ∧ t.getFr f.f1 = s.getFr f.f1 ∧ t.getFr f.f2 = s.getFr f.f2 ∧ NewBase s t f.r3 f.upd ∧
            t.alat = (if f.flav.clears then alatLess s true f.f1 else s.alat) ∧
            Frame { gr := baseGr f.r3 f.upd, psr := fpMarks, tc := true, owed := true, alat := true, lines := true } s t)))

/-- R455, R50, R51: a floating-point store writes the memory form of its register (not in the source, log entry 27), and no
other byte; it takes the first fault of its reference; a disabled register set is a Disabled Floating-Point Register fault, a
NaT address a Register NaT Consumption, a base update of GR0 an Illegal Operation (log entry 48). -/
def Obligations.FloatStores : Prop :=
  ∀ (i : Instr) (f : FpForm) (s : State), fpStoreForm i = some f → s.pred f.qp = true →
    (¬BaseOk f.r3 none f.upd → exec i s = raise s excIllegalOperation) ∧
    (BaseOk f.r3 none f.upd →
      (FpEnabled s f.f → s.nat f.r3 = true → exec i s = raise s { off := 0x5600, code := 0x10, w := true }) ∧
      (FpEnabled s f.f → s.nat f.r3 = false →
        (∀ u pa attr, Accessible s (f.storeRef s) pa attr u → Ordinary u attr pa f.size → MemoryOk s → Quiet s →
          ∃ t, exec i s = .next t ∧
            readBytes (s.dpsr Psr.be) t.mem pa f.size = Config.fpToMem f.fmt (s.getFr f.f) % 256 ^ f.size ∧
            NewBase s t f.r3 f.upd ∧ t.alat = (s.alat.filter fun a => !rangesOverlap a.pa a.size pa f.size) ∧
            Reached u t attr pa f.size ∧
            Frame { gr := baseGr f.r3 f.upd, tc := true, owed := true, alat := true, bytes := inBytes pa f.size, stale := true
                    lines := true } s t) ∧
        ∀ c k e rest, checkRef s 0 (f.storeRef s) = .ok c → c.faults = (k, e) :: rest → exec i s = raise c.st e) ∧
      (2 ≤ f.f.toNat → f.f.toNat < 32 → s.dpsr Psr.dfl = true → exec i s = raise s { off := 0x5500, code := 1 }) ∧
      (32 ≤ f.f.toNat → s.dpsr Psr.dfh = true → exec i s = raise s { off := 0x5500, code := 2 }))

/-! What stops. -/

/-- D5, R458: the register stack engine's instructions, the calls and the rotating branches are refused by name: its state is
not in the source (log entry 9). br.call, br.wexit and br.wtop stop with a true predicate only (R15, R317). -/
def Obligations.RegisterStackRefused : Prop :=
  ∀ (r1 sof sol : BitVec 7) (sor : BitVec 4) (qp : BitVec 6) (b1 : BitVec 3) (imm : BitVec 21) (p : BitVec 1) (wh : BitVec 2)
    (d : BitVec 1) (s : State),
    (∀ i ∈ [Instr.alloc r1 sof sol sor, .flushrs, .loadrs, .brRel (.cexit imm p wh d), .brRel (.ctop imm p wh d)],
        exec i s = .refused .rseNotDefined) ∧
    (s.pred qp = true → ∀ x ∈ [BrRelForm.call qp b1 imm p wh d, .wexit qp imm p wh d, .wtop qp imm p wh d],
      exec (.brRel x) s = .refused .rseNotDefined)
end

