-- ==== Sys2Proof/Laws/Memory.lean ====
section
/-!
SUPPORT. The memory: reads after writes, and every operation keeps the canonical form.
-/
namespace Sys2Proof
namespace Machine

theorem Memory.wfFrom_mono {lo lo' : Nat} {m : List Host.Cell} (h : lo' ≤ lo) (hm : Memory.wfFrom lo m = true) :
    Memory.wfFrom lo' m = true := by
  cases m with
  | nil => rfl
  | cons c t =>
    obtain ⟨k, v⟩ := c
    simp only [Memory.wfFrom, Bool.and_eq_true, decide_eq_true_eq] at hm ⊢
    exact ⟨⟨by omega, hm.1.2⟩, hm.2⟩

theorem writeByte_wfFrom {lo a : Nat} {b : Byte} {m : List Host.Cell} (ha : lo ≤ a) (hm : Memory.wfFrom lo m = true) :
    Memory.wfFrom lo (writeByte m a b) = true := by
  induction m generalizing lo with
  | nil =>
    unfold writeByte
    split
    · rfl
    · next h => simp only [Memory.wfFrom, Bool.and_eq_true, decide_eq_true_eq]; exact ⟨⟨ha, h⟩, trivial⟩
  | cons c t ih =>
    obtain ⟨k, v⟩ := c
    simp only [Memory.wfFrom, Bool.and_eq_true, decide_eq_true_eq] at hm
    obtain ⟨⟨hk, hv⟩, ht⟩ := hm
    unfold writeByte
    split
    · split
      · simp only [Memory.wfFrom, Bool.and_eq_true, decide_eq_true_eq]; exact ⟨⟨hk, hv⟩, ht⟩
      · next hlt hb =>
        simp only [Memory.wfFrom, Bool.and_eq_true, decide_eq_true_eq]
        exact ⟨⟨ha, hb⟩, ⟨by omega, hv⟩, ht⟩
    · split
      · next heq =>
        split
        · exact Memory.wfFrom_mono (by omega) ht
        · next hb =>
          simp only [Memory.wfFrom, Bool.and_eq_true, decide_eq_true_eq]
          exact ⟨⟨ha, hb⟩, by rw [heq]; exact ht⟩
      · simp only [Memory.wfFrom, Bool.and_eq_true, decide_eq_true_eq]
        exact ⟨⟨hk, hv⟩, ih (by omega) ht⟩

/-- A write of one byte keeps the canonical form. -/
theorem writeByte_wf {m : List Host.Cell} {a : Nat} {b : Byte} (h : Memory.wf m = true) :
    Memory.wf (writeByte m a b) = true := writeByte_wfFrom (Nat.zero_le a) h

/-- A write of bytes keeps the canonical form. -/
theorem writeList_wf {m : List Host.Cell} {bs : List Byte} {a : Nat} (h : Memory.wf m = true) :
    Memory.wf (writeList m a bs) = true := by
  induction bs generalizing m a with
  | nil => exact h
  | cons b t ih => exact ih (writeByte_wf h)

/-- The memory after a store of bytes keeps the canonical form. -/
theorem storeBytes_wf {s : State} {pa : Nat} {bs : List Byte} (h : Memory.wf s.mem = true) :
    Memory.wf (s.storeBytes pa bs).mem = true := writeList_wf h

theorem readByte_of_wfFrom {lo a : Nat} {m : List Host.Cell} (hm : Memory.wfFrom lo m = true) (h : a < lo) :
    readByte m a = unlistedByte := by
  induction m generalizing lo with
  | nil => rfl
  | cons c t ih =>
    obtain ⟨k, v⟩ := c
    simp only [Memory.wfFrom, Bool.and_eq_true, decide_eq_true_eq] at hm
    unfold readByte
    rw [if_neg (by omega)]
    exact ih hm.2 (by omega)

/-- Another byte reads as before. -/
theorem readByte_writeByte_ne {m : List Host.Cell} {a x : Nat} {b : Byte} (h : x ≠ a) :
    readByte (writeByte m a b) x = readByte m x := by
  induction m with
  | nil =>
    unfold writeByte
    split
    · rfl
    · simp only [readByte]; rw [if_neg (by omega)]
  | cons c t ih =>
    obtain ⟨k, v⟩ := c
    unfold writeByte
    split
    · split
      · rfl
      · simp only [readByte]; rw [if_neg (by omega : ¬ a = x)]
    · split
      · next heq =>
        split <;> simp only [readByte]
        · rw [if_neg (by omega : ¬ k = x)]
        · rw [if_neg (by omega : ¬ a = x), if_neg (by omega : ¬ k = x)]
      · simp only [readByte, ih]

/-- The written byte reads back, in a memory in canonical form. -/
theorem readByte_writeByte_self {lo : Nat} {m : List Host.Cell} {a : Nat} {b : Byte} (hm : Memory.wfFrom lo m = true) :
    readByte (writeByte m a b) a = b := by
  induction m generalizing lo with
  | nil =>
    unfold writeByte
    split
    · next h => rw [h]; rfl
    · simp [readByte]
  | cons c t ih =>
    obtain ⟨k, v⟩ := c
    simp only [Memory.wfFrom, Bool.and_eq_true, decide_eq_true_eq] at hm
    obtain ⟨⟨hk, hv⟩, ht⟩ := hm
    unfold writeByte
    split
    · split
      · next hlt hb =>
        simp only [readByte]; rw [if_neg (by omega), hb]
        exact readByte_of_wfFrom ht (by omega)
      · simp [readByte]
    · split
      · next heq =>
        split
        · next hb => rw [hb]; exact readByte_of_wfFrom ht (by omega)
        · simp [readByte]
      · next h1 h2 => simp only [readByte]; rw [if_neg (by omega)]; exact ih ht

/-- A byte outside a written range reads as before. -/
theorem readByte_writeList_out {bs : List Byte} {m : List Host.Cell} {a x : Nat} (h : x < a ∨ a + bs.length ≤ x) :
    readByte (writeList m a bs) x = readByte m x := by
  induction bs generalizing m a with
  | nil => rfl
  | cons b t ih =>
    simp only [List.length_cons] at h
    simp only [writeList]
    rw [ih (by omega), readByte_writeByte_ne (by omega)]

/-- A written range reads back. -/
theorem readList_writeList {bs : List Byte} {m : List Host.Cell} {a : Nat} (hm : Memory.wf m = true) :
    readList (writeList m a bs) a bs.length = bs := by
  induction bs generalizing m a with
  | nil => rfl
  | cons b t ih =>
    simp only [List.length_cons, readList, writeList]
    rw [ih (writeByte_wf hm), readByte_writeList_out (by omega), readByte_writeByte_self (lo := 0) hm]

@[simp] theorem leBytes_length (n v : Nat) : (leBytes n v).length = n := by
  induction n generalizing v with
  | zero => rfl
  | succ n ih => simp [leBytes, ih]

@[simp] theorem valBytes_length (be : Bool) (n v : Nat) : (valBytes be n v).length = n := by
  unfold valBytes; split <;> simp

@[simp] theorem readList_length (m : List Host.Cell) (a n : Nat) : (readList m a n).length = n := by
  induction n generalizing a with
  | zero => rfl
  | succ n ih => simp [readList, ih]

/-- The little-endian bytes of a number mean the number. -/
theorem leVal_leBytes (n v : Nat) : leVal (leBytes n v) = v % 256 ^ n := by
  induction n generalizing v with
  | zero => simp [leBytes, leVal, Nat.mod_one]
  | succ n ih =>
    simp only [leBytes, leVal, ih, BitVec.toNat_ofNat]
    rw [pow_succ (256 : ℕ) n, Nat.mul_comm (256 ^ n) 256, Nat.mod_mul]

/-- The bytes of a number mean the number, in either byte order. -/
theorem bytesVal_valBytes (be : Bool) (n v : Nat) : bytesVal be (valBytes be n v) = v % 256 ^ n := by
  cases be <;> simp [bytesVal, valBytes, leVal_leBytes]

end Machine
end Sys2Proof
end

