-- ==== Sys2Proof/Laws/State.lean ====
section
/-!
SUPPORT. One lemma per field per update of the state, so that no later proof unfolds an update.
-/
namespace Sys2Proof
namespace Machine

/-! State.setGr -/

@[simp] theorem State.setGr_fr (s : State) (r : BitVec 7) (g : GReg) : (s.setGr r g).fr = s.fr := by unfold State.setGr; split <;> rfl
@[simp] theorem State.setGr_pr (s : State) (r : BitVec 7) (g : GReg) : (s.setGr r g).pr = s.pr := by unfold State.setGr; split <;> rfl
@[simp] theorem State.setGr_br (s : State) (r : BitVec 7) (g : GReg) : (s.setGr r g).br = s.br := by unfold State.setGr; split <;> rfl
@[simp] theorem State.setGr_ar (s : State) (r : BitVec 7) (g : GReg) : (s.setGr r g).ar = s.ar := by unfold State.setGr; split <;> rfl
@[simp] theorem State.setGr_ip (s : State) (r : BitVec 7) (g : GReg) : (s.setGr r g).ip = s.ip := by unfold State.setGr; split <;> rfl
@[simp] theorem State.setGr_slot (s : State) (r : BitVec 7) (g : GReg) : (s.setGr r g).slot = s.slot := by unfold State.setGr; split <;> rfl
@[simp] theorem State.setGr_cfm (s : State) (r : BitVec 7) (g : GReg) : (s.setGr r g).cfm = s.cfm := by unfold State.setGr; split <;> rfl
@[simp] theorem State.setGr_sys (s : State) (r : BitVec 7) (g : GReg) : (s.setGr r g).sys = s.sys := by unfold State.setGr; split <;> rfl
@[simp] theorem State.setGr_dataOld (s : State) (r : BitVec 7) (g : GReg) : (s.setGr r g).dataOld = s.dataOld := by unfold State.setGr; split <;> rfl
@[simp] theorem State.setGr_fetchOld (s : State) (r : BitVec 7) (g : GReg) : (s.setGr r g).fetchOld = s.fetchOld := by unfold State.setGr; split <;> rfl
@[simp] theorem State.setGr_dataWrites (s : State) (r : BitVec 7) (g : GReg) : (s.setGr r g).dataWrites = s.dataWrites := by unfold State.setGr; split <;> rfl
@[simp] theorem State.setGr_fetchWrites (s : State) (r : BitVec 7) (g : GReg) : (s.setGr r g).fetchWrites = s.fetchWrites := by unfold State.setGr; split <;> rfl
@[simp] theorem State.setGr_srlzI (s : State) (r : BitVec 7) (g : GReg) : (s.setGr r g).srlzI = s.srlzI := by unfold State.setGr; split <;> rfl
@[simp] theorem State.setGr_groupRegs (s : State) (r : BitVec 7) (g : GReg) : (s.setGr r g).groupRegs = s.groupRegs := by unfold State.setGr; split <;> rfl
@[simp] theorem State.setGr_lastBundle (s : State) (r : BitVec 7) (g : GReg) : (s.setGr r g).lastBundle = s.lastBundle := by unfold State.setGr; split <;> rfl
@[simp] theorem State.setGr_irr (s : State) (r : BitVec 7) (g : GReg) : (s.setGr r g).irr = s.irr := by unfold State.setGr; split <;> rfl
@[simp] theorem State.setGr_xtp (s : State) (r : BitVec 7) (g : GReg) : (s.setGr r g).xtp = s.xtp := by unfold State.setGr; split <;> rfl
@[simp] theorem State.setGr_waited (s : State) (r : BitVec 7) (g : GReg) : (s.setGr r g).waited = s.waited := by unfold State.setGr; split <;> rfl
@[simp] theorem State.setGr_alat (s : State) (r : BitVec 7) (g : GReg) : (s.setGr r g).alat = s.alat := by unfold State.setGr; split <;> rfl
@[simp] theorem State.setGr_mem (s : State) (r : BitVec 7) (g : GReg) : (s.setGr r g).mem = s.mem := by unfold State.setGr; split <;> rfl
@[simp] theorem State.setGr_stale (s : State) (r : BitVec 7) (g : GReg) : (s.setGr r g).stale = s.stale := by unfold State.setGr; split <;> rfl
@[simp] theorem State.setGr_lines (s : State) (r : BitVec 7) (g : GReg) : (s.setGr r g).lines = s.lines := by unfold State.setGr; split <;> rfl
@[simp] theorem State.setGr_lastTc (s : State) (r : BitVec 7) (g : GReg) : (s.setGr r g).lastTc = s.lastTc := by unfold State.setGr; split <;> rfl
@[simp] theorem State.setGr_tcLost (s : State) (r : BitVec 7) (g : GReg) : (s.setGr r g).tcLost = s.tcLost := by unfold State.setGr; split <;> rfl
@[simp] theorem State.setGr_holes (s : State) (r : BitVec 7) (g : GReg) : (s.setGr r g).holes = s.holes := by unfold State.setGr; split <;> rfl
@[simp] theorem State.setGr_mcOwed (s : State) (r : BitVec 7) (g : GReg) : (s.setGr r g).mcOwed = s.mcOwed := by unfold State.setGr; split <;> rfl
@[simp] theorem State.setGr_palOwed (s : State) (r : BitVec 7) (g : GReg) : (s.setGr r g).palOwed = s.palOwed := by unfold State.setGr; split <;> rfl
@[simp] theorem State.setGr_pmdKnown (s : State) (r : BitVec 7) (g : GReg) : (s.setGr r g).pmdKnown = s.pmdKnown := by unfold State.setGr; split <;> rfl
@[simp] theorem State.setGr_ctx (s : State) (r : BitVec 7) (g : GReg) : (s.setGr r g).ctx = s.ctx := by unfold State.setGr; split <;> rfl
@[simp] theorem State.setGr_tick (s : State) (r : BitVec 7) (g : GReg) : (s.setGr r g).tick = s.tick := by unfold State.setGr; split <;> rfl

/-! State.setVal -/

@[simp] theorem State.setVal_fr (s : State) (r : BitVec 7) (v : Word) : (s.setVal r v).fr = s.fr := by simp [State.setVal]
@[simp] theorem State.setVal_pr (s : State) (r : BitVec 7) (v : Word) : (s.setVal r v).pr = s.pr := by simp [State.setVal]
@[simp] theorem State.setVal_br (s : State) (r : BitVec 7) (v : Word) : (s.setVal r v).br = s.br := by simp [State.setVal]
@[simp] theorem State.setVal_ar (s : State) (r : BitVec 7) (v : Word) : (s.setVal r v).ar = s.ar := by simp [State.setVal]
@[simp] theorem State.setVal_ip (s : State) (r : BitVec 7) (v : Word) : (s.setVal r v).ip = s.ip := by simp [State.setVal]
@[simp] theorem State.setVal_slot (s : State) (r : BitVec 7) (v : Word) : (s.setVal r v).slot = s.slot := by simp [State.setVal]
@[simp] theorem State.setVal_cfm (s : State) (r : BitVec 7) (v : Word) : (s.setVal r v).cfm = s.cfm := by simp [State.setVal]
@[simp] theorem State.setVal_sys (s : State) (r : BitVec 7) (v : Word) : (s.setVal r v).sys = s.sys := by simp [State.setVal]
@[simp] theorem State.setVal_dataOld (s : State) (r : BitVec 7) (v : Word) : (s.setVal r v).dataOld = s.dataOld := by simp [State.setVal]
@[simp] theorem State.setVal_fetchOld (s : State) (r : BitVec 7) (v : Word) : (s.setVal r v).fetchOld = s.fetchOld := by simp [State.setVal]
@[simp] theorem State.setVal_dataWrites (s : State) (r : BitVec 7) (v : Word) : (s.setVal r v).dataWrites = s.dataWrites := by simp [State.setVal]
@[simp] theorem State.setVal_fetchWrites (s : State) (r : BitVec 7) (v : Word) : (s.setVal r v).fetchWrites = s.fetchWrites := by simp [State.setVal]
@[simp] theorem State.setVal_srlzI (s : State) (r : BitVec 7) (v : Word) : (s.setVal r v).srlzI = s.srlzI := by simp [State.setVal]
@[simp] theorem State.setVal_groupRegs (s : State) (r : BitVec 7) (v : Word) : (s.setVal r v).groupRegs = s.groupRegs := by simp [State.setVal]
@[simp] theorem State.setVal_lastBundle (s : State) (r : BitVec 7) (v : Word) : (s.setVal r v).lastBundle = s.lastBundle := by simp [State.setVal]
@[simp] theorem State.setVal_irr (s : State) (r : BitVec 7) (v : Word) : (s.setVal r v).irr = s.irr := by simp [State.setVal]
@[simp] theorem State.setVal_xtp (s : State) (r : BitVec 7) (v : Word) : (s.setVal r v).xtp = s.xtp := by simp [State.setVal]
@[simp] theorem State.setVal_waited (s : State) (r : BitVec 7) (v : Word) : (s.setVal r v).waited = s.waited := by simp [State.setVal]
@[simp] theorem State.setVal_alat (s : State) (r : BitVec 7) (v : Word) : (s.setVal r v).alat = s.alat := by simp [State.setVal]
@[simp] theorem State.setVal_mem (s : State) (r : BitVec 7) (v : Word) : (s.setVal r v).mem = s.mem := by simp [State.setVal]
@[simp] theorem State.setVal_stale (s : State) (r : BitVec 7) (v : Word) : (s.setVal r v).stale = s.stale := by simp [State.setVal]
@[simp] theorem State.setVal_lines (s : State) (r : BitVec 7) (v : Word) : (s.setVal r v).lines = s.lines := by simp [State.setVal]
@[simp] theorem State.setVal_lastTc (s : State) (r : BitVec 7) (v : Word) : (s.setVal r v).lastTc = s.lastTc := by simp [State.setVal]
@[simp] theorem State.setVal_tcLost (s : State) (r : BitVec 7) (v : Word) : (s.setVal r v).tcLost = s.tcLost := by simp [State.setVal]
@[simp] theorem State.setVal_holes (s : State) (r : BitVec 7) (v : Word) : (s.setVal r v).holes = s.holes := by simp [State.setVal]
@[simp] theorem State.setVal_mcOwed (s : State) (r : BitVec 7) (v : Word) : (s.setVal r v).mcOwed = s.mcOwed := by simp [State.setVal]
@[simp] theorem State.setVal_palOwed (s : State) (r : BitVec 7) (v : Word) : (s.setVal r v).palOwed = s.palOwed := by simp [State.setVal]
@[simp] theorem State.setVal_pmdKnown (s : State) (r : BitVec 7) (v : Word) : (s.setVal r v).pmdKnown = s.pmdKnown := by simp [State.setVal]
@[simp] theorem State.setVal_ctx (s : State) (r : BitVec 7) (v : Word) : (s.setVal r v).ctx = s.ctx := by simp [State.setVal]
@[simp] theorem State.setVal_tick (s : State) (r : BitVec 7) (v : Word) : (s.setVal r v).tick = s.tick := by simp [State.setVal]

/-! State.setFr -/

@[simp] theorem State.setFr_gr (s : State) (f : BitVec 7) (v : FWord) : (s.setFr f v).gr = s.gr := by unfold State.setFr; split <;> rfl
@[simp] theorem State.setFr_pr (s : State) (f : BitVec 7) (v : FWord) : (s.setFr f v).pr = s.pr := by unfold State.setFr; split <;> rfl
@[simp] theorem State.setFr_br (s : State) (f : BitVec 7) (v : FWord) : (s.setFr f v).br = s.br := by unfold State.setFr; split <;> rfl
@[simp] theorem State.setFr_ar (s : State) (f : BitVec 7) (v : FWord) : (s.setFr f v).ar = s.ar := by unfold State.setFr; split <;> rfl
@[simp] theorem State.setFr_ip (s : State) (f : BitVec 7) (v : FWord) : (s.setFr f v).ip = s.ip := by unfold State.setFr; split <;> rfl
@[simp] theorem State.setFr_slot (s : State) (f : BitVec 7) (v : FWord) : (s.setFr f v).slot = s.slot := by unfold State.setFr; split <;> rfl
@[simp] theorem State.setFr_cfm (s : State) (f : BitVec 7) (v : FWord) : (s.setFr f v).cfm = s.cfm := by unfold State.setFr; split <;> rfl
@[simp] theorem State.setFr_dataWrites (s : State) (f : BitVec 7) (v : FWord) : (s.setFr f v).dataWrites = s.dataWrites := by unfold State.setFr; split <;> rfl
@[simp] theorem State.setFr_fetchWrites (s : State) (f : BitVec 7) (v : FWord) : (s.setFr f v).fetchWrites = s.fetchWrites := by unfold State.setFr; split <;> rfl
@[simp] theorem State.setFr_srlzI (s : State) (f : BitVec 7) (v : FWord) : (s.setFr f v).srlzI = s.srlzI := by unfold State.setFr; split <;> rfl
@[simp] theorem State.setFr_groupRegs (s : State) (f : BitVec 7) (v : FWord) : (s.setFr f v).groupRegs = s.groupRegs := by unfold State.setFr; split <;> rfl
@[simp] theorem State.setFr_lastBundle (s : State) (f : BitVec 7) (v : FWord) : (s.setFr f v).lastBundle = s.lastBundle := by unfold State.setFr; split <;> rfl
@[simp] theorem State.setFr_irr (s : State) (f : BitVec 7) (v : FWord) : (s.setFr f v).irr = s.irr := by unfold State.setFr; split <;> rfl
@[simp] theorem State.setFr_xtp (s : State) (f : BitVec 7) (v : FWord) : (s.setFr f v).xtp = s.xtp := by unfold State.setFr; split <;> rfl
@[simp] theorem State.setFr_waited (s : State) (f : BitVec 7) (v : FWord) : (s.setFr f v).waited = s.waited := by unfold State.setFr; split <;> rfl
@[simp] theorem State.setFr_alat (s : State) (f : BitVec 7) (v : FWord) : (s.setFr f v).alat = s.alat := by unfold State.setFr; split <;> rfl
@[simp] theorem State.setFr_mem (s : State) (f : BitVec 7) (v : FWord) : (s.setFr f v).mem = s.mem := by unfold State.setFr; split <;> rfl
@[simp] theorem State.setFr_stale (s : State) (f : BitVec 7) (v : FWord) : (s.setFr f v).stale = s.stale := by unfold State.setFr; split <;> rfl
@[simp] theorem State.setFr_lines (s : State) (f : BitVec 7) (v : FWord) : (s.setFr f v).lines = s.lines := by unfold State.setFr; split <;> rfl
@[simp] theorem State.setFr_lastTc (s : State) (f : BitVec 7) (v : FWord) : (s.setFr f v).lastTc = s.lastTc := by unfold State.setFr; split <;> rfl
@[simp] theorem State.setFr_tcLost (s : State) (f : BitVec 7) (v : FWord) : (s.setFr f v).tcLost = s.tcLost := by unfold State.setFr; split <;> rfl
@[simp] theorem State.setFr_holes (s : State) (f : BitVec 7) (v : FWord) : (s.setFr f v).holes = s.holes := by unfold State.setFr; split <;> rfl
@[simp] theorem State.setFr_mcOwed (s : State) (f : BitVec 7) (v : FWord) : (s.setFr f v).mcOwed = s.mcOwed := by unfold State.setFr; split <;> rfl
@[simp] theorem State.setFr_palOwed (s : State) (f : BitVec 7) (v : FWord) : (s.setFr f v).palOwed = s.palOwed := by unfold State.setFr; split <;> rfl
@[simp] theorem State.setFr_pmdKnown (s : State) (f : BitVec 7) (v : FWord) : (s.setFr f v).pmdKnown = s.pmdKnown := by unfold State.setFr; split <;> rfl
@[simp] theorem State.setFr_ctx (s : State) (f : BitVec 7) (v : FWord) : (s.setFr f v).ctx = s.ctx := by unfold State.setFr; split <;> rfl
@[simp] theorem State.setFr_tick (s : State) (f : BitVec 7) (v : FWord) : (s.setFr f v).tick = s.tick := by unfold State.setFr; split <;> rfl

/-! State.setAr -/

@[simp] theorem State.setAr_gr (s : State) (n : Nat) (v : Word) : (s.setAr n v).gr = s.gr := by unfold State.setAr; split <;> rfl
@[simp] theorem State.setAr_fr (s : State) (n : Nat) (v : Word) : (s.setAr n v).fr = s.fr := by unfold State.setAr; split <;> rfl
@[simp] theorem State.setAr_pr (s : State) (n : Nat) (v : Word) : (s.setAr n v).pr = s.pr := by unfold State.setAr; split <;> rfl
@[simp] theorem State.setAr_br (s : State) (n : Nat) (v : Word) : (s.setAr n v).br = s.br := by unfold State.setAr; split <;> rfl
@[simp] theorem State.setAr_ip (s : State) (n : Nat) (v : Word) : (s.setAr n v).ip = s.ip := by unfold State.setAr; split <;> rfl
@[simp] theorem State.setAr_slot (s : State) (n : Nat) (v : Word) : (s.setAr n v).slot = s.slot := by unfold State.setAr; split <;> rfl
@[simp] theorem State.setAr_cfm (s : State) (n : Nat) (v : Word) : (s.setAr n v).cfm = s.cfm := by unfold State.setAr; split <;> rfl
@[simp] theorem State.setAr_srlzI (s : State) (n : Nat) (v : Word) : (s.setAr n v).srlzI = s.srlzI := by unfold State.setAr; split <;> rfl
@[simp] theorem State.setAr_groupRegs (s : State) (n : Nat) (v : Word) : (s.setAr n v).groupRegs = s.groupRegs := by unfold State.setAr; split <;> rfl
@[simp] theorem State.setAr_lastBundle (s : State) (n : Nat) (v : Word) : (s.setAr n v).lastBundle = s.lastBundle := by unfold State.setAr; split <;> rfl
@[simp] theorem State.setAr_irr (s : State) (n : Nat) (v : Word) : (s.setAr n v).irr = s.irr := by unfold State.setAr; split <;> rfl
@[simp] theorem State.setAr_xtp (s : State) (n : Nat) (v : Word) : (s.setAr n v).xtp = s.xtp := by unfold State.setAr; split <;> rfl
@[simp] theorem State.setAr_waited (s : State) (n : Nat) (v : Word) : (s.setAr n v).waited = s.waited := by unfold State.setAr; split <;> rfl
@[simp] theorem State.setAr_alat (s : State) (n : Nat) (v : Word) : (s.setAr n v).alat = s.alat := by unfold State.setAr; split <;> rfl
@[simp] theorem State.setAr_mem (s : State) (n : Nat) (v : Word) : (s.setAr n v).mem = s.mem := by unfold State.setAr; split <;> rfl
@[simp] theorem State.setAr_stale (s : State) (n : Nat) (v : Word) : (s.setAr n v).stale = s.stale := by unfold State.setAr; split <;> rfl
@[simp] theorem State.setAr_lines (s : State) (n : Nat) (v : Word) : (s.setAr n v).lines = s.lines := by unfold State.setAr; split <;> rfl
@[simp] theorem State.setAr_lastTc (s : State) (n : Nat) (v : Word) : (s.setAr n v).lastTc = s.lastTc := by unfold State.setAr; split <;> rfl
@[simp] theorem State.setAr_tcLost (s : State) (n : Nat) (v : Word) : (s.setAr n v).tcLost = s.tcLost := by unfold State.setAr; split <;> rfl
@[simp] theorem State.setAr_holes (s : State) (n : Nat) (v : Word) : (s.setAr n v).holes = s.holes := by unfold State.setAr; split <;> rfl
@[simp] theorem State.setAr_mcOwed (s : State) (n : Nat) (v : Word) : (s.setAr n v).mcOwed = s.mcOwed := by unfold State.setAr; split <;> rfl
@[simp] theorem State.setAr_palOwed (s : State) (n : Nat) (v : Word) : (s.setAr n v).palOwed = s.palOwed := by unfold State.setAr; split <;> rfl
@[simp] theorem State.setAr_pmdKnown (s : State) (n : Nat) (v : Word) : (s.setAr n v).pmdKnown = s.pmdKnown := by unfold State.setAr; split <;> rfl
@[simp] theorem State.setAr_ctx (s : State) (n : Nat) (v : Word) : (s.setAr n v).ctx = s.ctx := by unfold State.setAr; split <;> rfl
@[simp] theorem State.setAr_tick (s : State) (n : Nat) (v : Word) : (s.setAr n v).tick = s.tick := by unfold State.setAr; split <;> rfl

/-! State.updBase -/

@[simp] theorem State.updBase_fr (s0 s : State) (r3 : BitVec 7) (u : BaseUpd) : (State.updBase s0 r3 u s).fr = s.fr := by cases u <;> simp [State.updBase]
@[simp] theorem State.updBase_pr (s0 s : State) (r3 : BitVec 7) (u : BaseUpd) : (State.updBase s0 r3 u s).pr = s.pr := by cases u <;> simp [State.updBase]
@[simp] theorem State.updBase_br (s0 s : State) (r3 : BitVec 7) (u : BaseUpd) : (State.updBase s0 r3 u s).br = s.br := by cases u <;> simp [State.updBase]
@[simp] theorem State.updBase_ar (s0 s : State) (r3 : BitVec 7) (u : BaseUpd) : (State.updBase s0 r3 u s).ar = s.ar := by cases u <;> simp [State.updBase]
@[simp] theorem State.updBase_ip (s0 s : State) (r3 : BitVec 7) (u : BaseUpd) : (State.updBase s0 r3 u s).ip = s.ip := by cases u <;> simp [State.updBase]
@[simp] theorem State.updBase_slot (s0 s : State) (r3 : BitVec 7) (u : BaseUpd) : (State.updBase s0 r3 u s).slot = s.slot := by cases u <;> simp [State.updBase]
@[simp] theorem State.updBase_cfm (s0 s : State) (r3 : BitVec 7) (u : BaseUpd) : (State.updBase s0 r3 u s).cfm = s.cfm := by cases u <;> simp [State.updBase]
@[simp] theorem State.updBase_sys (s0 s : State) (r3 : BitVec 7) (u : BaseUpd) : (State.updBase s0 r3 u s).sys = s.sys := by cases u <;> simp [State.updBase]
@[simp] theorem State.updBase_dataOld (s0 s : State) (r3 : BitVec 7) (u : BaseUpd) : (State.updBase s0 r3 u s).dataOld = s.dataOld := by cases u <;> simp [State.updBase]
@[simp] theorem State.updBase_fetchOld (s0 s : State) (r3 : BitVec 7) (u : BaseUpd) : (State.updBase s0 r3 u s).fetchOld = s.fetchOld := by cases u <;> simp [State.updBase]
@[simp] theorem State.updBase_dataWrites (s0 s : State) (r3 : BitVec 7) (u : BaseUpd) : (State.updBase s0 r3 u s).dataWrites = s.dataWrites := by cases u <;> simp [State.updBase]
@[simp] theorem State.updBase_fetchWrites (s0 s : State) (r3 : BitVec 7) (u : BaseUpd) : (State.updBase s0 r3 u s).fetchWrites = s.fetchWrites := by cases u <;> simp [State.updBase]
@[simp] theorem State.updBase_srlzI (s0 s : State) (r3 : BitVec 7) (u : BaseUpd) : (State.updBase s0 r3 u s).srlzI = s.srlzI := by cases u <;> simp [State.updBase]
@[simp] theorem State.updBase_groupRegs (s0 s : State) (r3 : BitVec 7) (u : BaseUpd) : (State.updBase s0 r3 u s).groupRegs = s.groupRegs := by cases u <;> simp [State.updBase]
@[simp] theorem State.updBase_lastBundle (s0 s : State) (r3 : BitVec 7) (u : BaseUpd) : (State.updBase s0 r3 u s).lastBundle = s.lastBundle := by cases u <;> simp [State.updBase]
@[simp] theorem State.updBase_irr (s0 s : State) (r3 : BitVec 7) (u : BaseUpd) : (State.updBase s0 r3 u s).irr = s.irr := by cases u <;> simp [State.updBase]
@[simp] theorem State.updBase_xtp (s0 s : State) (r3 : BitVec 7) (u : BaseUpd) : (State.updBase s0 r3 u s).xtp = s.xtp := by cases u <;> simp [State.updBase]
@[simp] theorem State.updBase_waited (s0 s : State) (r3 : BitVec 7) (u : BaseUpd) : (State.updBase s0 r3 u s).waited = s.waited := by cases u <;> simp [State.updBase]
@[simp] theorem State.updBase_alat (s0 s : State) (r3 : BitVec 7) (u : BaseUpd) : (State.updBase s0 r3 u s).alat = s.alat := by cases u <;> simp [State.updBase]
@[simp] theorem State.updBase_mem (s0 s : State) (r3 : BitVec 7) (u : BaseUpd) : (State.updBase s0 r3 u s).mem = s.mem := by cases u <;> simp [State.updBase]
@[simp] theorem State.updBase_stale (s0 s : State) (r3 : BitVec 7) (u : BaseUpd) : (State.updBase s0 r3 u s).stale = s.stale := by cases u <;> simp [State.updBase]
@[simp] theorem State.updBase_lines (s0 s : State) (r3 : BitVec 7) (u : BaseUpd) : (State.updBase s0 r3 u s).lines = s.lines := by cases u <;> simp [State.updBase]
@[simp] theorem State.updBase_lastTc (s0 s : State) (r3 : BitVec 7) (u : BaseUpd) : (State.updBase s0 r3 u s).lastTc = s.lastTc := by cases u <;> simp [State.updBase]
@[simp] theorem State.updBase_tcLost (s0 s : State) (r3 : BitVec 7) (u : BaseUpd) : (State.updBase s0 r3 u s).tcLost = s.tcLost := by cases u <;> simp [State.updBase]
@[simp] theorem State.updBase_holes (s0 s : State) (r3 : BitVec 7) (u : BaseUpd) : (State.updBase s0 r3 u s).holes = s.holes := by cases u <;> simp [State.updBase]
@[simp] theorem State.updBase_mcOwed (s0 s : State) (r3 : BitVec 7) (u : BaseUpd) : (State.updBase s0 r3 u s).mcOwed = s.mcOwed := by cases u <;> simp [State.updBase]
@[simp] theorem State.updBase_palOwed (s0 s : State) (r3 : BitVec 7) (u : BaseUpd) : (State.updBase s0 r3 u s).palOwed = s.palOwed := by cases u <;> simp [State.updBase]
@[simp] theorem State.updBase_pmdKnown (s0 s : State) (r3 : BitVec 7) (u : BaseUpd) : (State.updBase s0 r3 u s).pmdKnown = s.pmdKnown := by cases u <;> simp [State.updBase]
@[simp] theorem State.updBase_ctx (s0 s : State) (r3 : BitVec 7) (u : BaseUpd) : (State.updBase s0 r3 u s).ctx = s.ctx := by cases u <;> simp [State.updBase]
@[simp] theorem State.updBase_tick (s0 s : State) (r3 : BitVec 7) (u : BaseUpd) : (State.updBase s0 r3 u s).tick = s.tick := by cases u <;> simp [State.updBase]

/-! State.pushSys -/

@[simp] theorem State.pushSys_gr (s : State) (f : Sys → Sys) : (s.pushSys f).gr = s.gr := rfl
@[simp] theorem State.pushSys_fr (s : State) (f : Sys → Sys) : (s.pushSys f).fr = s.fr := rfl
@[simp] theorem State.pushSys_pr (s : State) (f : Sys → Sys) : (s.pushSys f).pr = s.pr := rfl
@[simp] theorem State.pushSys_br (s : State) (f : Sys → Sys) : (s.pushSys f).br = s.br := rfl
@[simp] theorem State.pushSys_ar (s : State) (f : Sys → Sys) : (s.pushSys f).ar = s.ar := rfl
@[simp] theorem State.pushSys_ip (s : State) (f : Sys → Sys) : (s.pushSys f).ip = s.ip := rfl
@[simp] theorem State.pushSys_slot (s : State) (f : Sys → Sys) : (s.pushSys f).slot = s.slot := rfl
@[simp] theorem State.pushSys_cfm (s : State) (f : Sys → Sys) : (s.pushSys f).cfm = s.cfm := rfl
@[simp] theorem State.pushSys_srlzI (s : State) (f : Sys → Sys) : (s.pushSys f).srlzI = s.srlzI := rfl
@[simp] theorem State.pushSys_groupRegs (s : State) (f : Sys → Sys) : (s.pushSys f).groupRegs = s.groupRegs := rfl
@[simp] theorem State.pushSys_lastBundle (s : State) (f : Sys → Sys) : (s.pushSys f).lastBundle = s.lastBundle := rfl
@[simp] theorem State.pushSys_irr (s : State) (f : Sys → Sys) : (s.pushSys f).irr = s.irr := rfl
@[simp] theorem State.pushSys_xtp (s : State) (f : Sys → Sys) : (s.pushSys f).xtp = s.xtp := rfl
@[simp] theorem State.pushSys_waited (s : State) (f : Sys → Sys) : (s.pushSys f).waited = s.waited := rfl
@[simp] theorem State.pushSys_alat (s : State) (f : Sys → Sys) : (s.pushSys f).alat = s.alat := rfl
@[simp] theorem State.pushSys_mem (s : State) (f : Sys → Sys) : (s.pushSys f).mem = s.mem := rfl
@[simp] theorem State.pushSys_stale (s : State) (f : Sys → Sys) : (s.pushSys f).stale = s.stale := rfl
@[simp] theorem State.pushSys_lines (s : State) (f : Sys → Sys) : (s.pushSys f).lines = s.lines := rfl
@[simp] theorem State.pushSys_lastTc (s : State) (f : Sys → Sys) : (s.pushSys f).lastTc = s.lastTc := rfl
@[simp] theorem State.pushSys_tcLost (s : State) (f : Sys → Sys) : (s.pushSys f).tcLost = s.tcLost := rfl
@[simp] theorem State.pushSys_holes (s : State) (f : Sys → Sys) : (s.pushSys f).holes = s.holes := rfl
@[simp] theorem State.pushSys_mcOwed (s : State) (f : Sys → Sys) : (s.pushSys f).mcOwed = s.mcOwed := rfl
@[simp] theorem State.pushSys_palOwed (s : State) (f : Sys → Sys) : (s.pushSys f).palOwed = s.palOwed := rfl
@[simp] theorem State.pushSys_pmdKnown (s : State) (f : Sys → Sys) : (s.pushSys f).pmdKnown = s.pmdKnown := rfl
@[simp] theorem State.pushSys_ctx (s : State) (f : Sys → Sys) : (s.pushSys f).ctx = s.ctx := rfl
@[simp] theorem State.pushSys_tick (s : State) (f : Sys → Sys) : (s.pushSys f).tick = s.tick := rfl
@[simp] theorem State.pushSys_sys (s : State) (f : Sys → Sys) : (s.pushSys f).sys = f s.sys := rfl
@[simp] theorem State.pushSys_dataOld (s : State) (f : Sys → Sys) : (s.pushSys f).dataOld = s.sys :: s.dataOld := rfl
@[simp] theorem State.pushSys_fetchOld (s : State) (f : Sys → Sys) : (s.pushSys f).fetchOld = s.sys :: s.fetchOld := rfl
@[simp] theorem State.pushSys_dataWrites (s : State) (f : Sys → Sys) : (s.pushSys f).dataWrites = s.dataWrites + 1 := rfl
@[simp] theorem State.pushSys_fetchWrites (s : State) (f : Sys → Sys) : (s.pushSys f).fetchWrites = s.fetchWrites + 1 := rfl

/-! State.mapSys -/

@[simp] theorem State.mapSys_gr (s : State) (f : Sys → Sys) : (s.mapSys f).gr = s.gr := rfl
@[simp] theorem State.mapSys_fr (s : State) (f : Sys → Sys) : (s.mapSys f).fr = s.fr := rfl
@[simp] theorem State.mapSys_pr (s : State) (f : Sys → Sys) : (s.mapSys f).pr = s.pr := rfl
@[simp] theorem State.mapSys_br (s : State) (f : Sys → Sys) : (s.mapSys f).br = s.br := rfl
@[simp] theorem State.mapSys_ar (s : State) (f : Sys → Sys) : (s.mapSys f).ar = s.ar := rfl
@[simp] theorem State.mapSys_ip (s : State) (f : Sys → Sys) : (s.mapSys f).ip = s.ip := rfl
@[simp] theorem State.mapSys_slot (s : State) (f : Sys → Sys) : (s.mapSys f).slot = s.slot := rfl
@[simp] theorem State.mapSys_cfm (s : State) (f : Sys → Sys) : (s.mapSys f).cfm = s.cfm := rfl
@[simp] theorem State.mapSys_dataWrites (s : State) (f : Sys → Sys) : (s.mapSys f).dataWrites = s.dataWrites := rfl
@[simp] theorem State.mapSys_fetchWrites (s : State) (f : Sys → Sys) : (s.mapSys f).fetchWrites = s.fetchWrites := rfl
@[simp] theorem State.mapSys_srlzI (s : State) (f : Sys → Sys) : (s.mapSys f).srlzI = s.srlzI := rfl
@[simp] theorem State.mapSys_groupRegs (s : State) (f : Sys → Sys) : (s.mapSys f).groupRegs = s.groupRegs := rfl
@[simp] theorem State.mapSys_lastBundle (s : State) (f : Sys → Sys) : (s.mapSys f).lastBundle = s.lastBundle := rfl
@[simp] theorem State.mapSys_irr (s : State) (f : Sys → Sys) : (s.mapSys f).irr = s.irr := rfl
@[simp] theorem State.mapSys_xtp (s : State) (f : Sys → Sys) : (s.mapSys f).xtp = s.xtp := rfl
@[simp] theorem State.mapSys_waited (s : State) (f : Sys → Sys) : (s.mapSys f).waited = s.waited := rfl
@[simp] theorem State.mapSys_alat (s : State) (f : Sys → Sys) : (s.mapSys f).alat = s.alat := rfl
@[simp] theorem State.mapSys_mem (s : State) (f : Sys → Sys) : (s.mapSys f).mem = s.mem := rfl
@[simp] theorem State.mapSys_stale (s : State) (f : Sys → Sys) : (s.mapSys f).stale = s.stale := rfl
@[simp] theorem State.mapSys_lines (s : State) (f : Sys → Sys) : (s.mapSys f).lines = s.lines := rfl
@[simp] theorem State.mapSys_lastTc (s : State) (f : Sys → Sys) : (s.mapSys f).lastTc = s.lastTc := rfl
@[simp] theorem State.mapSys_tcLost (s : State) (f : Sys → Sys) : (s.mapSys f).tcLost = s.tcLost := rfl
@[simp] theorem State.mapSys_holes (s : State) (f : Sys → Sys) : (s.mapSys f).holes = s.holes := rfl
@[simp] theorem State.mapSys_mcOwed (s : State) (f : Sys → Sys) : (s.mapSys f).mcOwed = s.mcOwed := rfl
@[simp] theorem State.mapSys_palOwed (s : State) (f : Sys → Sys) : (s.mapSys f).palOwed = s.palOwed := rfl
@[simp] theorem State.mapSys_pmdKnown (s : State) (f : Sys → Sys) : (s.mapSys f).pmdKnown = s.pmdKnown := rfl
@[simp] theorem State.mapSys_ctx (s : State) (f : Sys → Sys) : (s.mapSys f).ctx = s.ctx := rfl
@[simp] theorem State.mapSys_tick (s : State) (f : Sys → Sys) : (s.mapSys f).tick = s.tick := rfl
@[simp] theorem State.mapSys_sys (s : State) (f : Sys → Sys) : (s.mapSys f).sys = f s.sys := rfl
@[simp] theorem State.mapSys_dataOld (s : State) (f : Sys → Sys) : (s.mapSys f).dataOld = s.dataOld.map f := rfl
@[simp] theorem State.mapSys_fetchOld (s : State) (f : Sys → Sys) : (s.mapSys f).fetchOld = s.fetchOld.map f := rfl

/-! State.writeUm -/

@[simp] theorem State.writeUm_gr (s : State) (f : Word → Word) : (s.writeUm f).gr = s.gr := by unfold State.writeUm; dsimp only; split <;> rfl
@[simp] theorem State.writeUm_fr (s : State) (f : Word → Word) : (s.writeUm f).fr = s.fr := by unfold State.writeUm; dsimp only; split <;> rfl
@[simp] theorem State.writeUm_pr (s : State) (f : Word → Word) : (s.writeUm f).pr = s.pr := by unfold State.writeUm; dsimp only; split <;> rfl
@[simp] theorem State.writeUm_br (s : State) (f : Word → Word) : (s.writeUm f).br = s.br := by unfold State.writeUm; dsimp only; split <;> rfl
@[simp] theorem State.writeUm_ar (s : State) (f : Word → Word) : (s.writeUm f).ar = s.ar := by unfold State.writeUm; dsimp only; split <;> rfl
@[simp] theorem State.writeUm_ip (s : State) (f : Word → Word) : (s.writeUm f).ip = s.ip := by unfold State.writeUm; dsimp only; split <;> rfl
@[simp] theorem State.writeUm_slot (s : State) (f : Word → Word) : (s.writeUm f).slot = s.slot := by unfold State.writeUm; dsimp only; split <;> rfl
@[simp] theorem State.writeUm_cfm (s : State) (f : Word → Word) : (s.writeUm f).cfm = s.cfm := by unfold State.writeUm; dsimp only; split <;> rfl
@[simp] theorem State.writeUm_dataWrites (s : State) (f : Word → Word) : (s.writeUm f).dataWrites = s.dataWrites := by unfold State.writeUm; dsimp only; split <;> rfl
@[simp] theorem State.writeUm_srlzI (s : State) (f : Word → Word) : (s.writeUm f).srlzI = s.srlzI := by unfold State.writeUm; dsimp only; split <;> rfl
@[simp] theorem State.writeUm_groupRegs (s : State) (f : Word → Word) : (s.writeUm f).groupRegs = s.groupRegs := by unfold State.writeUm; dsimp only; split <;> rfl
@[simp] theorem State.writeUm_lastBundle (s : State) (f : Word → Word) : (s.writeUm f).lastBundle = s.lastBundle := by unfold State.writeUm; dsimp only; split <;> rfl
@[simp] theorem State.writeUm_irr (s : State) (f : Word → Word) : (s.writeUm f).irr = s.irr := by unfold State.writeUm; dsimp only; split <;> rfl
@[simp] theorem State.writeUm_xtp (s : State) (f : Word → Word) : (s.writeUm f).xtp = s.xtp := by unfold State.writeUm; dsimp only; split <;> rfl
@[simp] theorem State.writeUm_waited (s : State) (f : Word → Word) : (s.writeUm f).waited = s.waited := by unfold State.writeUm; dsimp only; split <;> rfl
@[simp] theorem State.writeUm_alat (s : State) (f : Word → Word) : (s.writeUm f).alat = s.alat := by unfold State.writeUm; dsimp only; split <;> rfl
@[simp] theorem State.writeUm_mem (s : State) (f : Word → Word) : (s.writeUm f).mem = s.mem := by unfold State.writeUm; dsimp only; split <;> rfl
@[simp] theorem State.writeUm_stale (s : State) (f : Word → Word) : (s.writeUm f).stale = s.stale := by unfold State.writeUm; dsimp only; split <;> rfl
@[simp] theorem State.writeUm_lines (s : State) (f : Word → Word) : (s.writeUm f).lines = s.lines := by unfold State.writeUm; dsimp only; split <;> rfl
@[simp] theorem State.writeUm_lastTc (s : State) (f : Word → Word) : (s.writeUm f).lastTc = s.lastTc := by unfold State.writeUm; dsimp only; split <;> rfl
@[simp] theorem State.writeUm_tcLost (s : State) (f : Word → Word) : (s.writeUm f).tcLost = s.tcLost := by unfold State.writeUm; dsimp only; split <;> rfl
@[simp] theorem State.writeUm_holes (s : State) (f : Word → Word) : (s.writeUm f).holes = s.holes := by unfold State.writeUm; dsimp only; split <;> rfl
@[simp] theorem State.writeUm_mcOwed (s : State) (f : Word → Word) : (s.writeUm f).mcOwed = s.mcOwed := by unfold State.writeUm; dsimp only; split <;> rfl
@[simp] theorem State.writeUm_palOwed (s : State) (f : Word → Word) : (s.writeUm f).palOwed = s.palOwed := by unfold State.writeUm; dsimp only; split <;> rfl
@[simp] theorem State.writeUm_pmdKnown (s : State) (f : Word → Word) : (s.writeUm f).pmdKnown = s.pmdKnown := by unfold State.writeUm; dsimp only; split <;> rfl
@[simp] theorem State.writeUm_ctx (s : State) (f : Word → Word) : (s.writeUm f).ctx = s.ctx := by unfold State.writeUm; dsimp only; split <;> rfl
@[simp] theorem State.writeUm_tick (s : State) (f : Word → Word) : (s.writeUm f).tick = s.tick := by unfold State.writeUm; dsimp only; split <;> rfl
@[simp] theorem State.writeUm_sys (s : State) (f : Word → Word) : (s.writeUm f).sys = s.sys.onPsr f := by
  unfold State.writeUm; dsimp only; split <;> rfl
@[simp] theorem State.writeUm_dataOld (s : State) (f : Word → Word) : (s.writeUm f).dataOld = s.dataOld.map (Sys.onPsr f) := by
  unfold State.writeUm; dsimp only; split <;> rfl

/-! State.touch -/

@[simp] theorem State.touch_gr (s : State) (attr : Attr) (pa n : Nat) : (s.touch attr pa n).gr = s.gr := rfl
@[simp] theorem State.touch_fr (s : State) (attr : Attr) (pa n : Nat) : (s.touch attr pa n).fr = s.fr := rfl
@[simp] theorem State.touch_pr (s : State) (attr : Attr) (pa n : Nat) : (s.touch attr pa n).pr = s.pr := rfl
@[simp] theorem State.touch_br (s : State) (attr : Attr) (pa n : Nat) : (s.touch attr pa n).br = s.br := rfl
@[simp] theorem State.touch_ar (s : State) (attr : Attr) (pa n : Nat) : (s.touch attr pa n).ar = s.ar := rfl
@[simp] theorem State.touch_ip (s : State) (attr : Attr) (pa n : Nat) : (s.touch attr pa n).ip = s.ip := rfl
@[simp] theorem State.touch_slot (s : State) (attr : Attr) (pa n : Nat) : (s.touch attr pa n).slot = s.slot := rfl
@[simp] theorem State.touch_cfm (s : State) (attr : Attr) (pa n : Nat) : (s.touch attr pa n).cfm = s.cfm := rfl
@[simp] theorem State.touch_sys (s : State) (attr : Attr) (pa n : Nat) : (s.touch attr pa n).sys = s.sys := rfl
@[simp] theorem State.touch_dataOld (s : State) (attr : Attr) (pa n : Nat) : (s.touch attr pa n).dataOld = s.dataOld := rfl
@[simp] theorem State.touch_fetchOld (s : State) (attr : Attr) (pa n : Nat) : (s.touch attr pa n).fetchOld = s.fetchOld := rfl
@[simp] theorem State.touch_dataWrites (s : State) (attr : Attr) (pa n : Nat) : (s.touch attr pa n).dataWrites = s.dataWrites := rfl
@[simp] theorem State.touch_fetchWrites (s : State) (attr : Attr) (pa n : Nat) : (s.touch attr pa n).fetchWrites = s.fetchWrites := rfl
@[simp] theorem State.touch_srlzI (s : State) (attr : Attr) (pa n : Nat) : (s.touch attr pa n).srlzI = s.srlzI := rfl
@[simp] theorem State.touch_groupRegs (s : State) (attr : Attr) (pa n : Nat) : (s.touch attr pa n).groupRegs = s.groupRegs := rfl
@[simp] theorem State.touch_lastBundle (s : State) (attr : Attr) (pa n : Nat) : (s.touch attr pa n).lastBundle = s.lastBundle := rfl
@[simp] theorem State.touch_irr (s : State) (attr : Attr) (pa n : Nat) : (s.touch attr pa n).irr = s.irr := rfl
@[simp] theorem State.touch_xtp (s : State) (attr : Attr) (pa n : Nat) : (s.touch attr pa n).xtp = s.xtp := rfl
@[simp] theorem State.touch_waited (s : State) (attr : Attr) (pa n : Nat) : (s.touch attr pa n).waited = s.waited := rfl
@[simp] theorem State.touch_alat (s : State) (attr : Attr) (pa n : Nat) : (s.touch attr pa n).alat = s.alat := rfl
@[simp] theorem State.touch_mem (s : State) (attr : Attr) (pa n : Nat) : (s.touch attr pa n).mem = s.mem := rfl
@[simp] theorem State.touch_stale (s : State) (attr : Attr) (pa n : Nat) : (s.touch attr pa n).stale = s.stale := rfl
@[simp] theorem State.touch_lastTc (s : State) (attr : Attr) (pa n : Nat) : (s.touch attr pa n).lastTc = s.lastTc := rfl
@[simp] theorem State.touch_tcLost (s : State) (attr : Attr) (pa n : Nat) : (s.touch attr pa n).tcLost = s.tcLost := rfl
@[simp] theorem State.touch_holes (s : State) (attr : Attr) (pa n : Nat) : (s.touch attr pa n).holes = s.holes := rfl
@[simp] theorem State.touch_mcOwed (s : State) (attr : Attr) (pa n : Nat) : (s.touch attr pa n).mcOwed = s.mcOwed := rfl
@[simp] theorem State.touch_palOwed (s : State) (attr : Attr) (pa n : Nat) : (s.touch attr pa n).palOwed = s.palOwed := rfl
@[simp] theorem State.touch_pmdKnown (s : State) (attr : Attr) (pa n : Nat) : (s.touch attr pa n).pmdKnown = s.pmdKnown := rfl
@[simp] theorem State.touch_ctx (s : State) (attr : Attr) (pa n : Nat) : (s.touch attr pa n).ctx = s.ctx := rfl
@[simp] theorem State.touch_tick (s : State) (attr : Attr) (pa n : Nat) : (s.touch attr pa n).tick = s.tick := rfl
@[simp] theorem State.touch_lines (s : State) (attr : Attr) (pa n : Nat) :
    (s.touch attr pa n).lines = useLines s.lines attr.coherence pa n := rfl

/-! State.dataSerialize -/

@[simp] theorem State.dataSerialize_gr (s : State) : s.dataSerialize.gr = s.gr := rfl
@[simp] theorem State.dataSerialize_fr (s : State) : s.dataSerialize.fr = s.fr := rfl
@[simp] theorem State.dataSerialize_pr (s : State) : s.dataSerialize.pr = s.pr := rfl
@[simp] theorem State.dataSerialize_br (s : State) : s.dataSerialize.br = s.br := rfl
@[simp] theorem State.dataSerialize_ar (s : State) : s.dataSerialize.ar = s.ar := rfl
@[simp] theorem State.dataSerialize_ip (s : State) : s.dataSerialize.ip = s.ip := rfl
@[simp] theorem State.dataSerialize_slot (s : State) : s.dataSerialize.slot = s.slot := rfl
@[simp] theorem State.dataSerialize_cfm (s : State) : s.dataSerialize.cfm = s.cfm := rfl
@[simp] theorem State.dataSerialize_sys (s : State) : s.dataSerialize.sys = s.sys := rfl
@[simp] theorem State.dataSerialize_fetchOld (s : State) : s.dataSerialize.fetchOld = s.fetchOld := rfl
@[simp] theorem State.dataSerialize_dataWrites (s : State) : s.dataSerialize.dataWrites = s.dataWrites := rfl
@[simp] theorem State.dataSerialize_fetchWrites (s : State) : s.dataSerialize.fetchWrites = s.fetchWrites := rfl
@[simp] theorem State.dataSerialize_srlzI (s : State) : s.dataSerialize.srlzI = s.srlzI := rfl
@[simp] theorem State.dataSerialize_groupRegs (s : State) : s.dataSerialize.groupRegs = s.groupRegs := rfl
@[simp] theorem State.dataSerialize_lastBundle (s : State) : s.dataSerialize.lastBundle = s.lastBundle := rfl
@[simp] theorem State.dataSerialize_irr (s : State) : s.dataSerialize.irr = s.irr := rfl
@[simp] theorem State.dataSerialize_xtp (s : State) : s.dataSerialize.xtp = s.xtp := rfl
@[simp] theorem State.dataSerialize_waited (s : State) : s.dataSerialize.waited = s.waited := rfl
@[simp] theorem State.dataSerialize_alat (s : State) : s.dataSerialize.alat = s.alat := rfl
@[simp] theorem State.dataSerialize_mem (s : State) : s.dataSerialize.mem = s.mem := rfl
@[simp] theorem State.dataSerialize_stale (s : State) : s.dataSerialize.stale = s.stale := rfl
@[simp] theorem State.dataSerialize_lines (s : State) : s.dataSerialize.lines = s.lines := rfl
@[simp] theorem State.dataSerialize_lastTc (s : State) : s.dataSerialize.lastTc = s.lastTc := rfl
@[simp] theorem State.dataSerialize_tcLost (s : State) : s.dataSerialize.tcLost = s.tcLost := rfl
@[simp] theorem State.dataSerialize_holes (s : State) : s.dataSerialize.holes = s.holes := rfl
@[simp] theorem State.dataSerialize_mcOwed (s : State) : s.dataSerialize.mcOwed = s.mcOwed := rfl
@[simp] theorem State.dataSerialize_palOwed (s : State) : s.dataSerialize.palOwed = s.palOwed := rfl
@[simp] theorem State.dataSerialize_pmdKnown (s : State) : s.dataSerialize.pmdKnown = s.pmdKnown := rfl
@[simp] theorem State.dataSerialize_ctx (s : State) : s.dataSerialize.ctx = s.ctx := rfl
@[simp] theorem State.dataSerialize_tick (s : State) : s.dataSerialize.tick = s.tick := rfl
@[simp] theorem State.dataSerialize_dataOld (s : State) : s.dataSerialize.dataOld = s.dataOld.take s.dataWrites := rfl

/-! State.requestSrlzI -/

@[simp] theorem State.requestSrlzI_gr (s : State) : s.requestSrlzI.gr = s.gr := rfl
@[simp] theorem State.requestSrlzI_fr (s : State) : s.requestSrlzI.fr = s.fr := rfl
@[simp] theorem State.requestSrlzI_pr (s : State) : s.requestSrlzI.pr = s.pr := rfl
@[simp] theorem State.requestSrlzI_br (s : State) : s.requestSrlzI.br = s.br := rfl
@[simp] theorem State.requestSrlzI_ar (s : State) : s.requestSrlzI.ar = s.ar := rfl
@[simp] theorem State.requestSrlzI_ip (s : State) : s.requestSrlzI.ip = s.ip := rfl
@[simp] theorem State.requestSrlzI_slot (s : State) : s.requestSrlzI.slot = s.slot := rfl
@[simp] theorem State.requestSrlzI_cfm (s : State) : s.requestSrlzI.cfm = s.cfm := rfl
@[simp] theorem State.requestSrlzI_sys (s : State) : s.requestSrlzI.sys = s.sys := rfl
@[simp] theorem State.requestSrlzI_dataOld (s : State) : s.requestSrlzI.dataOld = s.dataOld := rfl
@[simp] theorem State.requestSrlzI_fetchOld (s : State) : s.requestSrlzI.fetchOld = s.fetchOld := rfl
@[simp] theorem State.requestSrlzI_dataWrites (s : State) : s.requestSrlzI.dataWrites = s.dataWrites := rfl
@[simp] theorem State.requestSrlzI_fetchWrites (s : State) : s.requestSrlzI.fetchWrites = s.fetchWrites := rfl
@[simp] theorem State.requestSrlzI_groupRegs (s : State) : s.requestSrlzI.groupRegs = s.groupRegs := rfl
@[simp] theorem State.requestSrlzI_lastBundle (s : State) : s.requestSrlzI.lastBundle = s.lastBundle := rfl
@[simp] theorem State.requestSrlzI_irr (s : State) : s.requestSrlzI.irr = s.irr := rfl
@[simp] theorem State.requestSrlzI_xtp (s : State) : s.requestSrlzI.xtp = s.xtp := rfl
@[simp] theorem State.requestSrlzI_waited (s : State) : s.requestSrlzI.waited = s.waited := rfl
@[simp] theorem State.requestSrlzI_alat (s : State) : s.requestSrlzI.alat = s.alat := rfl
@[simp] theorem State.requestSrlzI_mem (s : State) : s.requestSrlzI.mem = s.mem := rfl
@[simp] theorem State.requestSrlzI_stale (s : State) : s.requestSrlzI.stale = s.stale := rfl
@[simp] theorem State.requestSrlzI_lines (s : State) : s.requestSrlzI.lines = s.lines := rfl
@[simp] theorem State.requestSrlzI_lastTc (s : State) : s.requestSrlzI.lastTc = s.lastTc := rfl
@[simp] theorem State.requestSrlzI_tcLost (s : State) : s.requestSrlzI.tcLost = s.tcLost := rfl
@[simp] theorem State.requestSrlzI_holes (s : State) : s.requestSrlzI.holes = s.holes := rfl
@[simp] theorem State.requestSrlzI_mcOwed (s : State) : s.requestSrlzI.mcOwed = s.mcOwed := rfl
@[simp] theorem State.requestSrlzI_palOwed (s : State) : s.requestSrlzI.palOwed = s.palOwed := rfl
@[simp] theorem State.requestSrlzI_pmdKnown (s : State) : s.requestSrlzI.pmdKnown = s.pmdKnown := rfl
@[simp] theorem State.requestSrlzI_ctx (s : State) : s.requestSrlzI.ctx = s.ctx := rfl
@[simp] theorem State.requestSrlzI_tick (s : State) : s.requestSrlzI.tick = s.tick := rfl
@[simp] theorem State.requestSrlzI_srlzI (s : State) : s.requestSrlzI.srlzI = true := rfl

/-! State.endGroup -/

@[simp] theorem State.endGroup_gr (s : State) : s.endGroup.gr = s.gr := by unfold State.endGroup; split <;> rfl
@[simp] theorem State.endGroup_fr (s : State) : s.endGroup.fr = s.fr := by unfold State.endGroup; split <;> rfl
@[simp] theorem State.endGroup_pr (s : State) : s.endGroup.pr = s.pr := by unfold State.endGroup; split <;> rfl
@[simp] theorem State.endGroup_br (s : State) : s.endGroup.br = s.br := by unfold State.endGroup; split <;> rfl
@[simp] theorem State.endGroup_ar (s : State) : s.endGroup.ar = s.ar := by unfold State.endGroup; split <;> rfl
@[simp] theorem State.endGroup_ip (s : State) : s.endGroup.ip = s.ip := by unfold State.endGroup; split <;> rfl
@[simp] theorem State.endGroup_slot (s : State) : s.endGroup.slot = s.slot := by unfold State.endGroup; split <;> rfl
@[simp] theorem State.endGroup_cfm (s : State) : s.endGroup.cfm = s.cfm := by unfold State.endGroup; split <;> rfl
@[simp] theorem State.endGroup_sys (s : State) : s.endGroup.sys = s.sys := by unfold State.endGroup; split <;> rfl
@[simp] theorem State.endGroup_lastBundle (s : State) : s.endGroup.lastBundle = s.lastBundle := by unfold State.endGroup; split <;> rfl
@[simp] theorem State.endGroup_irr (s : State) : s.endGroup.irr = s.irr := by unfold State.endGroup; split <;> rfl
@[simp] theorem State.endGroup_xtp (s : State) : s.endGroup.xtp = s.xtp := by unfold State.endGroup; split <;> rfl
@[simp] theorem State.endGroup_waited (s : State) : s.endGroup.waited = s.waited := by unfold State.endGroup; split <;> rfl
@[simp] theorem State.endGroup_alat (s : State) : s.endGroup.alat = s.alat := by unfold State.endGroup; split <;> rfl
@[simp] theorem State.endGroup_mem (s : State) : s.endGroup.mem = s.mem := by unfold State.endGroup; split <;> rfl
@[simp] theorem State.endGroup_lines (s : State) : s.endGroup.lines = s.lines := by unfold State.endGroup; split <;> rfl
@[simp] theorem State.endGroup_lastTc (s : State) : s.endGroup.lastTc = s.lastTc := by unfold State.endGroup; split <;> rfl
@[simp] theorem State.endGroup_tcLost (s : State) : s.endGroup.tcLost = s.tcLost := by unfold State.endGroup; split <;> rfl
@[simp] theorem State.endGroup_holes (s : State) : s.endGroup.holes = s.holes := by unfold State.endGroup; split <;> rfl
@[simp] theorem State.endGroup_mcOwed (s : State) : s.endGroup.mcOwed = s.mcOwed := by unfold State.endGroup; split <;> rfl
@[simp] theorem State.endGroup_palOwed (s : State) : s.endGroup.palOwed = s.palOwed := by unfold State.endGroup; split <;> rfl
@[simp] theorem State.endGroup_pmdKnown (s : State) : s.endGroup.pmdKnown = s.pmdKnown := by unfold State.endGroup; split <;> rfl
@[simp] theorem State.endGroup_ctx (s : State) : s.endGroup.ctx = s.ctx := by unfold State.endGroup; split <;> rfl
@[simp] theorem State.endGroup_tick (s : State) : s.endGroup.tick = s.tick := by unfold State.endGroup; split <;> rfl

/-! State.serializeAll -/

@[simp] theorem State.serializeAll_gr (s : State) : s.serializeAll.gr = s.gr := rfl
@[simp] theorem State.serializeAll_fr (s : State) : s.serializeAll.fr = s.fr := rfl
@[simp] theorem State.serializeAll_pr (s : State) : s.serializeAll.pr = s.pr := rfl
@[simp] theorem State.serializeAll_br (s : State) : s.serializeAll.br = s.br := rfl
@[simp] theorem State.serializeAll_ar (s : State) : s.serializeAll.ar = s.ar := rfl
@[simp] theorem State.serializeAll_ip (s : State) : s.serializeAll.ip = s.ip := rfl
@[simp] theorem State.serializeAll_slot (s : State) : s.serializeAll.slot = s.slot := rfl
@[simp] theorem State.serializeAll_cfm (s : State) : s.serializeAll.cfm = s.cfm := rfl
@[simp] theorem State.serializeAll_sys (s : State) : s.serializeAll.sys = s.sys := rfl
@[simp] theorem State.serializeAll_lastBundle (s : State) : s.serializeAll.lastBundle = s.lastBundle := rfl
@[simp] theorem State.serializeAll_irr (s : State) : s.serializeAll.irr = s.irr := rfl
@[simp] theorem State.serializeAll_xtp (s : State) : s.serializeAll.xtp = s.xtp := rfl
@[simp] theorem State.serializeAll_waited (s : State) : s.serializeAll.waited = s.waited := rfl
@[simp] theorem State.serializeAll_alat (s : State) : s.serializeAll.alat = s.alat := rfl
@[simp] theorem State.serializeAll_mem (s : State) : s.serializeAll.mem = s.mem := rfl
@[simp] theorem State.serializeAll_lines (s : State) : s.serializeAll.lines = s.lines := rfl
@[simp] theorem State.serializeAll_lastTc (s : State) : s.serializeAll.lastTc = s.lastTc := rfl
@[simp] theorem State.serializeAll_tcLost (s : State) : s.serializeAll.tcLost = s.tcLost := rfl
@[simp] theorem State.serializeAll_holes (s : State) : s.serializeAll.holes = s.holes := rfl
@[simp] theorem State.serializeAll_mcOwed (s : State) : s.serializeAll.mcOwed = s.mcOwed := rfl
@[simp] theorem State.serializeAll_palOwed (s : State) : s.serializeAll.palOwed = s.palOwed := rfl
@[simp] theorem State.serializeAll_pmdKnown (s : State) : s.serializeAll.pmdKnown = s.pmdKnown := rfl
@[simp] theorem State.serializeAll_ctx (s : State) : s.serializeAll.ctx = s.ctx := rfl
@[simp] theorem State.serializeAll_tick (s : State) : s.serializeAll.tick = s.tick := rfl
@[simp] theorem State.serializeAll_dataOld (s : State) : s.serializeAll.dataOld = [] := rfl
@[simp] theorem State.serializeAll_fetchOld (s : State) : s.serializeAll.fetchOld = [] := rfl
@[simp] theorem State.serializeAll_stale (s : State) : s.serializeAll.stale = staleSerialize s.stale := rfl
@[simp] theorem State.serializeAll_dataWrites (s : State) : s.serializeAll.dataWrites = 0 := rfl
@[simp] theorem State.serializeAll_fetchWrites (s : State) : s.serializeAll.fetchWrites = 0 := rfl
@[simp] theorem State.serializeAll_srlzI (s : State) : s.serializeAll.srlzI = false := rfl
@[simp] theorem State.serializeAll_groupRegs (s : State) : s.serializeAll.groupRegs = [] := rfl

/-! retire -/

@[simp] theorem retire_gr (s0 s : State) : (retire s0 s).gr = s.gr := rfl
@[simp] theorem retire_fr (s0 s : State) : (retire s0 s).fr = s.fr := rfl
@[simp] theorem retire_pr (s0 s : State) : (retire s0 s).pr = s.pr := rfl
@[simp] theorem retire_br (s0 s : State) : (retire s0 s).br = s.br := rfl
@[simp] theorem retire_ar (s0 s : State) : (retire s0 s).ar = s.ar := rfl
@[simp] theorem retire_ip (s0 s : State) : (retire s0 s).ip = s.ip := rfl
@[simp] theorem retire_slot (s0 s : State) : (retire s0 s).slot = s.slot := rfl
@[simp] theorem retire_cfm (s0 s : State) : (retire s0 s).cfm = s.cfm := rfl
@[simp] theorem retire_dataWrites (s0 s : State) : (retire s0 s).dataWrites = s.dataWrites := rfl
@[simp] theorem retire_fetchWrites (s0 s : State) : (retire s0 s).fetchWrites = s.fetchWrites := rfl
@[simp] theorem retire_srlzI (s0 s : State) : (retire s0 s).srlzI = s.srlzI := rfl
@[simp] theorem retire_groupRegs (s0 s : State) : (retire s0 s).groupRegs = s.groupRegs := rfl
@[simp] theorem retire_irr (s0 s : State) : (retire s0 s).irr = s.irr := rfl
@[simp] theorem retire_xtp (s0 s : State) : (retire s0 s).xtp = s.xtp := rfl
@[simp] theorem retire_waited (s0 s : State) : (retire s0 s).waited = s.waited := rfl
@[simp] theorem retire_alat (s0 s : State) : (retire s0 s).alat = s.alat := rfl
@[simp] theorem retire_mem (s0 s : State) : (retire s0 s).mem = s.mem := rfl
@[simp] theorem retire_stale (s0 s : State) : (retire s0 s).stale = s.stale := rfl
@[simp] theorem retire_lines (s0 s : State) : (retire s0 s).lines = s.lines := rfl
@[simp] theorem retire_holes (s0 s : State) : (retire s0 s).holes = s.holes := rfl
@[simp] theorem retire_mcOwed (s0 s : State) : (retire s0 s).mcOwed = s.mcOwed := rfl
@[simp] theorem retire_palOwed (s0 s : State) : (retire s0 s).palOwed = s.palOwed := rfl
@[simp] theorem retire_pmdKnown (s0 s : State) : (retire s0 s).pmdKnown = s.pmdKnown := rfl
@[simp] theorem retire_ctx (s0 s : State) : (retire s0 s).ctx = s.ctx := rfl
@[simp] theorem retire_tick (s0 s : State) : (retire s0 s).tick = s.tick := rfl
@[simp] theorem retire_sys (s0 s : State) : (retire s0 s).sys = s.sys.onPsr clearOneShot := rfl
@[simp] theorem retire_dataOld (s0 s : State) : (retire s0 s).dataOld = s.dataOld.map (Sys.onPsr clearOneShot) := rfl
@[simp] theorem retire_fetchOld (s0 s : State) : (retire s0 s).fetchOld = s.fetchOld.map (Sys.onPsr clearOneShot) := rfl
@[simp] theorem retire_lastBundle (s0 s : State) : (retire s0 s).lastBundle = if s0.icRetire then s0.ip else s.lastBundle := rfl
@[simp] theorem retire_lastTc (s0 s : State) : (retire s0 s).lastTc = if bit s.sys.psr Psr.ic then none else s.lastTc := rfl
@[simp] theorem retire_tcLost (s0 s : State) : (retire s0 s).tcLost = if bit s.sys.psr Psr.ic then 0 else s.tcLost := rfl

/-! advanced -/

@[simp] theorem advanced_gr (s0 s : State) : (advanced s0 s).gr = s.gr := by unfold advanced; dsimp only; split <;> simp
@[simp] theorem advanced_fr (s0 s : State) : (advanced s0 s).fr = s.fr := by unfold advanced; dsimp only; split <;> simp
@[simp] theorem advanced_pr (s0 s : State) : (advanced s0 s).pr = s.pr := by unfold advanced; dsimp only; split <;> simp
@[simp] theorem advanced_br (s0 s : State) : (advanced s0 s).br = s.br := by unfold advanced; dsimp only; split <;> simp
@[simp] theorem advanced_ar (s0 s : State) : (advanced s0 s).ar = s.ar := by unfold advanced; dsimp only; split <;> simp
@[simp] theorem advanced_cfm (s0 s : State) : (advanced s0 s).cfm = s.cfm := by unfold advanced; dsimp only; split <;> simp
@[simp] theorem advanced_irr (s0 s : State) : (advanced s0 s).irr = s.irr := by unfold advanced; dsimp only; split <;> simp
@[simp] theorem advanced_xtp (s0 s : State) : (advanced s0 s).xtp = s.xtp := by unfold advanced; dsimp only; split <;> simp
@[simp] theorem advanced_waited (s0 s : State) : (advanced s0 s).waited = s.waited := by unfold advanced; dsimp only; split <;> simp
@[simp] theorem advanced_alat (s0 s : State) : (advanced s0 s).alat = s.alat := by unfold advanced; dsimp only; split <;> simp
@[simp] theorem advanced_mem (s0 s : State) : (advanced s0 s).mem = s.mem := by unfold advanced; dsimp only; split <;> simp
@[simp] theorem advanced_lines (s0 s : State) : (advanced s0 s).lines = s.lines := by unfold advanced; dsimp only; split <;> simp
@[simp] theorem advanced_holes (s0 s : State) : (advanced s0 s).holes = s.holes := by unfold advanced; dsimp only; split <;> simp
@[simp] theorem advanced_mcOwed (s0 s : State) : (advanced s0 s).mcOwed = s.mcOwed := by unfold advanced; dsimp only; split <;> simp
@[simp] theorem advanced_palOwed (s0 s : State) : (advanced s0 s).palOwed = s.palOwed := by unfold advanced; dsimp only; split <;> simp
@[simp] theorem advanced_pmdKnown (s0 s : State) : (advanced s0 s).pmdKnown = s.pmdKnown := by unfold advanced; dsimp only; split <;> simp
@[simp] theorem advanced_ctx (s0 s : State) : (advanced s0 s).ctx = s.ctx := by unfold advanced; dsimp only; split <;> simp
@[simp] theorem advanced_tick (s0 s : State) : (advanced s0 s).tick = s.tick := by unfold advanced; dsimp only; split <;> simp
@[simp] theorem advanced_dataOld (s0 s : State) :
    (advanced s0 s).dataOld = if s0.ctx.stopAfter then (if s.srlzI then (s.dataOld.map (Sys.onPsr clearOneShot)).take s.dataWrites else (s.dataOld.map (Sys.onPsr clearOneShot))) else (s.dataOld.map (Sys.onPsr clearOneShot)) := by
  unfold advanced State.endGroup; dsimp only; split <;> simp; split <;> simp
@[simp] theorem advanced_fetchOld (s0 s : State) :
    (advanced s0 s).fetchOld = if s0.ctx.stopAfter then (if s.srlzI then (s.fetchOld.map (Sys.onPsr clearOneShot)).take s.fetchWrites else (s.fetchOld.map (Sys.onPsr clearOneShot))) else (s.fetchOld.map (Sys.onPsr clearOneShot)) := by
  unfold advanced State.endGroup; dsimp only; split <;> simp; split <;> simp
@[simp] theorem advanced_stale (s0 s : State) :
    (advanced s0 s).stale = if s0.ctx.stopAfter then (if s.srlzI then staleSerialize s.stale else staleEndGroup s.stale) else s.stale := by
  unfold advanced State.endGroup; dsimp only; split <;> simp; split <;> simp
@[simp] theorem advanced_dataWrites (s0 s : State) : (advanced s0 s).dataWrites = if s0.ctx.stopAfter then 0 else s.dataWrites := by
  unfold advanced State.endGroup; dsimp only; split <;> simp; split <;> simp_all
@[simp] theorem advanced_fetchWrites (s0 s : State) : (advanced s0 s).fetchWrites = if s0.ctx.stopAfter then 0 else s.fetchWrites := by
  unfold advanced State.endGroup; dsimp only; split <;> simp; split <;> simp_all
@[simp] theorem advanced_srlzI (s0 s : State) : (advanced s0 s).srlzI = if s0.ctx.stopAfter then false else s.srlzI := by
  unfold advanced State.endGroup; dsimp only; split <;> simp; split <;> simp_all
@[simp] theorem advanced_groupRegs (s0 s : State) : (advanced s0 s).groupRegs = if s0.ctx.stopAfter then [] else s.groupRegs := by
  unfold advanced State.endGroup; dsimp only; split <;> simp; split <;> simp_all
@[simp] theorem advanced_lastTc (s0 s : State) : (advanced s0 s).lastTc = if bit s.sys.psr Psr.ic then none else s.lastTc := by
  unfold advanced; dsimp only; split <;> simp
@[simp] theorem advanced_tcLost (s0 s : State) : (advanced s0 s).tcLost = if bit s.sys.psr Psr.ic then 0 else s.tcLost := by
  unfold advanced; dsimp only; split <;> simp
@[simp] theorem advanced_sys (s0 s : State) : (advanced s0 s).sys = s.sys.onPsr clearOneShot := by
  unfold advanced; dsimp only; split <;> simp
@[simp] theorem advanced_lastBundle (s0 s : State) :
    (advanced s0 s).lastBundle = if s0.icRetire then s0.ip else s.lastBundle := by
  unfold advanced; dsimp only; split <;> simp
@[simp] theorem advanced_ip (s0 s : State) : (advanced s0 s).ip = if lastSlot s0 then s0.ip + 16 else s0.ip := by
  unfold advanced; dsimp only; split <;> simp
@[simp] theorem advanced_slot (s0 s : State) : (advanced s0 s).slot = if lastSlot s0 then 0 else s0.slot + 1 := by
  unfold advanced; dsimp only; split <;> simp

/-! branched -/

@[simp] theorem branched_gr (s0 s : State) (target : Word) : (branched s0 s target).gr = s.gr := by simp [branched]
@[simp] theorem branched_fr (s0 s : State) (target : Word) : (branched s0 s target).fr = s.fr := by simp [branched]
@[simp] theorem branched_pr (s0 s : State) (target : Word) : (branched s0 s target).pr = s.pr := by simp [branched]
@[simp] theorem branched_br (s0 s : State) (target : Word) : (branched s0 s target).br = s.br := by simp [branched]
@[simp] theorem branched_ar (s0 s : State) (target : Word) : (branched s0 s target).ar = s.ar := by simp [branched]
@[simp] theorem branched_cfm (s0 s : State) (target : Word) : (branched s0 s target).cfm = s.cfm := by simp [branched]
@[simp] theorem branched_irr (s0 s : State) (target : Word) : (branched s0 s target).irr = s.irr := by simp [branched]
@[simp] theorem branched_xtp (s0 s : State) (target : Word) : (branched s0 s target).xtp = s.xtp := by simp [branched]
@[simp] theorem branched_waited (s0 s : State) (target : Word) : (branched s0 s target).waited = s.waited := by simp [branched]
@[simp] theorem branched_alat (s0 s : State) (target : Word) : (branched s0 s target).alat = s.alat := by simp [branched]
@[simp] theorem branched_mem (s0 s : State) (target : Word) : (branched s0 s target).mem = s.mem := by simp [branched]
@[simp] theorem branched_lines (s0 s : State) (target : Word) : (branched s0 s target).lines = s.lines := by simp [branched]
@[simp] theorem branched_holes (s0 s : State) (target : Word) : (branched s0 s target).holes = s.holes := by simp [branched]
@[simp] theorem branched_mcOwed (s0 s : State) (target : Word) : (branched s0 s target).mcOwed = s.mcOwed := by simp [branched]
@[simp] theorem branched_palOwed (s0 s : State) (target : Word) : (branched s0 s target).palOwed = s.palOwed := by simp [branched]
@[simp] theorem branched_pmdKnown (s0 s : State) (target : Word) : (branched s0 s target).pmdKnown = s.pmdKnown := by simp [branched]
@[simp] theorem branched_ctx (s0 s : State) (target : Word) : (branched s0 s target).ctx = s.ctx := by simp [branched]
@[simp] theorem branched_tick (s0 s : State) (target : Word) : (branched s0 s target).tick = s.tick := by simp [branched]
@[simp] theorem branched_dataOld (s0 s : State) (target : Word) :
    (branched s0 s target).dataOld = if s.srlzI then (s.dataOld.map (Sys.onPsr clearOneShot)).take s.dataWrites else (s.dataOld.map (Sys.onPsr clearOneShot)) := by
  unfold branched State.endGroup; dsimp only; split <;> simp_all
@[simp] theorem branched_fetchOld (s0 s : State) (target : Word) :
    (branched s0 s target).fetchOld = if s.srlzI then (s.fetchOld.map (Sys.onPsr clearOneShot)).take s.fetchWrites else (s.fetchOld.map (Sys.onPsr clearOneShot)) := by
  unfold branched State.endGroup; dsimp only; split <;> simp_all
@[simp] theorem branched_stale (s0 s : State) (target : Word) :
    (branched s0 s target).stale = if s.srlzI then staleSerialize s.stale else staleEndGroup s.stale := by
  unfold branched State.endGroup; dsimp only; split <;> simp_all
@[simp] theorem branched_dataWrites (s0 s : State) (target : Word) : (branched s0 s target).dataWrites = 0 := by
  unfold branched State.endGroup; dsimp only; split <;> simp_all
@[simp] theorem branched_fetchWrites (s0 s : State) (target : Word) : (branched s0 s target).fetchWrites = 0 := by
  unfold branched State.endGroup; dsimp only; split <;> simp_all
@[simp] theorem branched_srlzI (s0 s : State) (target : Word) : (branched s0 s target).srlzI = false := by
  unfold branched State.endGroup; dsimp only; split <;> simp_all
@[simp] theorem branched_groupRegs (s0 s : State) (target : Word) : (branched s0 s target).groupRegs = [] := by
  unfold branched State.endGroup; dsimp only; split <;> simp_all
@[simp] theorem branched_lastTc (s0 s : State) (target : Word) : (branched s0 s target).lastTc = if bit s.sys.psr Psr.ic then none else s.lastTc := by
  simp [branched]
@[simp] theorem branched_tcLost (s0 s : State) (target : Word) : (branched s0 s target).tcLost = if bit s.sys.psr Psr.ic then 0 else s.tcLost := by
  simp [branched]
@[simp] theorem branched_sys (s0 s : State) (target : Word) : (branched s0 s target).sys = s.sys.onPsr clearOneShot := by
  simp [branched]
@[simp] theorem branched_ip (s0 s : State) (target : Word) : (branched s0 s target).ip = target &&& ~~~15#64 := by
  simp [branched]
@[simp] theorem branched_slot (s0 s : State) (target : Word) : (branched s0 s target).slot = 0 := by
  simp [branched]
@[simp] theorem branched_lastBundle (s0 s : State) (target : Word) :
    (branched s0 s target).lastBundle = if s0.icRetire then s0.ip else s.lastBundle := by
  simp [branched]

/-! State.alatRemove -/

@[simp] theorem State.alatRemove_gr (s : State) (fp : Bool) (r : BitVec 7) : (s.alatRemove fp r).gr = s.gr := rfl
@[simp] theorem State.alatRemove_fr (s : State) (fp : Bool) (r : BitVec 7) : (s.alatRemove fp r).fr = s.fr := rfl
@[simp] theorem State.alatRemove_pr (s : State) (fp : Bool) (r : BitVec 7) : (s.alatRemove fp r).pr = s.pr := rfl
@[simp] theorem State.alatRemove_br (s : State) (fp : Bool) (r : BitVec 7) : (s.alatRemove fp r).br = s.br := rfl
@[simp] theorem State.alatRemove_ar (s : State) (fp : Bool) (r : BitVec 7) : (s.alatRemove fp r).ar = s.ar := rfl
@[simp] theorem State.alatRemove_ip (s : State) (fp : Bool) (r : BitVec 7) : (s.alatRemove fp r).ip = s.ip := rfl
@[simp] theorem State.alatRemove_slot (s : State) (fp : Bool) (r : BitVec 7) : (s.alatRemove fp r).slot = s.slot := rfl
@[simp] theorem State.alatRemove_cfm (s : State) (fp : Bool) (r : BitVec 7) : (s.alatRemove fp r).cfm = s.cfm := rfl
@[simp] theorem State.alatRemove_sys (s : State) (fp : Bool) (r : BitVec 7) : (s.alatRemove fp r).sys = s.sys := rfl
@[simp] theorem State.alatRemove_dataOld (s : State) (fp : Bool) (r : BitVec 7) : (s.alatRemove fp r).dataOld = s.dataOld := rfl
@[simp] theorem State.alatRemove_fetchOld (s : State) (fp : Bool) (r : BitVec 7) : (s.alatRemove fp r).fetchOld = s.fetchOld := rfl
@[simp] theorem State.alatRemove_dataWrites (s : State) (fp : Bool) (r : BitVec 7) : (s.alatRemove fp r).dataWrites = s.dataWrites := rfl
@[simp] theorem State.alatRemove_fetchWrites (s : State) (fp : Bool) (r : BitVec 7) : (s.alatRemove fp r).fetchWrites = s.fetchWrites := rfl
@[simp] theorem State.alatRemove_srlzI (s : State) (fp : Bool) (r : BitVec 7) : (s.alatRemove fp r).srlzI = s.srlzI := rfl
@[simp] theorem State.alatRemove_groupRegs (s : State) (fp : Bool) (r : BitVec 7) : (s.alatRemove fp r).groupRegs = s.groupRegs := rfl
@[simp] theorem State.alatRemove_lastBundle (s : State) (fp : Bool) (r : BitVec 7) : (s.alatRemove fp r).lastBundle = s.lastBundle := rfl
@[simp] theorem State.alatRemove_irr (s : State) (fp : Bool) (r : BitVec 7) : (s.alatRemove fp r).irr = s.irr := rfl
@[simp] theorem State.alatRemove_xtp (s : State) (fp : Bool) (r : BitVec 7) : (s.alatRemove fp r).xtp = s.xtp := rfl
@[simp] theorem State.alatRemove_waited (s : State) (fp : Bool) (r : BitVec 7) : (s.alatRemove fp r).waited = s.waited := rfl
@[simp] theorem State.alatRemove_mem (s : State) (fp : Bool) (r : BitVec 7) : (s.alatRemove fp r).mem = s.mem := rfl
@[simp] theorem State.alatRemove_stale (s : State) (fp : Bool) (r : BitVec 7) : (s.alatRemove fp r).stale = s.stale := rfl
@[simp] theorem State.alatRemove_lines (s : State) (fp : Bool) (r : BitVec 7) : (s.alatRemove fp r).lines = s.lines := rfl
@[simp] theorem State.alatRemove_lastTc (s : State) (fp : Bool) (r : BitVec 7) : (s.alatRemove fp r).lastTc = s.lastTc := rfl
@[simp] theorem State.alatRemove_tcLost (s : State) (fp : Bool) (r : BitVec 7) : (s.alatRemove fp r).tcLost = s.tcLost := rfl
@[simp] theorem State.alatRemove_holes (s : State) (fp : Bool) (r : BitVec 7) : (s.alatRemove fp r).holes = s.holes := rfl
@[simp] theorem State.alatRemove_mcOwed (s : State) (fp : Bool) (r : BitVec 7) : (s.alatRemove fp r).mcOwed = s.mcOwed := rfl
@[simp] theorem State.alatRemove_palOwed (s : State) (fp : Bool) (r : BitVec 7) : (s.alatRemove fp r).palOwed = s.palOwed := rfl
@[simp] theorem State.alatRemove_pmdKnown (s : State) (fp : Bool) (r : BitVec 7) : (s.alatRemove fp r).pmdKnown = s.pmdKnown := rfl
@[simp] theorem State.alatRemove_ctx (s : State) (fp : Bool) (r : BitVec 7) : (s.alatRemove fp r).ctx = s.ctx := rfl
@[simp] theorem State.alatRemove_tick (s : State) (fp : Bool) (r : BitVec 7) : (s.alatRemove fp r).tick = s.tick := rfl
@[simp] theorem State.alatRemove_alat (s : State) (fp : Bool) (r : BitVec 7) : (s.alatRemove fp r).alat = s.alat.filter fun e => !(e.fp == fp && decide (e.reg = r)) := rfl

/-! State.alatAlloc -/

@[simp] theorem State.alatAlloc_gr (s : State) (fp : Bool) (r : BitVec 7) (pa n : Nat) : (s.alatAlloc fp r pa n).gr = s.gr := rfl
@[simp] theorem State.alatAlloc_fr (s : State) (fp : Bool) (r : BitVec 7) (pa n : Nat) : (s.alatAlloc fp r pa n).fr = s.fr := rfl
@[simp] theorem State.alatAlloc_pr (s : State) (fp : Bool) (r : BitVec 7) (pa n : Nat) : (s.alatAlloc fp r pa n).pr = s.pr := rfl
@[simp] theorem State.alatAlloc_br (s : State) (fp : Bool) (r : BitVec 7) (pa n : Nat) : (s.alatAlloc fp r pa n).br = s.br := rfl
@[simp] theorem State.alatAlloc_ar (s : State) (fp : Bool) (r : BitVec 7) (pa n : Nat) : (s.alatAlloc fp r pa n).ar = s.ar := rfl
@[simp] theorem State.alatAlloc_ip (s : State) (fp : Bool) (r : BitVec 7) (pa n : Nat) : (s.alatAlloc fp r pa n).ip = s.ip := rfl
@[simp] theorem State.alatAlloc_slot (s : State) (fp : Bool) (r : BitVec 7) (pa n : Nat) : (s.alatAlloc fp r pa n).slot = s.slot := rfl
@[simp] theorem State.alatAlloc_cfm (s : State) (fp : Bool) (r : BitVec 7) (pa n : Nat) : (s.alatAlloc fp r pa n).cfm = s.cfm := rfl
@[simp] theorem State.alatAlloc_sys (s : State) (fp : Bool) (r : BitVec 7) (pa n : Nat) : (s.alatAlloc fp r pa n).sys = s.sys := rfl
@[simp] theorem State.alatAlloc_dataOld (s : State) (fp : Bool) (r : BitVec 7) (pa n : Nat) : (s.alatAlloc fp r pa n).dataOld = s.dataOld := rfl
@[simp] theorem State.alatAlloc_fetchOld (s : State) (fp : Bool) (r : BitVec 7) (pa n : Nat) : (s.alatAlloc fp r pa n).fetchOld = s.fetchOld := rfl
@[simp] theorem State.alatAlloc_dataWrites (s : State) (fp : Bool) (r : BitVec 7) (pa n : Nat) : (s.alatAlloc fp r pa n).dataWrites = s.dataWrites := rfl
@[simp] theorem State.alatAlloc_fetchWrites (s : State) (fp : Bool) (r : BitVec 7) (pa n : Nat) : (s.alatAlloc fp r pa n).fetchWrites = s.fetchWrites := rfl
@[simp] theorem State.alatAlloc_srlzI (s : State) (fp : Bool) (r : BitVec 7) (pa n : Nat) : (s.alatAlloc fp r pa n).srlzI = s.srlzI := rfl
@[simp] theorem State.alatAlloc_groupRegs (s : State) (fp : Bool) (r : BitVec 7) (pa n : Nat) : (s.alatAlloc fp r pa n).groupRegs = s.groupRegs := rfl
@[simp] theorem State.alatAlloc_lastBundle (s : State) (fp : Bool) (r : BitVec 7) (pa n : Nat) : (s.alatAlloc fp r pa n).lastBundle = s.lastBundle := rfl
@[simp] theorem State.alatAlloc_irr (s : State) (fp : Bool) (r : BitVec 7) (pa n : Nat) : (s.alatAlloc fp r pa n).irr = s.irr := rfl
@[simp] theorem State.alatAlloc_xtp (s : State) (fp : Bool) (r : BitVec 7) (pa n : Nat) : (s.alatAlloc fp r pa n).xtp = s.xtp := rfl
@[simp] theorem State.alatAlloc_waited (s : State) (fp : Bool) (r : BitVec 7) (pa n : Nat) : (s.alatAlloc fp r pa n).waited = s.waited := rfl
@[simp] theorem State.alatAlloc_mem (s : State) (fp : Bool) (r : BitVec 7) (pa n : Nat) : (s.alatAlloc fp r pa n).mem = s.mem := rfl
@[simp] theorem State.alatAlloc_stale (s : State) (fp : Bool) (r : BitVec 7) (pa n : Nat) : (s.alatAlloc fp r pa n).stale = s.stale := rfl
@[simp] theorem State.alatAlloc_lines (s : State) (fp : Bool) (r : BitVec 7) (pa n : Nat) : (s.alatAlloc fp r pa n).lines = s.lines := rfl
@[simp] theorem State.alatAlloc_lastTc (s : State) (fp : Bool) (r : BitVec 7) (pa n : Nat) : (s.alatAlloc fp r pa n).lastTc = s.lastTc := rfl
@[simp] theorem State.alatAlloc_tcLost (s : State) (fp : Bool) (r : BitVec 7) (pa n : Nat) : (s.alatAlloc fp r pa n).tcLost = s.tcLost := rfl
@[simp] theorem State.alatAlloc_holes (s : State) (fp : Bool) (r : BitVec 7) (pa n : Nat) : (s.alatAlloc fp r pa n).holes = s.holes := rfl
@[simp] theorem State.alatAlloc_mcOwed (s : State) (fp : Bool) (r : BitVec 7) (pa n : Nat) : (s.alatAlloc fp r pa n).mcOwed = s.mcOwed := rfl
@[simp] theorem State.alatAlloc_palOwed (s : State) (fp : Bool) (r : BitVec 7) (pa n : Nat) : (s.alatAlloc fp r pa n).palOwed = s.palOwed := rfl
@[simp] theorem State.alatAlloc_pmdKnown (s : State) (fp : Bool) (r : BitVec 7) (pa n : Nat) : (s.alatAlloc fp r pa n).pmdKnown = s.pmdKnown := rfl
@[simp] theorem State.alatAlloc_ctx (s : State) (fp : Bool) (r : BitVec 7) (pa n : Nat) : (s.alatAlloc fp r pa n).ctx = s.ctx := rfl
@[simp] theorem State.alatAlloc_tick (s : State) (fp : Bool) (r : BitVec 7) (pa n : Nat) : (s.alatAlloc fp r pa n).tick = s.tick := rfl
@[simp] theorem State.alatAlloc_alat (s : State) (fp : Bool) (r : BitVec 7) (pa n : Nat) : (s.alatAlloc fp r pa n).alat = { fp := fp, reg := r, pa := pa, size := n } :: (s.alatRemove fp r).alat := rfl

/-! State.storeBytes -/

@[simp] theorem State.storeBytes_gr (s : State) (pa : Nat) (bs : List Byte) : (s.storeBytes pa bs).gr = s.gr := rfl
@[simp] theorem State.storeBytes_fr (s : State) (pa : Nat) (bs : List Byte) : (s.storeBytes pa bs).fr = s.fr := rfl
@[simp] theorem State.storeBytes_pr (s : State) (pa : Nat) (bs : List Byte) : (s.storeBytes pa bs).pr = s.pr := rfl
@[simp] theorem State.storeBytes_br (s : State) (pa : Nat) (bs : List Byte) : (s.storeBytes pa bs).br = s.br := rfl
@[simp] theorem State.storeBytes_ar (s : State) (pa : Nat) (bs : List Byte) : (s.storeBytes pa bs).ar = s.ar := rfl
@[simp] theorem State.storeBytes_ip (s : State) (pa : Nat) (bs : List Byte) : (s.storeBytes pa bs).ip = s.ip := rfl
@[simp] theorem State.storeBytes_slot (s : State) (pa : Nat) (bs : List Byte) : (s.storeBytes pa bs).slot = s.slot := rfl
@[simp] theorem State.storeBytes_cfm (s : State) (pa : Nat) (bs : List Byte) : (s.storeBytes pa bs).cfm = s.cfm := rfl
@[simp] theorem State.storeBytes_sys (s : State) (pa : Nat) (bs : List Byte) : (s.storeBytes pa bs).sys = s.sys := rfl
@[simp] theorem State.storeBytes_dataOld (s : State) (pa : Nat) (bs : List Byte) : (s.storeBytes pa bs).dataOld = s.dataOld := rfl
@[simp] theorem State.storeBytes_fetchOld (s : State) (pa : Nat) (bs : List Byte) : (s.storeBytes pa bs).fetchOld = s.fetchOld := rfl
@[simp] theorem State.storeBytes_dataWrites (s : State) (pa : Nat) (bs : List Byte) : (s.storeBytes pa bs).dataWrites = s.dataWrites := rfl
@[simp] theorem State.storeBytes_fetchWrites (s : State) (pa : Nat) (bs : List Byte) : (s.storeBytes pa bs).fetchWrites = s.fetchWrites := rfl
@[simp] theorem State.storeBytes_srlzI (s : State) (pa : Nat) (bs : List Byte) : (s.storeBytes pa bs).srlzI = s.srlzI := rfl
@[simp] theorem State.storeBytes_groupRegs (s : State) (pa : Nat) (bs : List Byte) : (s.storeBytes pa bs).groupRegs = s.groupRegs := rfl
@[simp] theorem State.storeBytes_lastBundle (s : State) (pa : Nat) (bs : List Byte) : (s.storeBytes pa bs).lastBundle = s.lastBundle := rfl
@[simp] theorem State.storeBytes_irr (s : State) (pa : Nat) (bs : List Byte) : (s.storeBytes pa bs).irr = s.irr := rfl
@[simp] theorem State.storeBytes_xtp (s : State) (pa : Nat) (bs : List Byte) : (s.storeBytes pa bs).xtp = s.xtp := rfl
@[simp] theorem State.storeBytes_waited (s : State) (pa : Nat) (bs : List Byte) : (s.storeBytes pa bs).waited = s.waited := rfl
@[simp] theorem State.storeBytes_lines (s : State) (pa : Nat) (bs : List Byte) : (s.storeBytes pa bs).lines = s.lines := rfl
@[simp] theorem State.storeBytes_lastTc (s : State) (pa : Nat) (bs : List Byte) : (s.storeBytes pa bs).lastTc = s.lastTc := rfl
@[simp] theorem State.storeBytes_tcLost (s : State) (pa : Nat) (bs : List Byte) : (s.storeBytes pa bs).tcLost = s.tcLost := rfl
@[simp] theorem State.storeBytes_holes (s : State) (pa : Nat) (bs : List Byte) : (s.storeBytes pa bs).holes = s.holes := rfl
@[simp] theorem State.storeBytes_mcOwed (s : State) (pa : Nat) (bs : List Byte) : (s.storeBytes pa bs).mcOwed = s.mcOwed := rfl
@[simp] theorem State.storeBytes_palOwed (s : State) (pa : Nat) (bs : List Byte) : (s.storeBytes pa bs).palOwed = s.palOwed := rfl
@[simp] theorem State.storeBytes_pmdKnown (s : State) (pa : Nat) (bs : List Byte) : (s.storeBytes pa bs).pmdKnown = s.pmdKnown := rfl
@[simp] theorem State.storeBytes_ctx (s : State) (pa : Nat) (bs : List Byte) : (s.storeBytes pa bs).ctx = s.ctx := rfl
@[simp] theorem State.storeBytes_tick (s : State) (pa : Nat) (bs : List Byte) : (s.storeBytes pa bs).tick = s.tick := rfl
@[simp] theorem State.storeBytes_mem (s : State) (pa : Nat) (bs : List Byte) : (s.storeBytes pa bs).mem = writeList s.mem pa bs := rfl
@[simp] theorem State.storeBytes_stale (s : State) (pa : Nat) (bs : List Byte) : (s.storeBytes pa bs).stale = staleStored s.mem pa bs.length s.stale := rfl
@[simp] theorem State.storeBytes_alat (s : State) (pa : Nat) (bs : List Byte) : (s.storeBytes pa bs).alat = alatWithout s.alat pa bs.length := rfl

/-! State.storeNowhere -/

@[simp] theorem State.storeNowhere_gr (s : State) (pa n : Nat) : (s.storeNowhere pa n).gr = s.gr := rfl
@[simp] theorem State.storeNowhere_fr (s : State) (pa n : Nat) : (s.storeNowhere pa n).fr = s.fr := rfl
@[simp] theorem State.storeNowhere_pr (s : State) (pa n : Nat) : (s.storeNowhere pa n).pr = s.pr := rfl
@[simp] theorem State.storeNowhere_br (s : State) (pa n : Nat) : (s.storeNowhere pa n).br = s.br := rfl
@[simp] theorem State.storeNowhere_ar (s : State) (pa n : Nat) : (s.storeNowhere pa n).ar = s.ar := rfl
@[simp] theorem State.storeNowhere_ip (s : State) (pa n : Nat) : (s.storeNowhere pa n).ip = s.ip := rfl
@[simp] theorem State.storeNowhere_slot (s : State) (pa n : Nat) : (s.storeNowhere pa n).slot = s.slot := rfl
@[simp] theorem State.storeNowhere_cfm (s : State) (pa n : Nat) : (s.storeNowhere pa n).cfm = s.cfm := rfl
@[simp] theorem State.storeNowhere_sys (s : State) (pa n : Nat) : (s.storeNowhere pa n).sys = s.sys := rfl
@[simp] theorem State.storeNowhere_dataOld (s : State) (pa n : Nat) : (s.storeNowhere pa n).dataOld = s.dataOld := rfl
@[simp] theorem State.storeNowhere_fetchOld (s : State) (pa n : Nat) : (s.storeNowhere pa n).fetchOld = s.fetchOld := rfl
@[simp] theorem State.storeNowhere_dataWrites (s : State) (pa n : Nat) : (s.storeNowhere pa n).dataWrites = s.dataWrites := rfl
@[simp] theorem State.storeNowhere_fetchWrites (s : State) (pa n : Nat) : (s.storeNowhere pa n).fetchWrites = s.fetchWrites := rfl
@[simp] theorem State.storeNowhere_srlzI (s : State) (pa n : Nat) : (s.storeNowhere pa n).srlzI = s.srlzI := rfl
@[simp] theorem State.storeNowhere_groupRegs (s : State) (pa n : Nat) : (s.storeNowhere pa n).groupRegs = s.groupRegs := rfl
@[simp] theorem State.storeNowhere_lastBundle (s : State) (pa n : Nat) : (s.storeNowhere pa n).lastBundle = s.lastBundle := rfl
@[simp] theorem State.storeNowhere_irr (s : State) (pa n : Nat) : (s.storeNowhere pa n).irr = s.irr := rfl
@[simp] theorem State.storeNowhere_xtp (s : State) (pa n : Nat) : (s.storeNowhere pa n).xtp = s.xtp := rfl
@[simp] theorem State.storeNowhere_waited (s : State) (pa n : Nat) : (s.storeNowhere pa n).waited = s.waited := rfl
@[simp] theorem State.storeNowhere_lines (s : State) (pa n : Nat) : (s.storeNowhere pa n).lines = s.lines := rfl
@[simp] theorem State.storeNowhere_lastTc (s : State) (pa n : Nat) : (s.storeNowhere pa n).lastTc = s.lastTc := rfl
@[simp] theorem State.storeNowhere_tcLost (s : State) (pa n : Nat) : (s.storeNowhere pa n).tcLost = s.tcLost := rfl
@[simp] theorem State.storeNowhere_holes (s : State) (pa n : Nat) : (s.storeNowhere pa n).holes = s.holes := rfl
@[simp] theorem State.storeNowhere_mcOwed (s : State) (pa n : Nat) : (s.storeNowhere pa n).mcOwed = s.mcOwed := rfl
@[simp] theorem State.storeNowhere_palOwed (s : State) (pa n : Nat) : (s.storeNowhere pa n).palOwed = s.palOwed := rfl
@[simp] theorem State.storeNowhere_pmdKnown (s : State) (pa n : Nat) : (s.storeNowhere pa n).pmdKnown = s.pmdKnown := rfl
@[simp] theorem State.storeNowhere_ctx (s : State) (pa n : Nat) : (s.storeNowhere pa n).ctx = s.ctx := rfl
@[simp] theorem State.storeNowhere_tick (s : State) (pa n : Nat) : (s.storeNowhere pa n).tick = s.tick := rfl
@[simp] theorem State.storeNowhere_mem (s : State) (pa n : Nat) : (s.storeNowhere pa n).mem = s.mem := rfl
@[simp] theorem State.storeNowhere_stale (s : State) (pa n : Nat) : (s.storeNowhere pa n).stale = s.stale := rfl
@[simp] theorem State.storeNowhere_alat (s : State) (pa n : Nat) : (s.storeNowhere pa n).alat = alatWithout s.alat pa n := rfl

/-! Sys -/

@[simp] theorem Sys.onPsr_psr (f : Word → Word) (y : Sys) : (y.onPsr f).psr = f y.psr := rfl
@[simp] theorem Sys.onPsr_cr (f : Word → Word) (y : Sys) : (y.onPsr f).cr = y.cr := rfl
@[simp] theorem Sys.onPsr_itc (f : Word → Word) (y : Sys) : (y.onPsr f).itc = y.itc := rfl
@[simp] theorem Sys.onPsr_rr (f : Word → Word) (y : Sys) : (y.onPsr f).rr = y.rr := rfl
@[simp] theorem Sys.onPsr_pkr (f : Word → Word) (y : Sys) : (y.onPsr f).pkr = y.pkr := rfl
@[simp] theorem Sys.onPsr_itr (f : Word → Word) (y : Sys) : (y.onPsr f).itr = y.itr := rfl
@[simp] theorem Sys.onPsr_dtr (f : Word → Word) (y : Sys) : (y.onPsr f).dtr = y.dtr := rfl
@[simp] theorem Sys.onPsr_itcTlb (f : Word → Word) (y : Sys) : (y.onPsr f).itcTlb = y.itcTlb := rfl
@[simp] theorem Sys.onPsr_dtcTlb (f : Word → Word) (y : Sys) : (y.onPsr f).dtcTlb = y.dtcTlb := rfl
@[simp] theorem Sys.onPsr_dbr (f : Word → Word) (y : Sys) : (y.onPsr f).dbr = y.dbr := rfl
@[simp] theorem Sys.onPsr_ibr (f : Word → Word) (y : Sys) : (y.onPsr f).ibr = y.ibr := rfl
@[simp] theorem Sys.onPsr_pmc (f : Word → Word) (y : Sys) : (y.onPsr f).pmc = y.pmc := rfl
@[simp] theorem Sys.onPsr_pmd (f : Word → Word) (y : Sys) : (y.onPsr f).pmd = y.pmd := rfl
@[simp] theorem Sys.onPsr_inService (f : Word → Word) (y : Sys) : (y.onPsr f).inService = y.inService := rfl
@[simp] theorem Sys.setCr_psr (y : Sys) (n : Nat) (v : Word) : (y.setCr n v).psr = y.psr := rfl
@[simp] theorem Sys.setCr_itc (y : Sys) (n : Nat) (v : Word) : (y.setCr n v).itc = y.itc := rfl
@[simp] theorem Sys.setCr_rr (y : Sys) (n : Nat) (v : Word) : (y.setCr n v).rr = y.rr := rfl
@[simp] theorem Sys.setCr_pkr (y : Sys) (n : Nat) (v : Word) : (y.setCr n v).pkr = y.pkr := rfl
@[simp] theorem Sys.setCr_itr (y : Sys) (n : Nat) (v : Word) : (y.setCr n v).itr = y.itr := rfl
@[simp] theorem Sys.setCr_dtr (y : Sys) (n : Nat) (v : Word) : (y.setCr n v).dtr = y.dtr := rfl
@[simp] theorem Sys.setCr_itcTlb (y : Sys) (n : Nat) (v : Word) : (y.setCr n v).itcTlb = y.itcTlb := rfl
@[simp] theorem Sys.setCr_dtcTlb (y : Sys) (n : Nat) (v : Word) : (y.setCr n v).dtcTlb = y.dtcTlb := rfl
@[simp] theorem Sys.setCr_dbr (y : Sys) (n : Nat) (v : Word) : (y.setCr n v).dbr = y.dbr := rfl
@[simp] theorem Sys.setCr_ibr (y : Sys) (n : Nat) (v : Word) : (y.setCr n v).ibr = y.ibr := rfl
@[simp] theorem Sys.setCr_pmc (y : Sys) (n : Nat) (v : Word) : (y.setCr n v).pmc = y.pmc := rfl
@[simp] theorem Sys.setCr_pmd (y : Sys) (n : Nat) (v : Word) : (y.setCr n v).pmd = y.pmd := rfl
@[simp] theorem Sys.setCr_inService (y : Sys) (n : Nat) (v : Word) : (y.setCr n v).inService = y.inService := rfl
@[simp] theorem Sys.setCr_cr (y : Sys) (n : Nat) (v : Word) : (y.setCr n v).cr = wr y.cr n v := rfl

end Machine
end Sys2Proof
end

