-- ==== Sys2Proof/Laws/Ops.lean ====
section
/-!
SUPPORT. What the shared operations do, said once: predication, the ordered checks, completing an instruction, taken branches,
register files, and what completing an instruction leaves alone.
-/
namespace Sys2Proof
namespace Machine

/-! Control. -/

theorem predicated_true {qp : BitVec 6} {s : State} {k : Out} (h : s.pred qp = true) : predicated qp s k = k := by
  simp [predicated, h]

theorem predicated_false {qp : BitVec 6} {s : State} {k : Out} (h : s.pred qp = false) :
    predicated qp s k = finish s s := by
  simp [predicated, h]

@[simp] theorem guarded_nil (s : State) (k : Out) : guarded s [] k = k := rfl

@[simp] theorem guarded_cons (s : State) (c : Bool) (e : Exc) (l : List Check) (k : Out) :
    guarded s ((c, e) :: l) k = if c then raise s e else guarded s l k := rfl

/-- Checks that do not fail do not matter. -/
theorem guarded_append {s : State} {r : List Check} {k : Out} :
    ∀ {l : List Check}, (∀ p ∈ l, p.1 = false) → guarded s (l ++ r) k = guarded s r k
  | [], _ => rfl
  | (c, e) :: t, h => by
    rw [List.cons_append, guarded_cons, show c = false from h _ List.mem_cons_self, if_neg Bool.false_ne_true]
    exact guarded_append fun q hq => h q (List.mem_cons_of_mem _ hq)

/-- With no failing check the instruction goes on. -/
theorem guarded_pass {s : State} {l : List Check} {k : Out} (h : ∀ p ∈ l, p.1 = false) : guarded s l k = k := by
  simpa using guarded_append (s := s) (r := []) (k := k) h

/-- The mark of a speculative load decides no check. -/
theorem guarded_spChecks {s : State} {b : Bool} {l : List Check} {k : Out} (h : ∀ p ∈ l, p.1 = false) :
    guarded s (spChecks b l) k = k := by
  refine guarded_pass fun p hp => ?_
  obtain ⟨q, hq, rfl⟩ := List.mem_map.mp hp
  exact h q hq

/-- The first failing check is the fault taken. -/
theorem guarded_first {s : State} {l : List Check} {e : Exc} {r : List Check} {k : Out} (h : ∀ p ∈ l, p.1 = false) :
    guarded s (l ++ (true, e) :: r) k = raise s e := guarded_append h

/-! Bits. -/

theorem bit_clearOneShot {psr : Word} {n : Nat} (h : bit oneShotMask n = false) : bit (clearOneShot psr) n = bit psr n := by
  simp only [bit, clearOneShot] at h ⊢
  by_cases hn : n < 64
  · rw [BitVec.getLsbD_and, BitVec.getLsbD_not, h]; simp [hn]
  · simp [BitVec.getLsbD_of_ge _ _ (Nat.not_lt.mp hn)]

@[simp] theorem bit_clearOneShot_it (psr : Word) : bit (clearOneShot psr) Psr.it = bit psr Psr.it :=
  bit_clearOneShot (by decide)
@[simp] theorem bit_clearOneShot_vm (psr : Word) : bit (clearOneShot psr) Psr.vm = bit psr Psr.vm :=
  bit_clearOneShot (by decide)
@[simp] theorem bit_clearOneShot_bn (psr : Word) : bit (clearOneShot psr) Psr.bn = bit psr Psr.bn :=
  bit_clearOneShot (by decide)

@[simp] theorem bit_clearOneShot_ic (psr : Word) : bit (clearOneShot psr) Psr.ic = bit psr Psr.ic :=
  bit_clearOneShot (by decide)

/-! Completion. -/

/-- Nothing traps: an instruction that does not change PSR.it or PSR.vm completes. -/
theorem finish_quiet {s t : State} (h : Quiet s) (hit : t.psrNow Psr.it = s.psrNow Psr.it)
    (hvm : t.psrNow Psr.vm = s.psrNow Psr.vm) : finish s t = .next (advanced s t) := by
  obtain ⟨hss, hu⟩ := h
  simp only [State.psrNow] at hit hvm
  cases hl : lastSlot s
  · simp [finish, withTraps, seqUia, hl, hss]
  · simp only [hl, Bool.true_and, Bool.or_eq_false_iff] at hu
    have hip : (advanced s t).ip = s.ip + 16 := by rw [advanced_ip, hl]; rfl
    have hi : (unimplInstr (advanced s t) (advanced s t).ip && Config.uiaAsTrap) = false := by
      rw [← hu.1, hip]
      simp only [unimplInstr, State.psrNow, State.vm, advanced_sys, Sys.onPsr_psr, bit_clearOneShot_it, bit_clearOneShot_vm, hit,
        hvm]
      rfl
    have hp : pastTop (advanced s t) (advanced s t).ip = false := by
      rw [← hu.2, hip]
      simp only [pastTop, State.psrNow, advanced_sys, Sys.onPsr_psr, bit_clearOneShot_it, hit]
      rfl
    simp only [finish, withTraps, seqUia, hl, hi, hp, hss, Bool.false_and, Bool.or_self, Bool.and_false,
      Bool.false_eq_true, if_false]

/-- Nothing traps: a taken branch that does not change PSR.it or PSR.vm completes. -/
theorem finishBranch_quiet {s t : State} {target : Word} (h : QuietBranch s target)
    (hit : t.psrNow Psr.it = s.psrNow Psr.it) (hvm : t.psrNow Psr.vm = s.psrNow Psr.vm) :
    finishBranch s t target false = .next (branched s t target) := by
  obtain ⟨hss, htb, hu⟩ := h
  have key : unimplInstr (branched s t target) (branched s t target).ip = false := by
    rw [← hu]
    simp only [unimplInstr, State.psrNow, State.vm, branched_sys, branched_ip, Sys.onPsr_psr, bit_clearOneShot_it,
      bit_clearOneShot_vm]
    simp only [State.psrNow] at hit hvm
    rw [hit, hvm]; rfl
  simp only [finishBranch, withTraps, hss, htb, key, Bool.and_false, Bool.or_self, Bool.false_eq_true, if_false]

/-! Register files. -/

theorem rd_wr_self {α : Type} {n : Nat} {v : Vector α n} {i : Nat} {x d : α} (h : i < n) : rd (wr v i x) i d = x := by
  simp [rd, wr, h]

theorem rd_wr_ne {α : Type} {n : Nat} {v : Vector α n} {i j : Nat} {x d : α} (h : j ≠ i) :
    rd (wr v i x) j d = rd v j d := by
  simp [rd, wr, Ne.symm h]

theorem wr_get_ne {α : Type} {n : Nat} {v : Vector α n} {i j : Nat} {x : α} (h : j ≠ i) : (wr v i x)[j]? = v[j]? := by
  simp [wr, Ne.symm h]

theorem grIndex_lt (bn : Bool) (r : BitVec 7) : grIndex bn r < 144 := by
  have := r.isLt
  unfold grIndex banked
  split
  · next h => simp at h; omega
  · omega

theorem grIndex_inj {bn : Bool} {r q : BitVec 7} (h : grIndex bn r = grIndex bn q) : r = q := by
  have hr := r.isLt
  have hq := q.isLt
  apply BitVec.eq_of_toNat_eq
  unfold grIndex banked at h
  split at h <;> split at h <;> simp_all <;> omega

/-- A written general register reads back. -/
theorem getGr_setGr_self {s : State} {r : BitVec 7} {g : GReg} (h : r ≠ 0) : (s.setGr r g).getGr r = g := by
  simp only [State.getGr, h, if_false, State.psrNow, State.setGr_sys]
  simp only [State.setGr, h, if_false]
  exact rd_wr_self (grIndex_lt _ _)

/-- Another general register reads as before. -/
theorem getGr_setGr_ne {s : State} {r q : BitVec 7} {g : GReg} (h : q ≠ r) : (s.setGr r g).getGr q = s.getGr q := by
  by_cases hr : r = 0
  · simp [State.setGr, hr]
  · simp only [State.getGr, State.psrNow, State.setGr_sys]
    split
    · rfl
    · simp only [State.setGr, hr, if_false]
      exact rd_wr_ne fun hc => h (grIndex_inj hc)

/-- A general register depends on the registers and PSR.bn only. -/
theorem getGr_congr {s t : State} {r : BitVec 7} (hg : t.gr = s.gr) (hb : t.psrNow Psr.bn = s.psrNow Psr.bn) :
    t.getGr r = s.getGr r := by
  simp [State.getGr, hg, hb]

@[simp] theorem advanced_getGr (s t : State) (r : BitVec 7) : (advanced s t).getGr r = t.getGr r :=
  getGr_congr (by simp) (by simp [State.psrNow])

@[simp] theorem branched_getGr (s t : State) (target : Word) (r : BitVec 7) : (branched s t target).getGr r = t.getGr r :=
  getGr_congr (by simp) (by simp [State.psrNow])

end Machine
end Sys2Proof
end

