-- ==== Sys2Proof/Laws/Frames.lean ====
section
/-!
SUPPORT. Frames, built step by step: what each update of a state stays inside, and completing an instruction.
-/
namespace Sys2Proof
namespace Machine

/-! The serializable resources. -/

/-- The serializable resources outside a footprint are as before. -/
structure SysTouch (f : Footprint) (y z : Sys) : Prop where
  psr : z.psr &&& ~~~f.psr = y.psr &&& ~~~f.psr
  cr : ∀ n, n ∉ f.cr → z.cr[n]? = y.cr[n]?
  itc : .itc ∉ f.files → z.itc = y.itc
  rr : .rr ∉ f.files → z.rr = y.rr
  pkr : .pkr ∉ f.files → z.pkr = y.pkr
  itr : .itr ∉ f.files → z.itr = y.itr
  dtr : .dtr ∉ f.files → z.dtr = y.dtr
  dbr : .dbr ∉ f.files → z.dbr = y.dbr
  ibr : .ibr ∉ f.files → z.ibr = y.ibr
  pmc : .pmc ∉ f.files → z.pmc = y.pmc
  pmd : .pmd ∉ f.files → z.pmd = y.pmd
  tc : f.tc = false → z.itcTlb = y.itcTlb ∧ z.dtcTlb = y.dtcTlb
  inService : f.irq = false → z.inService = y.inService

theorem SysTouch.refl (f : Footprint) (y : Sys) : SysTouch f y y := by constructor <;> simp

theorem SysTouch.trans {f : Footprint} {x y z : Sys} (h : SysTouch f x y) (k : SysTouch f y z) : SysTouch f x z where
  psr := k.psr.trans h.psr
  cr n hn := (k.cr n hn).trans (h.cr n hn)
  itc hf := (k.itc hf).trans (h.itc hf)
  rr hf := (k.rr hf).trans (h.rr hf)
  pkr hf := (k.pkr hf).trans (h.pkr hf)
  itr hf := (k.itr hf).trans (h.itr hf)
  dtr hf := (k.dtr hf).trans (h.dtr hf)
  dbr hf := (k.dbr hf).trans (h.dbr hf)
  ibr hf := (k.ibr hf).trans (h.ibr hf)
  pmc hf := (k.pmc hf).trans (h.pmc hf)
  pmd hf := (k.pmd hf).trans (h.pmd hf)
  tc hf := ⟨(k.tc hf).1.trans (h.tc hf).1, (k.tc hf).2.trans (h.tc hf).2⟩
  inService hf := (k.inService hf).trans (h.inService hf)

/-- A change of PSR bits of the footprint. -/
theorem SysTouch.onPsr {f : Footprint} (y : Sys) (g : Word → Word) (hg : g y.psr &&& ~~~f.psr = y.psr &&& ~~~f.psr) :
    SysTouch f y (y.onPsr g) := by
  constructor <;> simp [hg]

/-- A change of a control register of the footprint. -/
theorem SysTouch.setCr {f : Footprint} (y : Sys) {n : Nat} (v : Word) (hn : n ∈ f.cr) : SysTouch f y (y.setCr n v) := by
  constructor
  case cr => intro m hm; rw [Sys.setCr_cr]; exact wr_get_ne fun hc => hm (hc ▸ hn)
  all_goals simp

/-- A change of the caches of translations. -/
theorem SysTouch.tcs {f : Footprint} {y z : Sys} (ht : f.tc = true) (h : ∃ a b, z = { y with itcTlb := a, dtcTlb := b }) :
    SysTouch f y z := by
  obtain ⟨a, b, rfl⟩ := h
  constructor <;> simp [ht]

/-- Completing an instruction clears the one-instruction bits. -/
theorem SysTouch.completed {f : Footprint} {y z : Sys} (h : SysTouch f y z) : SysFrame f y (z.onPsr clearOneShot) where
  psr := by
    simp only [Sys.onPsr_psr, clearOneShot]
    rw [BitVec.and_assoc, BitVec.and_comm (~~~oneShotMask), ← BitVec.and_assoc, h.psr, BitVec.and_assoc,
      BitVec.and_comm (~~~f.psr), ← BitVec.and_assoc]
  cr := h.cr
  itc := h.itc
  rr := h.rr
  pkr := h.pkr
  itr := h.itr
  dtr := h.dtr
  dbr := h.dbr
  ibr := h.ibr
  pmc := h.pmc
  pmd := h.pmd
  tc := h.tc
  inService := h.inService

theorem SysTouch.completed_map {f : Footprint} {l k : List Sys} (h : List.Forall₂ (SysTouch f) l k) :
    List.Forall₂ (SysFrame f) l (k.map (Sys.onPsr clearOneShot)) :=
  List.forall₂_map_right_iff.mpr (h.imp fun _ _ hab => hab.completed)

theorem SysTouch.refl_list (f : Footprint) (l : List Sys) : List.Forall₂ (SysTouch f) l l :=
  List.forall₂_same.mpr fun _ _ => .refl _ _

/-- An update of every view stays inside where it stays inside for each. -/
theorem SysTouch.map {f : Footprint} {l k : List Sys} (h : List.Forall₂ (SysTouch f) l k) {g : Sys → Sys}
    (hg : ∀ y, SysTouch f y (g y)) : List.Forall₂ (SysTouch f) l (k.map g) :=
  List.forall₂_map_right_iff.mpr (h.imp fun _ b hab => hab.trans (hg b))

/-! The state. -/

/-- What an instruction has done before it completes stays inside a footprint. -/
structure Touch (f : Footprint) (s t : State) : Prop where
  last : 22 ∉ f.cr → t.lastBundle = s.lastBundle
  gr : ∀ i, (∀ r ∈ f.gr, i ≠ grIndex (s.psrNow Psr.bn) r) → t.gr[i]? = s.gr[i]?
  fr : ∀ r : BitVec 7, r ∉ f.fr → t.fr[r.toNat]? = s.fr[r.toNat]?
  pr : t.pr = s.pr
  br : t.br = s.br
  ar : ∀ n, n ∉ f.ar → t.ar[n]? = s.ar[n]?
  cfm : f.cfm = false → t.cfm = s.cfm
  sys : SysTouch f s.sys t.sys
  pmdKnown : .pmd ∉ f.files → t.pmdKnown = s.pmdKnown
  dataOld : f.serial = false → List.Forall₂ (SysTouch f.views) ((if f.data then [s.sys] else []) ++ s.dataOld) t.dataOld
  fetchOld : f.serial = false → List.Forall₂ (SysTouch f.views) ((if f.fetch then [s.sys] else []) ++ s.fetchOld) t.fetchOld
  dataWrites : t.dataWrites = s.dataWrites + f.data.toNat
  fetchWrites : t.fetchWrites = s.fetchWrites + f.fetch.toNat
  srlzI : f.serial = false → t.srlzI = s.srlzI
  groupRegs : t.groupRegs = s.groupRegs
  irq : f.irq = false → t.irr = s.irr ∧ t.xtp = s.xtp ∧ t.palOwed = s.palOwed
  alat : f.alat = false → t.alat = s.alat
  owed : f.owed = false → t.mcOwed = s.mcOwed
  lastTc : f.tc = false → t.lastTc = s.lastTc ∧ t.tcLost = s.tcLost
  mem : ∀ a, f.bytes a = false → readByte t.mem a = readByte s.mem a
  stale : f.stale = false → t.stale = s.stale
  lines : f.lines = false → t.lines = s.lines
  same : t.holes = s.holes ∧ t.waited = s.waited ∧ t.ctx = s.ctx ∧ t.tick = s.tick

/-- Doing nothing stays inside every footprint that puts nothing in flight. -/
theorem Touch.refl (f : Footprint) (s : State) (hd : f.data = false := by rfl) (hf : f.fetch = false := by rfl) :
    Touch f s s := by
  constructor
  case sys => exact .refl _ _
  case dataOld => intro; simpa [hd] using SysTouch.refl_list _ _
  case fetchOld => intro; simpa [hf] using SysTouch.refl_list _ _
  all_goals simp [hd, hf]

/-- Views kept at the end of a group, the pushed one among them. -/
theorem forall2_inFlight {f : Footprint} {l k : List Sys} {x : Sys} {push c : Bool} {n m : Nat}
    (h : List.Forall₂ (SysTouch f) ((if push then [x] else []) ++ l) k) (hm : m = n + push.toNat) :
    List.Forall₂ (SysFrame f) ((if push then [x] else []) ++ if c then l.take n else l)
      (if c then (k.map (Sys.onPsr clearOneShot)).take m else k.map (Sys.onPsr clearOneShot)) := by
  have h' := SysTouch.completed_map h
  subst hm
  cases c
  · simpa using h'
  · have := List.forall₂_take (n + push.toNat) h'
    cases push <;> simpa using this

/-- Completing an instruction adds nothing to its footprint. -/
theorem Touch.frame {f : Footprint} {s t : State} (h : Touch f s t) (hj : f.jump = false := by rfl) :
    Frame f s (advanced s t) where
  next _ := by simp
  last hl := by simp [h.last hl]
  gr := by simpa using h.gr
  fr := by simpa using h.fr
  pr := by simpa using h.pr
  br := by simpa using h.br
  ar := by simpa using h.ar
  cfm := by simpa using h.cfm
  sys := by simpa using h.sys.completed
  pmdKnown := by simpa using h.pmdKnown
  dataOld hs := by
    have := forall2_inFlight (c := s.ctx.stopAfter && s.srlzI) (h.dataOld hs) h.dataWrites
    rw [advanced_dataOld, h.srlzI hs]
    simp only [inFlight, Footprint.ends, hj, Bool.or_false]
    cases hst : s.ctx.stopAfter <;> simpa [hst] using this
  fetchOld hs := by
    have := forall2_inFlight (c := s.ctx.stopAfter && s.srlzI) (h.fetchOld hs) h.fetchWrites
    rw [advanced_fetchOld, h.srlzI hs]
    simp only [inFlight, Footprint.ends, hj, Bool.or_false]
    cases hst : s.ctx.stopAfter <;> simpa [hst] using this
  dataWrites := by simp [Footprint.ends, hj, h.dataWrites]
  fetchWrites := by simp [Footprint.ends, hj, h.fetchWrites]
  srlzI hs := by
    rw [advanced_srlzI, h.srlzI hs]
    simp only [Footprint.ends, hj, Bool.or_false]
    cases s.ctx.stopAfter <;> simp
  groupRegs := by simp [Footprint.ends, hj, h.groupRegs]
  irq := by simpa using h.irq
  alat := by simpa using h.alat
  owed := by simpa using h.owed
  lastTc ht := by simp [h.lastTc ht]
  mem := by simpa using h.mem
  stale hst hs := by simp [staleAfter, Footprint.ends, hj, h.stale hst, h.srlzI hs]
  lines := by simpa using h.lines
  same := by simpa using h.same

/-- A taken branch adds nothing to the footprint. -/
theorem Touch.frame_branched {f : Footprint} {s t : State} (h : Touch f s t) (target : Word)
    (hj : f.jump = true := by rfl) : Frame f s (branched s t target) where
  next hc := by simp [hj] at hc
  last hl := by simp [h.last hl]
  gr := by simpa using h.gr
  fr := by simpa using h.fr
  pr := by simpa using h.pr
  br := by simpa using h.br
  ar := by simpa using h.ar
  cfm := by simpa using h.cfm
  sys := by simpa using h.sys.completed
  pmdKnown := by simpa using h.pmdKnown
  dataOld hs := by
    have := forall2_inFlight (c := s.srlzI) (h.dataOld hs) h.dataWrites
    rw [branched_dataOld, h.srlzI hs]
    simpa [inFlight, Footprint.ends, hj] using this
  fetchOld hs := by
    have := forall2_inFlight (c := s.srlzI) (h.fetchOld hs) h.fetchWrites
    rw [branched_fetchOld, h.srlzI hs]
    simpa [inFlight, Footprint.ends, hj] using this
  dataWrites := by simp [Footprint.ends, hj]
  fetchWrites := by simp [Footprint.ends, hj]
  srlzI _ := by simp [Footprint.ends, hj]
  groupRegs := by simp [Footprint.ends, hj]
  irq := by simpa using h.irq
  alat := by simpa using h.alat
  owed := by simpa using h.owed
  lastTc ht := by simp [h.lastTc ht]
  mem := by simpa using h.mem
  stale hst hs := by simp [staleAfter, Footprint.ends, hj, h.stale hst, h.srlzI hs]
  lines := by simpa using h.lines
  same := by simpa using h.same

/-- A PSR bit outside the footprint is as before. -/
theorem SysTouch.bit {f : Footprint} {y z : Sys} (h : SysTouch f y z) {n : Nat} (hn : Machine.bit f.psr n = false) :
    Machine.bit z.psr n = Machine.bit y.psr n := by
  by_cases h64 : n < 64
  · have := congrArg (fun w : Word => w.getLsbD n) h.psr
    simp only [Machine.bit] at hn ⊢
    simpa only [BitVec.getLsbD_and, BitVec.getLsbD_not, hn, h64, decide_true, Bool.not_false, Bool.and_true] using this
  · simp [Machine.bit, BitVec.getLsbD_of_ge _ _ (Nat.not_lt.mp h64)]

theorem Touch.bit {f : Footprint} {s t : State} (h : Touch f s t) {n : Nat} (hn : Machine.bit f.psr n = false) :
    Machine.bit t.sys.psr n = Machine.bit s.sys.psr n := h.sys.bit hn

/-- A write of a general register of the footprint. -/
theorem Touch.setGr {f : Footprint} {s t : State} (h : Touch f s t) {r : BitVec 7} (g : GReg) (hr : r ∈ f.gr)
    (hb : Machine.bit f.psr Psr.bn = false) : Touch f s (t.setGr r g) := by
  unfold State.setGr
  split
  · exact h
  exact { h with
    gr := fun i hi => by
      rw [← h.gr i hi]
      exact wr_get_ne (by simpa [State.psrNow, h.bit hb] using hi r hr) }

/-- The same for a value. -/
theorem Touch.setVal {f : Footprint} {s t : State} (h : Touch f s t) {r : BitVec 7} (v : Word) (hr : r ∈ f.gr)
    (hb : Machine.bit f.psr Psr.bn = false) : Touch f s (t.setVal r v) := h.setGr _ hr hb

/-- A base update whose base is in the footprint. -/
theorem Touch.updBase {f : Footprint} {s t s0 : State} (h : Touch f s t) (r3 : BitVec 7) (u : BaseUpd)
    (hr : ∀ r ∈ baseGr r3 u, r ∈ f.gr) (hb : Machine.bit f.psr Psr.bn = false) : Touch f s (s0.updBase r3 u t) := by
  cases u with
  | none => exact h
  | reg r2 => exact h.setGr _ (hr r3 (by simp [baseGr])) hb
  | imm i => exact h.setGr _ (hr r3 (by simp [baseGr])) hb

/-- The bits that a floating-point target marks. -/
theorem markFpWritten_outside (r : BitVec 7) (p : Word) : markFpWritten r p &&& ~~~fpMarks = p &&& ~~~fpMarks := by
  have key : ∀ m : Word, m &&& ~~~fpMarks = 0 → (p ||| m) &&& ~~~fpMarks = p &&& ~~~fpMarks := by
    intro m hm
    rw [BitVec.and_comm, BitVec.and_or_distrib_left, BitVec.and_comm _ m, hm, BitVec.and_comm]
    exact BitVec.or_zero
  unfold markFpWritten setBit
  split
  · rfl
  split
  · exact key _ (by decide)
  · exact key _ (by decide)

/-- Where nothing is put in flight, the views change as the resources do. -/
theorem Footprint.views_of (f : Footprint) (hd : f.data = false) (hf : f.fetch = false) : f.views = f := by
  simp [Footprint.views, hd, hf]

/-- An update of every view. -/
theorem Touch.mapped {f : Footprint} {s t : State} (h : Touch f s t) {g : Sys → Sys} (hg : ∀ y, SysTouch f y (g y))
    (hv : ∀ y, SysTouch f.views y (g y)) : Touch f s (t.mapSys g) :=
  { h with
    sys := h.sys.trans (hg t.sys)
    dataOld := fun hs => SysTouch.map (h.dataOld hs) hv
    fetchOld := fun hs => SysTouch.map (h.fetchOld hs) hv }

/-- The same for a footprint that puts nothing in flight. -/
theorem Touch.mapped_plain {f : Footprint} {s t : State} (h : Touch f s t) {g : Sys → Sys} (hg : ∀ y, SysTouch f y (g y))
    (hd : f.data = false) (hf : f.fetch = false) : Touch f s (t.mapSys g) :=
  h.mapped hg (by rw [f.views_of hd hf]; exact hg)

/-- A write that stays in flight, as the first thing an instruction does to the resources. -/
theorem Touch.pushed {f : Footprint} (s : State) (g : Sys → Sys) (hg : SysTouch f s.sys (g s.sys))
    (hd : f.data = true := by rfl) (hf : f.fetch = true := by rfl) : Touch f s (s.pushSys g) := by
  constructor
  case sys => exact hg
  case dataOld =>
    intro; rw [hd, State.pushSys_dataOld]; exact .cons (.refl _ _) (SysTouch.refl_list _ _)
  case fetchOld =>
    intro; rw [hf, State.pushSys_fetchOld]; exact .cons (.refl _ _) (SysTouch.refl_list _ _)
  all_goals simp [hd, hf]

/-- An update of all views that changes PSR bits of the footprint only. -/
theorem Touch.onPsr {f : Footprint} {s t : State} (h : Touch f s t) (g : Word → Word)
    (hg : ∀ p, g p &&& ~~~f.psr = p &&& ~~~f.psr) (hd : f.data = false := by rfl) (hf : f.fetch = false := by rfl) :
    Touch f s (t.mapSys (Sys.onPsr g)) :=
  h.mapped_plain (fun y => .onPsr y g (hg _)) hd hf

/-- Marking a register set as written. -/
theorem Touch.markFp {f : Footprint} {s t : State} (h : Touch f s t) (r : BitVec 7) (hp : f.psr = fpMarks)
    (hd : f.data = false := by rfl) (hf : f.fetch = false := by rfl) :
    Touch f s (t.mapSys (Sys.onPsr (markFpWritten r))) :=
  h.onPsr _ (by rw [hp]; exact markFpWritten_outside r) hd hf

/-- A write of a floating-point register of the footprint. -/
theorem Touch.setFr {f : Footprint} {s t : State} (h : Touch f s t) {r : BitVec 7} (v : FWord) (hr : r ∈ f.fr)
    (hp : f.psr = fpMarks) (hd : f.data = false := by rfl) (hf : f.fetch = false := by rfl) : Touch f s (t.setFr r v) := by
  unfold State.setFr
  split
  · exact h
  refine Touch.markFp ?_ r hp hd hf
  exact { h with
    fr := fun q hq => by
      rw [← h.fr q hq]
      exact wr_get_ne fun hc => hq (BitVec.eq_of_toNat_eq hc ▸ hr) }

/-- A write of an application register of the footprint, ITC apart. -/
theorem Touch.setAr {f : Footprint} {s t : State} (h : Touch f s t) {n : Nat} (v : Word) (hn : n ∈ f.ar)
    (hi : n ≠ Ar.itc) : Touch f s (t.setAr n v) := by
  simp only [State.setAr, hi, if_false]
  exact { h with ar := fun m hm => by rw [← h.ar m hm]; exact wr_get_ne fun hc => hm (hc ▸ hn) }

/-- Any change of the ALAT. -/
theorem Touch.alatTo {f : Footprint} {s t : State} (h : Touch f s t) (l : List AlatEntry) (ha : f.alat = true) :
    Touch f s { t with alat := l } := { h with alat := by simp [ha] }

theorem Touch.alatRemove {f : Footprint} {s t : State} (h : Touch f s t) (fp : Bool) (r : BitVec 7) (ha : f.alat = true) :
    Touch f s (t.alatRemove fp r) := h.alatTo _ ha

theorem Touch.alatAlloc {f : Footprint} {s t : State} (h : Touch f s t) (fp : Bool) (r : BitVec 7) (pa n : Nat)
    (ha : f.alat = true) : Touch f s (t.alatAlloc fp r pa n) := h.alatTo _ ha

/-- Lines an access uses. -/
theorem Touch.touch {f : Footprint} {s t : State} (h : Touch f s t) (attr : Attr) (pa n : Nat) (hc : f.lines = true) :
    Touch f s (t.touch attr pa n) :=
  { h with lines := by simp [hc] }

/-- Stored bytes that lie in the footprint. -/
theorem Touch.storeBytes {f : Footprint} {s t : State} (h : Touch f s t) (pa : Nat) (bs : List Byte) (ha : f.alat = true)
    (hst : f.stale = true) (hb : ∀ a, inBytes pa bs.length a = true → f.bytes a = true) : Touch f s (t.storeBytes pa bs) :=
  { h with
    alat := by simp [ha]
    stale := by simp [hst]
    mem := fun a hf => by
      rw [← h.mem a hf, State.storeBytes_mem]
      refine readByte_writeList_out ?_
      have : inBytes pa bs.length a ≠ true := fun hc => by simp [hb a hc] at hf
      simp only [ne_eq, inBytes, Bool.and_eq_true, decide_eq_true_eq, not_and, Nat.not_lt] at this
      omega }

/-- A change of the caches of translations, in all views. -/
theorem Touch.mapTc {f : Footprint} {s t : State} (h : Touch f s t) (g : Sys → Sys) (ht : f.tc = true)
    (hg : ∀ y, ∃ a b, g y = { y with itcTlb := a, dtcTlb := b }) (hd : f.data = false := by rfl)
    (hf : f.fetch = false := by rfl) : Touch f s (t.mapSys g) :=
  h.mapped_plain (fun y => .tcs ht (hg y)) hd hf

/-- A larger footprint of the same path and flight. -/
theorem SysFrame.mono {f g : Footprint} {y z : Sys} (h : SysFrame f y z) (cr : ∀ r ∈ f.cr, r ∈ g.cr)
    (psr : f.psr &&& ~~~g.psr = 0) (files : ∀ x ∈ f.files, x ∈ g.files) (tc : g.tc = false → f.tc = false)
    (irq : g.irq = false → f.irq = false) : SysFrame g y z where
  psr := by
    have e : ∀ w : Word, w &&& ~~~g.psr = (w &&& ~~~f.psr) &&& ~~~g.psr := by
      intro w
      apply BitVec.eq_of_getLsbD_eq
      intro n hn
      have := congrArg (fun v : Word => v.getLsbD n) psr
      simp only [BitVec.getLsbD_and, BitVec.getLsbD_not, hn, decide_true, Bool.true_and] at this ⊢
      cases hf : f.psr.getLsbD n <;> simp_all
    rw [e z.psr, h.psr, ← e]
  cr n hn := h.cr n fun hc => hn (cr n hc)
  itc hc := h.itc fun hx => hc (files _ hx)
  rr hc := h.rr fun hx => hc (files _ hx)
  pkr hc := h.pkr fun hx => hc (files _ hx)
  itr hc := h.itr fun hx => hc (files _ hx)
  dtr hc := h.dtr fun hx => hc (files _ hx)
  dbr hc := h.dbr fun hx => hc (files _ hx)
  ibr hc := h.ibr fun hx => hc (files _ hx)
  pmc hc := h.pmc fun hx => hc (files _ hx)
  pmd hc := h.pmd fun hx => hc (files _ hx)
  tc hc := h.tc (tc hc)
  inService hc := h.inService (irq hc)

end Machine
end Sys2Proof
end

