-- ==== Sys2Proof/Laws/Refs.lean ====
section
/-!
SUPPORT. What a search for a translation and a reference may change, said once: an entry of the translation caches and an
owed machine check.
-/
namespace Sys2Proof
namespace Machine

/-- A search left the state as it was but for an owed machine check, used lines and an inserted translation. -/
def Walked (s t : State) : Prop :=
  ∃ b c, t = { s with mcOwed := b, lines := c } ∨
    ∃ n side e, t = ({ s with mcOwed := b, lines := c } : State).mapSys (Sys.insertTc n side e)

theorem Walked.refl (s : State) : Walked s s := ⟨s.mcOwed, s.lines, .inl rfl⟩

theorem Sys.insertTc_tc (n : Nat) (side : Side) (e : TlbEntry) (y : Sys) :
    ∃ a b, Sys.insertTc n side e y = { y with itcTlb := a, dtcTlb := b } := by
  cases side
  · exact ⟨_, _, rfl⟩
  · exact ⟨_, _, rfl⟩

/-- A walk may touch the caches of translations, the owed machine check and the used lines only. -/
theorem Walked.touch {f : Footprint} {s t : State} (h : Walked s t) (ht : f.tc = true) (ho : f.owed = true)
    (hc : f.lines = true) (hd : f.data = false := by rfl) (hf : f.fetch = false := by rfl) : Touch f s t := by
  obtain ⟨b, c, h⟩ := h
  have hb : Touch f s { s with mcOwed := b, lines := c } :=
    { Touch.refl f s hd hf with owed := by simp [ho], lines := by simp [hc] }
  rcases h with rfl | ⟨n, side, e, rfl⟩
  · exact hb
  · exact hb.mapTc _ ht (Sys.insertTc_tc n side e) hd hf

theorem Walked.psr {s t : State} (h : Walked s t) : t.sys.psr = s.sys.psr := by
  obtain ⟨b, c, rfl | ⟨n, side, e, rfl⟩⟩ := h
  · rfl
  · obtain ⟨a, b, e⟩ := Sys.insertTc_tc n side e s.sys
    simp [e]

/-- Everything a search keeps besides what a footprint speaks of. -/
theorem Walked.same {s t : State} (h : Walked s t) :
    t.gr = s.gr ∧ t.fr = s.fr ∧ t.ar = s.ar ∧ t.mem = s.mem ∧ t.alat = s.alat ∧ t.holes = s.holes ∧ t.tick = s.tick ∧
      t.stale = s.stale := by
  obtain ⟨b, c, rfl | ⟨n, side, e, rfl⟩⟩ := h <;> simp

theorem Walked.getGr {s t : State} (h : Walked s t) (r : BitVec 7) : t.getGr r = s.getGr r :=
  getGr_congr h.same.1 (by simp [State.psrNow, h.psr])

/-- The states a search ends with. -/
def Search.ends (x : Search) (s : State) : Prop :=
  match x with
  | .found _ t => Walked s t
  | .miss t => Walked s t
  | _ => True

theorem ends_ite {c : Prop} [Decidable c] {x y : Search} {s : State} (hx : x.ends s) (hy : y.ends s) :
    (if c then x else y).ends s := by
  by_cases h : c
  · simpa [h] using hx
  · simpa [h] using hy

/-- An access changes the used lines only. -/
theorem touch_eq (s : State) (attr : Attr) (pa n : Nat) : ∃ c, s.touch attr pa n = { s with lines := c } := ⟨_, rfl⟩

theorem walkClash_ends (s : State) (c : List (Nat × Coherence)) (side : Side) (e : TlbEntry) :
    (walkClash { s with lines := c } side e).ends s := by
  unfold walkClash
  exact ends_ite ⟨_, _, .inr ⟨_, _, _, rfl⟩⟩ ⟨_, _, .inl rfl⟩

theorem walkInsert_ends (s : State) (c : List (Nat × Coherence)) (v : TransView) (side : Side) (va : Word) (pa : Nat) :
    (walkInsert { s with lines := c } v side va pa).ends s := by
  unfold walkInsert
  refine ends_ite ⟨_, _, .inl rfl⟩ (ends_ite trivial (ends_ite trivial (ends_ite (walkClash_ends _ _ _ _) ?_)))
  exact ⟨_, _, .inr ⟨_, _, _, rfl⟩⟩

theorem walk_ends (s : State) (v : TransView) (side : Side) (va : Word) : (walk s v side va).ends s := by
  unfold walk
  refine ends_ite trivial (ends_ite (.refl s) (ends_ite trivial (ends_ite (.refl s) (ends_ite (.refl s) ?_))))
  split
  · trivial
  · next t _ =>
    obtain ⟨c, hc⟩ := touch_eq s .wb (t.pa (vhptAddr v.pta (v.rrOf va) va)) (vhptBytes v)
    rw [hc]
    exact ends_ite (.refl s) (ends_ite ⟨_, _, .inl rfl⟩ (ends_ite trivial (walkInsert_ends _ _ _ _ _ _)))
  · trivial

theorem searchTlb_ends (s : State) (v w : TransView) (side : Side) (va : Word) : (searchTlb s v w side va).ends s := by
  unfold searchTlb
  split
  · exact .refl s
  · trivial
  · exact ends_ite (walk_ends _ _ _ _) trivial

theorem searchTlb_found {s t : State} {v w : TransView} {side : Side} {va : Word} {e : TlbEntry}
    (h : searchTlb s v w side va = .found e t) : Walked s t := by
  have := searchTlb_ends s v w side va
  rwa [h] at this

/-- A reference leaves the state as its search left it. -/
theorem afterSearch_walked {s : State} {v : TransView} {ref : Ref} {c : Checked} :
    ∀ x : Search, x.ends s → afterSearch s v ref x = .ok c → Walked s c.st
  | .found _ _, w, e => Except.ok.inj e ▸ w
  | .miss _, w, e => Except.ok.inj e ▸ w
  | .alternate, _, e => Except.ok.inj e ▸ .refl s
  | .vhptFault _, _, e => Except.ok.inj e ▸ .refl s

/-- A reference goes by its own address or by a search. -/
theorem checkRef_cases {s : State} {n : Nat} {ref : Ref} {c : Checked} (h : checkRef s n ref = .ok c) :
    unsearched s (s.dataView n) ref = c ∨ ∃ x : Search, x.ends s ∧ afterSearch s (s.dataView n) ref x = .ok c := by
  unfold checkRef at h
  by_cases hd : ((s.dataView n).dt && !unimplVa (s.dataView n).vm ref.va) = true
  · rw [if_pos hd] at h
    exact .inr ⟨_, searchTlb_ends s _ (s.dataView (100 + n)) .data ref.va, h⟩
  · rw [if_neg hd] at h
    exact .inl (Except.ok.inj h)

theorem checkRef_walked {s : State} {n : Nat} {ref : Ref} {c : Checked} (h : checkRef s n ref = .ok c) : Walked s c.st := by
  rcases checkRef_cases h with e | ⟨x, hx, e⟩
  · have : (unsearched s (s.dataView n) ref).st = s := by simp only [unsearched, apply_ite Checked.st, ite_self]
    rw [← e, this]
    exact .refl s
  · exact afterSearch_walked x hx e

theorem Accessible.walked {s t : State} {ref : Ref} {pa : Nat} {attr : Attr} (h : Accessible s ref pa attr t) :
    Walked s t := checkRef_walked h

/-- An accessible reference goes on. -/
theorem withRef_accessible {s t : State} {ref : Ref} {pa : Nat} {attr : Attr} {k : Checked → Out}
    (h : Accessible s ref pa attr t) : withRef s 0 ref k = k { faults := [], pa := pa, attr := attr, st := t } := by
  unfold Accessible at h
  simp [withRef, orRefuse, h]

/-- A reference with a fault takes it. -/
theorem withRef_fault {s : State} {ref : Ref} {c : Checked} {p : DFault × Exc} {rest : List (DFault × Exc)}
    {k : Checked → Out} (h : checkRef s 0 ref = .ok c) (hf : c.faults = p :: rest) : withRef s 0 ref k = raise c.st p.2 := by
  obtain ⟨d, e⟩ := p
  simp [withRef, orRefuse, h, hf]

/-- A page keeps the alignment of an address to 8 bytes. -/
theorem TlbEntry.pa_aligned (e : TlbEntry) {va : Word} (h : va.toNat % 8 = 0) : e.pa va % 8 = 0 := by
  unfold TlbEntry.pa
  generalize e.ps.toNat = k
  rw [Nat.shiftRight_eq_div_pow]
  rcases Nat.lt_or_ge k 3 with hk | hk
  · interval_cases k <;> omega
  · obtain ⟨j, rfl⟩ := Nat.exists_eq_add_of_le hk
    have e8 : 2 ^ (3 + j) = 8 * 2 ^ j := by rw [Nat.pow_add]
    have h1 : va.toNat % 2 ^ (3 + j) % 8 = 0 := by rw [e8, Nat.mod_mul_right_mod]; exact h
    rw [Nat.add_mod, h1, e8, Nat.mul_left_comm]
    simp

/-- What an accessible reference passed: its late checks, and where it lies. -/
theorem Accessible.clear {s t : State} {ref : Ref} {pa : Nat} {attr : Attr} (h : Accessible s ref pa attr t) :
    (∃ l, failing (l ++ ref.late s (s.dataView 0) attr) = []) ∧
      (pa = ref.va.toNat % 2 ^ 63 ∨ ∃ e : TlbEntry, pa = e.pa ref.va) := by
  rcases checkRef_cases h with e | ⟨x, -, e⟩
  · unfold unsearched at e
    by_cases hc : ((s.dataView 0).dt || unimplPa ref.va) = true
    · rw [if_pos hc] at e
      exact absurd (congrArg Checked.faults e) (List.cons_ne_nil _ _)
    · rw [if_neg hc, Checked.mk.injEq] at e
      obtain ⟨hf, hp, hat, -⟩ := e
      exact ⟨⟨[], by rw [← hat]; exact hf⟩, .inl hp.symm⟩
  · cases x
    case found x u =>
      obtain ⟨hf, hp, hat, -⟩ := (Checked.mk.injEq ..).mp (Except.ok.inj e)
      exact ⟨⟨_, by rw [← hat]; exact hf⟩, .inr ⟨x, hp.symm⟩⟩
    case refuse => cases e
    all_goals exact absurd (congrArg Checked.faults (Except.ok.inj e)) (List.cons_ne_nil _ _)

/-- An accessible reference that may not be unaligned is aligned, in memory too. -/
theorem Accessible.aligned {s t : State} {ref : Ref} {pa : Nat} {attr : Attr} (h : Accessible s ref pa attr t)
    (hc : ref.chk = true) (hs : ref.strict = true) : ref.va.toNat % ref.align = 0 := by
  obtain ⟨l, hf⟩ := h.clear.1
  by_contra hn
  have : (DFault.unaligned, refExc ref 0x5A00 0 none) ∈ failing (l ++ ref.late s (s.dataView 0) attr) :=
    List.mem_filterMap.mpr ⟨(.unaligned, true, _), by simp [Ref.late, hc, lateFaults, hn, hs], rfl⟩
  rw [hf] at this
  cases this

/-- Where it lies in memory an accessible reference keeps the alignment of its address to 8 bytes. -/
theorem Accessible.pa_aligned {s t : State} {ref : Ref} {pa : Nat} {attr : Attr} (h : Accessible s ref pa attr t)
    (hv : ref.va.toNat % 8 = 0) : pa % 8 = 0 := by
  rcases h.clear.2 with rfl | ⟨e, rfl⟩
  · omega
  · exact e.pa_aligned hv

/-- A load of ordinary memory reads its bytes. -/
theorem memLoad_ordinary {t : State} {attr : Attr} {pa n : Nat} (h : Ordinary t attr pa n) :
    t.memLoad attr pa n = .ok (readList t.mem pa n, t.touch attr pa n) := by
  simp [State.memLoad, h.2.1, h.1, h.2.2]

/-- Lines that the access itself has used do not alias it. -/
theorem aliased_touch (t : State) (attr : Attr) (pa n pa' n' : Nat) :
    (t.touch attr pa n).aliased attr pa' n' = t.aliased attr pa' n' := by
  have h : usedOtherwise (useLines t.lines attr.coherence pa n) attr.coherence pa' n' =
      usedOtherwise t.lines attr.coherence pa' n' := by
    simp only [usedOtherwise, useLines, List.any_append]
    rw [List.any_eq_false.mpr, Bool.false_or]
    intro x hx
    obtain ⟨y, -, rfl⟩ := List.mem_map.mp (List.mem_of_mem_filter hx)
    simp
  simp [State.aliased, State.touch, h]

/-- Lines that are in use already are not listed again. -/
theorem useLines_idem (l : List (Nat × Coherence)) (c : Coherence) (a n : Nat) :
    useLines (useLines l c a n) c a n = useLines l c a n := by
  unfold useLines
  rw [List.filter_eq_nil_iff.mpr]
  · simp
  · intro x hx
    by_cases h : x ∈ l <;> simp_all

/-- Using lines twice is using them once. -/
theorem touch_touch (s : State) (attr : Attr) (pa n : Nat) : (s.touch attr pa n).touch attr pa n = s.touch attr pa n := by
  simp [State.touch, useLines_idem]

theorem Ordinary.touch {t : State} {attr : Attr} {pa n pa' n' : Nat} (h : Ordinary t attr pa' n') :
    Ordinary (t.touch attr pa n) attr pa' n' := by
  refine ⟨by simpa using h.1, h.2.1, ?_⟩
  rw [aliased_touch]; exact h.2.2

/-- A store to ordinary memory writes its bytes. -/
theorem memStore_ordinary {t : State} {attr : Attr} {pa n v : Nat} {be : Bool} (h : Ordinary t attr pa n) :
    t.memStore attr pa n be v = .ok ((t.storeBytes pa (valBytes be n v)).touch attr pa n) := by
  simp [State.memStore, h.2.1, h.1, h.2.2]

/-- Stored bytes read back. -/
theorem readBytes_stored {m : List Host.Cell} {pa n v : Nat} {be : Bool} (h : Memory.wf m = true) :
    readBytes be (writeList m pa (valBytes be n v)) pa n = v % 256 ^ n := by
  have := readList_writeList (bs := valBytes be n v) (a := pa) h
  rw [valBytes_length] at this
  rw [readBytes, this, bytesVal_valBytes]

end Machine
end Sys2Proof
end

