-- ==== Sys2Proof/Laws/Forms.lean ====
section
/-!
SUPPORT. Every constructor of a form runs the one operation of that form.
-/
namespace Sys2Proof
namespace Machine

/-- The integer loads run intLoad. -/
theorem exec_intLoadForm {i : Instr} {f : LoadForm} (h : intLoadForm i = some f) (s : State) :
    exec i s = intLoad f.qp f.size f.flav f.r1 f.r3 f.upd s := by
  cases i
  case memUpd qp op r3 upd hint =>
    cases op <;> simp only [intLoadForm, Option.some.injEq, reduceCtorEq] at h
    subst h; rfl
  all_goals first
    | (simp only [intLoadForm, reduceCtorEq] at h; done)
    | (simp only [intLoadForm, Option.some.injEq] at h; subst h; rfl)

/-- The integer stores run intStore. -/
theorem exec_intStoreForm {i : Instr} {f : StoreForm} (h : intStoreForm i = some f) (s : State) :
    exec i s = intStore f.qp f.size f.r2 f.r3 f.upd s := by
  cases i
  case memUpd qp op r3 upd hint =>
    cases op <;> simp only [intStoreForm, Option.some.injEq, reduceCtorEq] at h
    subst h; rfl
  all_goals first
    | (simp only [intStoreForm, reduceCtorEq] at h; done)
    | (simp only [intStoreForm, Option.some.injEq] at h; subst h; rfl)

/-- ld8.fill runs fillLoad. -/
theorem exec_fillForm {i : Instr} {f : StoreForm} (h : fillForm i = some f) (s : State) :
    f.size = 8 ∧ exec i s = fillLoad f.qp f.r2 f.r3 f.upd s := by
  cases i
  case memUpd qp op r3 upd hint =>
    cases op <;> simp only [fillForm, Option.some.injEq, reduceCtorEq] at h
    subst h; exact ⟨rfl, rfl⟩
  all_goals first
    | (simp only [fillForm, reduceCtorEq] at h; done)
    | (simp only [fillForm, Option.some.injEq] at h; subst h; exact ⟨rfl, rfl⟩)

/-- st8.spill runs spillStore. -/
theorem exec_spillForm {i : Instr} {f : StoreForm} (h : spillForm i = some f) (s : State) :
    f.size = 8 ∧ exec i s = spillStore f.qp f.r2 f.r3 f.upd s := by
  cases i
  case memUpd qp op r3 upd hint =>
    cases op <;> simp only [spillForm, Option.some.injEq, reduceCtorEq] at h
    subst h; exact ⟨rfl, rfl⟩
  all_goals first
    | (simp only [spillForm, reduceCtorEq] at h; done)
    | (simp only [spillForm, Option.some.injEq] at h; subst h; exact ⟨rfl, rfl⟩)

/-- ld16 runs load16. -/
theorem exec_load16Form {i : Instr} {qp : BitVec 6} {r1 r3 : BitVec 7} (h : load16Form i = some (qp, r1, r3)) (s : State) :
    exec i s = load16 qp r1 r3 s := by
  cases i <;> first
    | (simp only [load16Form, reduceCtorEq] at h; done)
    | (simp only [load16Form, Option.some.injEq, Prod.mk.injEq] at h; obtain ⟨rfl, rfl, rfl⟩ := h; rfl)

/-- st16 runs store16. -/
theorem exec_store16Form {i : Instr} {qp : BitVec 6} {r2 r3 : BitVec 7} (h : store16Form i = some (qp, r2, r3)) (s : State) :
    exec i s = store16 qp r2 r3 s := by
  cases i <;> first
    | (simp only [store16Form, reduceCtorEq] at h; done)
    | (simp only [store16Form, Option.some.injEq, Prod.mk.injEq] at h; obtain ⟨rfl, rfl, rfl⟩ := h; rfl)

/-- cmpxchg runs cmpxchgOp. -/
theorem exec_cmpxchgForm {i : Instr} {f : SemForm} (h : cmpxchgForm i = some f) (s : State) :
    exec i s = cmpxchgOp f.qp f.size f.r1 f.r2 f.r3 s := by
  cases i <;> first
    | (simp only [cmpxchgForm, reduceCtorEq] at h; done)
    | (simp only [cmpxchgForm, Option.some.injEq] at h; subst h; rfl)

/-- xchg runs xchgOp. -/
theorem exec_xchgForm {i : Instr} {f : SemForm} (h : xchgForm i = some f) (s : State) :
    exec i s = xchgOp f.qp f.size f.r1 f.r2 f.r3 s := by
  cases i <;> first
    | (simp only [xchgForm, reduceCtorEq] at h; done)
    | (simp only [xchgForm, Option.some.injEq] at h; subst h; rfl)

/-- cmp8xchg16 runs cmp8xchg16Op. -/
theorem exec_cmp8xchg16Form {i : Instr} {f : SemForm} (h : cmp8xchg16Form i = some f) (s : State) :
    exec i s = cmp8xchg16Op f.qp f.r1 f.r2 f.r3 s := by
  cases i <;> first
    | (simp only [cmp8xchg16Form, reduceCtorEq] at h; done)
    | (simp only [cmp8xchg16Form, Option.some.injEq] at h; subst h; rfl)

/-- fetchadd runs fetchaddOp, on 4 or 8 bytes. -/
theorem exec_fetchaddForm {i : Instr} {qp : BitVec 6} {n : Nat} {r1 r3 : BitVec 7} {inc : BitVec 3}
    (h : fetchaddForm i = some (qp, n, r1, inc, r3)) (s : State) :
    (n = 4 ∨ n = 8) ∧ exec i s = fetchaddOp qp n r1 inc r3 s := by
  cases i <;> first
    | (simp only [fetchaddForm, reduceCtorEq] at h; done)
    | (simp only [fetchaddForm, Option.some.injEq, Prod.mk.injEq] at h; obtain ⟨rfl, rfl, rfl, rfl, rfl⟩ := h
       exact ⟨by decide, rfl⟩)

/-- The prefetches run lfetchOp. -/
theorem exec_lfetchForm {i : Instr} {qp : BitVec 6} {fault excl : Bool} {r3 : BitVec 7} {u : BaseUpd}
    (h : lfetchForm i = some (qp, fault, excl, r3, u)) (s : State) : exec i s = lfetchOp qp fault excl r3 u s := by
  cases i
  case memUpd qp op r3 upd hint =>
    cases op <;> simp only [lfetchForm, Option.some.injEq, Prod.mk.injEq, reduceCtorEq] at h
    obtain ⟨rfl, rfl, rfl, rfl, rfl⟩ := h; rfl
  all_goals first
    | (simp only [lfetchForm, reduceCtorEq] at h; done)
    | (simp only [lfetchForm, Option.some.injEq, Prod.mk.injEq] at h; obtain ⟨rfl, rfl, rfl, rfl, rfl⟩ := h; rfl)

/-- The single floating-point loads run one load with the form's specification. -/
theorem exec_fpLoadForm {i : Instr} {f : FpForm} (h : fpLoadForm i = some f) (s : State) :
    exec i s = predicated f.qp s (guarded s (spChecks f.flav.speculative (fpChecks s [f.f] f.r3 f.upd))
      (loadOp (fpSpec f.size f.align f.sup f.fmt f.flav f.f) f.r3 f.upd s)) := by
  cases i
  case memUpd qp op r3 upd hint =>
    cases op <;> simp only [fpLoadForm, Option.some.injEq, reduceCtorEq] at h <;> subst h <;> rfl
  case ldfFlav qp fmt flav f1 r3 hint =>
    simp only [fpLoadForm, Option.some.injEq] at h; subst h; rfl
  all_goals first
    | (simp only [fpLoadForm, reduceCtorEq] at h; done)
    | (simp only [fpLoadForm, Option.some.injEq] at h; subst h; rfl)

/-- The pair loads run fpPairLoad's load. -/
theorem exec_fpPairForm {i : Instr} {f : PairForm} (h : fpPairForm i = some f) (s : State) :
    exec i s = predicated f.qp s (guarded s (spChecks f.flav.speculative (fpChecks s [f.f1, f.f2] f.r3 f.upd))
      (loadOp (pairSpec f.fmt f.flav f.f1 f.f2) f.r3 f.upd s)) := by
  cases i
  case memUpd qp op r3 upd hint =>
    cases op <;> simp only [fpPairForm, Option.some.injEq, reduceCtorEq] at h
    subst h; rfl
  all_goals first
    | (simp only [fpPairForm, reduceCtorEq] at h; done)
    | (simp only [fpPairForm, Option.some.injEq] at h; subst h; rfl)

/-- The floating-point stores run one store with the form's specification. -/
theorem exec_fpStoreForm {i : Instr} {f : FpForm} (h : fpStoreForm i = some f) (s : State) :
    exec i s = predicated f.qp s (guarded s (fpStoreChecks s f.f f.r3 f.upd)
      (storeOp f.size f.align false f.sup (Config.fpToMem f.fmt (s.getFr f.f)) f.r3 f.upd id s)) := by
  cases i
  case memUpd qp op r3 upd hint =>
    cases op <;> simp only [fpStoreForm, Option.some.injEq, reduceCtorEq] at h <;> subst h <;> rfl
  all_goals first
    | (simp only [fpStoreForm, reduceCtorEq] at h; done)
    | (simp only [fpStoreForm, Option.some.injEq] at h; subst h; rfl)

end Machine
end Sys2Proof
end

