-- ==== Sys2Proof/Laws/Loads.lean ====
section
/-!
SUPPORT. What the load and store operations end in, said once: performed, deferred, failed, hit, stored.
-/
namespace Sys2Proof
namespace Machine

/-- A legal base update passes its check. -/
theorem updIllegal_ok {r3 : BitVec 7} {target : Option (BitVec 7)} {u : BaseUpd} (h : BaseOk r3 target u) :
    updIllegal r3 target u = false := by
  rcases h with rfl | ⟨h0, ht⟩
  · rfl
  · have h0' : ¬r3 = 0#7 := h0
    cases u <;> simp [updIllegal, h0', ht]

/-- The new base after a legal base update, whatever else was written before. -/
theorem newBase_updBase {s t : State} {r3 : BitVec 7} {target : Option (BitVec 7)} {u : BaseUpd}
    (h : BaseOk r3 target u) : NewBase s (advanced s (s.updBase r3 u t)) r3 u := by
  rcases h with rfl | ⟨h0, -⟩
  · trivial
  · cases u with
    | none => trivial
    | reg r2 => simpa [NewBase, State.updBase, updatedBase] using getGr_setGr_self h0
    | imm i => simpa [NewBase, State.updBase, updatedBase] using getGr_setGr_self h0

/-- A base update leaves a register that is not its base. -/
theorem getGr_updBase {s t : State} {r r3 : BitVec 7} {u : BaseUpd} (h : BaseOk r3 (some r) u) :
    (s.updBase r3 u t).getGr r = t.getGr r := by
  rcases h with rfl | ⟨-, ht⟩
  · rfl
  · have hr : r ≠ r3 := fun hc => ht (by rw [hc])
    cases u <;> simp [State.updBase, getGr_setGr_ne hr]

/-- Where bank switching is not in the footprint. -/
theorem bn_zero : bit 0 Psr.bn = false := by decide
theorem it_zero : bit 0 Psr.it = false := by decide
theorem vm_zero : bit 0 Psr.vm = false := by decide

/-- The ALAT after a load, as the allocation rule says. -/
theorem loadAlat_alat {p : LoadSpec} {attr : Attr} {pa : Nat} {s t : State} (h : t.alat = s.alat) :
    (loadAlat p attr pa t).alat = if allocates p.flav attr then alatWith s p.fp p.reg pa p.size else s.alat := by
  unfold loadAlat allocates
  split
  · simp [alatWith, h]
  · exact h

@[simp] theorem loadAlat_sys (p : LoadSpec) (attr : Attr) (pa : Nat) (t : State) : (loadAlat p attr pa t).sys = t.sys := by
  unfold loadAlat; split <;> simp

@[simp] theorem loadAlat_mcOwed (p : LoadSpec) (attr : Attr) (pa : Nat) (t : State) :
    (loadAlat p attr pa t).mcOwed = t.mcOwed := by unfold loadAlat; split <;> simp
@[simp] theorem loadAlat_lines (p : LoadSpec) (attr : Attr) (pa : Nat) (t : State) :
    (loadAlat p attr pa t).lines = t.lines := by unfold loadAlat; split <;> simp

/-- Allocation touches the ALAT only. -/
theorem Touch.loadAlat {f : Footprint} {s t : State} (h : Touch f s t) (p : LoadSpec) (attr : Attr) (pa : Nat)
    (ha : f.alat = true) : Touch f s (loadAlat p attr pa t) := by
  unfold Machine.loadAlat
  split
  · exact h.alatAlloc _ _ _ _ ha
  · exact h

/-- The base register of a base update lies in its list. -/
theorem mem_baseGr {r3 : BitVec 7} {u : BaseUpd} {l : List (BitVec 7)} : ∀ r ∈ baseGr r3 u, r ∈ l ++ baseGr r3 u :=
  fun _ h => List.mem_append_right _ h

/-- A load whose reference is accessible and that its completer performs. -/
theorem loadOp_performs {p : LoadSpec} {r3 : BitVec 7} {u : BaseUpd} {s t : State} {pa : Nat} {attr : Attr}
    (hn : s.nat r3 = false) (hp : Performs s p.flav p.fp p.reg attr) (ha : Accessible s (p.ref s r3) pa attr t)
    (ho : Ordinary t attr pa p.size) :
    loadOp p r3 u s =
      finish s (s.updBase r3 u (p.put (s.dpsr Psr.be) (readList t.mem pa p.size)
        (loadAlat p attr pa (t.touch attr pa p.size)))) := by
  obtain ⟨hc, hs, had⟩ := hp
  have hmem := memLoad_ordinary ho
  have h1 : (p.flav.checks && s.alatHit p.fp p.reg) = false := by
    cases h : p.flav.checks
    · rfl
    · simp [hc h]
  have h2 : (p.flav.speculative && s.psrNow Psr.ed) = false := by
    cases h : p.flav.speculative
    · rfl
    · simp [(hs h).2]
  have h3 : (p.flav.speculative && !attr.speculative) = false := by
    cases h : p.flav.speculative
    · rfl
    · simp [(hs h).1]
  have h4 : (p.flav.advanced && attr.nonSpeculative) = false := by
    cases h : p.flav.advanced
    · rfl
    · simp [had h]
  unfold Accessible at ha
  simp only [loadOp, h1, Bool.false_eq_true, if_false, loadRef, hn, h2, orRefuse, ha]
  cases hsp : p.flav.speculative <;>
    simp only [specOutcome, if_true, if_false, Bool.false_eq_true, loadChecked, h3, h4, loadPerform, orRefuse, hmem]

/-- The causes that defer a speculative load. -/
def LoadSpec.Defers (p : LoadSpec) (r3 : BitVec 7) (s : State) : Prop :=
  Deferred s (s.nat r3) (p.ref s r3)

/-- The faults that are deferred. -/
theorem defers_iff {s : State} {k : DFault} : defers s k = true ↔ FaultDeferred s k := by
  unfold defers FaultDeferred State.isrEd
  cases k <;> simp [dcrDefers, DFault.dcrBit, and_assoc]

/-- A speculative load that is deferred. -/
theorem loadOp_defers {p : LoadSpec} {r3 : BitVec 7} {u : BaseUpd} {s : State} (hs : p.flav.speculative = true)
    (h : p.Defers r3 s) :
    ∃ t, Walked s t ∧ ((s.nat r3 = true ∨ s.psrNow Psr.ed = true) → t = s) ∧ loadOp p r3 u s = loadDefer p r3 u s t := by
  have hk : p.flav.checks = false := by
    revert hs; cases p.flav <;> simp [LoadFlavour.speculative, LoadFlavour.checks]
  simp only [loadOp, hk, Bool.false_and, Bool.false_eq_true, if_false, loadRef, hs, if_true, Bool.true_and]
  by_cases hn : s.nat r3 = true
  · exact ⟨s, .refl s, fun _ => rfl, by simp [hn]⟩
  by_cases he : s.psrNow Psr.ed = true
  · exact ⟨s, .refl s, fun _ => rfl, by simp [hn, he]⟩
  have hn' : ¬(s.nat r3 = true ∨ s.psrNow Psr.ed = true) := fun h => h.elim hn he
  rw [if_neg hn, if_neg he]
  rcases h with h | h | ⟨pa, attr, t, ha, hat⟩ | ⟨c, k, e, rest, hc, hcf, hk1, hrest⟩
  · exact absurd h hn
  · exact absurd h he
  · refine ⟨t, ha.walked, fun h => absurd h hn', ?_⟩
    unfold Accessible at ha
    simp only [orRefuse, ha, specOutcome, loadChecked, hs, hat, Bool.true_and, Bool.not_false, if_true]
  · refine ⟨c.st, checkRef_walked hc, fun h => absurd h hn', ?_⟩
    have hnone : rest.find? (fun x => k.allowsAfter x.1 && !defers s x.1) = none := by
      rw [List.find?_eq_none]
      intro q hq
      cases ha : k.allowsAfter q.1
      · simp
      · simp [defers_iff.mpr (hrest q hq ha)]
    simp only [orRefuse, hc, hcf, specOutcome, defers_iff.mpr hk1, if_true, hnone]

/-- A speculative load whose first fault is not deferred takes it. -/
theorem loadOp_raises {p : LoadSpec} {r3 : BitVec 7} {u : BaseUpd} {s : State} {c : Checked} {k : DFault} {e : Exc}
    {rest : List (DFault × Exc)} (hs : p.flav.speculative = true) (hn : s.nat r3 = false) (he : s.psrNow Psr.ed = false)
    (hc : checkRef s 0 (p.ref s r3) = .ok c) (hf : c.faults = (k, e) :: rest) (hk : ¬FaultDeferred s k) :
    loadOp p r3 u s = raise c.st e := by
  have hck : p.flav.checks = false := by
    revert hs; cases p.flav <;> simp [LoadFlavour.speculative, LoadFlavour.checks]
  have hd : defers s k = false := by simpa using fun h => hk (defers_iff.mp h)
  simp [loadOp, hck, loadRef, hs, hn, he, orRefuse, hc, hf, specOutcome, hd]

/-- An advanced load of a non-speculative page fails. -/
theorem loadOp_advFail {p : LoadSpec} {r3 : BitVec 7} {u : BaseUpd} {s t : State} {pa : Nat} {attr : Attr}
    (hf : p.flav = .a) (hn : s.nat r3 = false) (ha : Accessible s (p.ref s r3) pa attr t)
    (hat : attr.nonSpeculative = true) : loadOp p r3 u s = loadAdvFail p r3 u s t := by
  unfold Accessible at ha
  simp [loadOp, hf, LoadFlavour.checks, loadRef, hn, LoadFlavour.speculative, orRefuse, ha, loadChecked,
    LoadFlavour.advanced, hat]

/-- A check load that hits: with or without the faults of its reference. -/
theorem loadOp_hit {p : LoadSpec} {r3 : BitVec 7} {u : BaseUpd} {s t : State} {pa : Nat} {attr : Attr}
    (hf : p.flav.checks = true) (hh : s.alatHit p.fp p.reg = true) (hn : s.nat r3 = false)
    (ha : Accessible s (p.ref s r3) pa attr t) : ∃ v, Walked s v ∧ loadOp p r3 u s = loadHit p r3 u s v := by
  by_cases hc : Config.freeBit .checkHit s.tick = true
  · exact ⟨t, ha.walked, by simp [loadOp, hf, hh, hc, hn, withRef_accessible ha]⟩
  · exact ⟨s, .refl s, by simp [loadOp, hf, hh, hc]⟩

/-- A store whose reference is accessible. -/
theorem storeOp_stores {n align v : Nat} {strict : Bool} {sup : Support} {r3 : BitVec 7} {u : BaseUpd}
    {extra : State → State} {s t : State} {pa : Nat} {attr : Attr}
    (ha : Accessible s { va := s.val r3, size := n, align := align, w := true, dirty := true, strict := strict, sup := sup,
                         pl := s.cpl } pa attr t) (ho : Ordinary t attr pa n) :
    storeOp n align strict sup v r3 u extra s =
      finish s (s.updBase r3 u (extra ((t.storeBytes pa (valBytes (s.dpsr Psr.be) n v)).touch attr pa n))) := by
  rw [storeOp, withRef_accessible ha]
  simp only [memStore_ordinary ho, orRefuse]

/-! Registers and marks. -/

/-- A plain load is always performed. -/
theorem performs_plain (s : State) (fp : Bool) (r : BitVec 7) (attr : Attr) : Performs s .plain fp r attr := by
  simp [Performs, LoadFlavour.checks, LoadFlavour.speculative, LoadFlavour.advanced]

/-- A written bit, and the others. -/
theorem bit_setBit {w : Word} {n k : Nat} {b : Bool} (hk : k < 64) :
    bit (setBit w n b) k = if k = n then b else bit w k := by
  unfold setBit bit bitMask
  by_cases h : k = n
  · subst h
    cases b <;> simp [hk]
  · have : ¬(k ≥ n ∧ (1#64).getLsbD (k - n) = true) := by
      rintro ⟨h1, h2⟩
      have : k - n = 0 := by
        by_contra hc
        simp at h2; omega
      omega
    cases b <;> simp_all; omega

/-- Enabled floating-point registers pass their check. -/
theorem chkFp_ok {s : State} {l : List (BitVec 7)} (h : ∀ f ∈ l, FpEnabled s f) : (chkFp s l).1 = false := by
  simp only [chkFp, Bool.or_eq_false_iff, Bool.and_eq_false_iff, List.any_eq_false, Bool.and_eq_true, decide_eq_true_eq]
  constructor
  · by_cases hd : s.dpsr Psr.dfl = false
    · exact .inl hd
    · exact .inr fun f hf ⟨a, b⟩ => hd ((h f hf).1 a b)
  · by_cases hd : s.dpsr Psr.dfh = false
    · exact .inl hd
    · exact .inr fun f hf a => hd ((h f hf).2 a)

/-- The checks of a floating-point load pass. -/
theorem fpChecks_ok {s : State} {l : List (BitVec 7)} {r3 : BitVec 7} {u : BaseUpd} (h2 : ∀ f ∈ l, 2 ≤ f.toNat)
    (he : ∀ f ∈ l, FpEnabled s f) (hb : BaseOk r3 none u) (sp : Bool) (k : Out) :
    guarded s (spChecks sp (fpChecks s l r3 u)) k = k := by
  apply guarded_spChecks
  intro p hp
  simp only [fpChecks, List.mem_cons, List.not_mem_nil, or_false] at hp
  rcases hp with rfl | rfl
  · have : l.any badFpTarget = false := by
      simp only [List.any_eq_false, badFpTarget, decide_eq_true_eq]
      intro f hf
      have := h2 f hf
      omega
    simp [chkIllegal, this, updIllegal_ok hb]
  · exact chkFp_ok he

/-- A written floating-point register reads back. -/
theorem getFr_setFr_self {s : State} {f : BitVec 7} {v : FWord} (h : 2 ≤ f.toNat) : (s.setFr f v).getFr f = v := by
  have h0 : f ≠ 0 := by rintro rfl; simp at h
  have h1 : f ≠ 1 := by rintro rfl; simp at h
  have : ¬f.toNat < 2 := by omega
  simp only [State.getFr, h0, h1, if_false, State.setFr, this, State.mapSys_fr]
  exact rd_wr_self f.isLt

/-- Another floating-point register reads as before. -/
theorem getFr_setFr_ne {s : State} {f g : BitVec 7} {v : FWord} (h : g ≠ f) : (s.setFr f v).getFr g = s.getFr g := by
  simp only [State.getFr]
  split
  · rfl
  split
  · rfl
  unfold State.setFr
  split
  · rfl
  exact rd_wr_ne fun hc => h (BitVec.eq_of_toNat_eq hc)

/-- A floating-point register depends on the registers only. -/
theorem getFr_congr {s t : State} {f : BitVec 7} (h : t.fr = s.fr) : t.getFr f = s.getFr f := by simp [State.getFr, h]

/-- The mark of a register set, and the other mark. -/
theorem bit_markFpWritten {f : BitVec 7} {p : Word} (h : 2 ≤ f.toNat) :
    bit (markFpWritten f p) (if f.toNat < 32 then Psr.mfl else Psr.mfh) = true ∧
    bit (markFpWritten f p) (if f.toNat < 32 then Psr.mfh else Psr.mfl) =
      bit p (if f.toNat < 32 then Psr.mfh else Psr.mfl) := by
  have : ¬f.toNat < 2 := by omega
  unfold markFpWritten
  simp only [this, if_false]
  split <;> constructor <;> rw [bit_setBit (by decide)] <;> simp [Psr.mfl, Psr.mfh]

/-- The read bytes of a range are the read bytes of its two halves. -/
theorem readList_append (m : List Host.Cell) (a n k : Nat) : readList m a (n + k) = readList m a n ++ readList m (a + n) k := by
  induction n generalizing a with
  | zero => simp [readList]
  | succ n ih =>
    have : n + 1 + k = (n + k) + 1 := by omega
    rw [this]
    simp only [readList, ih, List.cons_append]
    have : a + 1 + n = a + (n + 1) := by omega
    rw [this]

theorem readList_take (m : List Host.Cell) (a n k : Nat) : (readList m a (n + k)).take n = readList m a n := by
  rw [readList_append, List.take_left' (readList_length m a n)]

theorem readList_drop (m : List Host.Cell) (a n k : Nat) : (readList m a (n + k)).drop n = readList m (a + n) k := by
  rw [readList_append, List.drop_left' (readList_length m a n)]

/-! Completed loads. -/

/-- Completing what stayed inside a footprint that does not change PSR.it or PSR.vm. -/
theorem Touch.completes {f : Footprint} {s t : State} (h : Touch f s t) (hq : Quiet s)
    (hit : Machine.bit f.psr Psr.it = false) (hvm : Machine.bit f.psr Psr.vm = false) : finish s t = .next (advanced s t) :=
  finish_quiet hq (h.bit hit) (h.bit hvm)

/-- What a load's effect on its target leaves alone besides a footprint. -/
structure Keeps (v w : State) : Prop where
  alat : w.alat = v.alat
  itcTlb : w.sys.itcTlb = v.sys.itcTlb
  dtcTlb : w.sys.dtcTlb = v.sys.dtcTlb
  mcOwed : w.mcOwed = v.mcOwed
  lines : w.lines = v.lines

/-- How a load's effects on its target stay inside a footprint. -/
structure LoadSpec.Inside (p : LoadSpec) (f : Footprint) (s : State) : Prop where
  put : ∀ be bs v, Touch f s v → Touch f s (p.put be bs v) ∧ Keeps v (p.put be bs v)
  putNat : ∀ v, Touch f s v → Touch f s (p.putNat v) ∧ Keeps v (p.putNat v)
  putZero : ∀ v, Touch f s v → Touch f s (p.putZero v) ∧ Keeps v (p.putZero v)
  onHit : ∀ v, Touch f s v → Touch f s (p.onHit v) ∧ Keeps v (p.onHit v)

/-- What the footprint of a memory instruction must leave room for: the base; and what it may not claim: a bank switch, a
change of PSR.it or PSR.vm, a jump, something in flight. -/
structure Room (f : Footprint) (r3 : BitVec 7) (u : BaseUpd) : Prop where
  base : ∀ r ∈ baseGr r3 u, r ∈ f.gr
  bn : bit f.psr Psr.bn = false
  it : bit f.psr Psr.it = false
  vm : bit f.psr Psr.vm = false
  jump : f.jump = false
  data : f.data = false
  fetch : f.fetch = false

/-- Room in a footprint that changes no PSR bit, or the floating-point marks. -/
theorem Room.of {f : Footprint} {r3 : BitVec 7} {u : BaseUpd} (hb : ∀ r ∈ baseGr r3 u, r ∈ f.gr)
    (hp : f.psr = 0 ∨ f.psr = fpMarks) (hj : f.jump = false := by rfl) (hd : f.data = false := by rfl)
    (hf : f.fetch = false := by rfl) : Room f r3 u := by
  refine ⟨hb, ?_, ?_, ?_, hj, hd, hf⟩ <;> rcases hp with e | e <;> rw [e] <;> decide

/-- A load that is performed completes. -/
theorem loadOp_performed {f : Footprint} {p : LoadSpec} {r3 : BitVec 7} {u : BaseUpd} {s v : State} {pa : Nat} {attr : Attr}
    {target : Option (BitVec 7)} (hi : p.Inside f s) (hr : Room f r3 u) (htc : f.tc = true) (how : f.owed = true)
    (hca : f.lines = true) (hal : f.alat = true ∨ allocates p.flav attr = false) (hb : BaseOk r3 target u) (hq : Quiet s)
    (hn : s.nat r3 = false) (hp : Performs s p.flav p.fp p.reg attr) (ha : Accessible s (p.ref s r3) pa attr v)
    (ho : Ordinary v attr pa p.size) :
    ∃ t w, loadOp p r3 u s = .next t ∧ Touch f s w ∧ w.sys.psr = s.sys.psr ∧
      t = advanced s (s.updBase r3 u (p.put (s.dpsr Psr.be) (readList s.mem pa p.size) w)) ∧ NewBase s t r3 u ∧
      t.alat = (if allocates p.flav attr then alatWith s p.fp p.reg pa p.size else s.alat) ∧
      Reached v t attr pa p.size ∧ Frame f s t := by
  have hw := ha.walked
  have hwt := (hw.touch htc how hca hr.data hr.fetch).touch attr pa p.size hca
  have hla : Touch f s (loadAlat p attr pa (v.touch attr pa p.size)) := by
    rcases hal with hal | hal
    · exact hwt.loadAlat _ _ _ hal
    · have : loadAlat p attr pa (v.touch attr pa p.size) = v.touch attr pa p.size := by
        simpa [loadAlat, allocates] using fun h => by simp_all [allocates]
      rw [this]; exact hwt
  have hput := hi.put (s.dpsr Psr.be) (readList s.mem pa p.size) _ hla
  have ht := hput.1.updBase (s0 := s) r3 u hr.base hr.bn
  rw [loadOp_performs hn hp ha ho, hw.same.2.2.2.1, ht.completes hq hr.it hr.vm]
  refine ⟨_, _, rfl, hla, ?_, rfl, newBase_updBase hb, ?_, ?_, ht.frame hr.jump⟩
  · simp [hw.psr]
  · rw [advanced_alat, State.updBase_alat, hput.2.alat]
    exact loadAlat_alat (by simp [hw.same])
  · have k := hput.2
    simp [Reached, Searched, k.itcTlb, k.dtcTlb, k.mcOwed, k.lines]

/-- The ALAT entry of the load's register dropped, or not. -/
theorem Touch.dropped {f : Footprint} {s t : State} (h : Touch f s t) (c : Bool) (fp : Bool) (r : BitVec 7)
    (ha : f.alat = true) : Touch f s (if c then t.alatRemove fp r else t) := by
  cases c
  · exact h
  · exact h.alatRemove _ _ ha

/-- A deferred load completes. -/
theorem loadOp_deferred {f : Footprint} {p : LoadSpec} {r3 : BitVec 7} {u : BaseUpd} {s : State}
    {target : Option (BitVec 7)} (hi : p.Inside f s) (hr : Room f r3 u) (hal : f.alat = true)
    (howed : (f.tc = true ∧ f.owed = true ∧ f.lines = true) ∨ (s.nat r3 = true ∨ s.psrNow Psr.ed = true))
    (hb : BaseOk r3 target u) (hq : Quiet s)
    (hs : p.flav.speculative = true) (hd : p.Defers r3 s) :
    ∃ t w, loadOp p r3 u s = .next t ∧ Touch f s w ∧ t = advanced s (s.updBase r3 u (p.putNat w)) ∧ NewBase s t r3 u ∧
      t.alat = (if p.flav = .sa then alatLess s p.fp p.reg else s.alat) ∧ Frame f s t := by
  obtain ⟨v, hw, hv, e⟩ := loadOp_defers (u := u) hs hd
  have hw' : Touch f s v := by
    rcases howed with h | h
    · exact hw.touch h.1 h.2.1 h.2.2 hr.data hr.fetch
    · rw [hv h]; exact .refl _ _ hr.data hr.fetch
  have hx : Touch f s (if p.flav = .sa then v.alatRemove p.fp p.reg else v) := by
    split
    · exact hw'.alatRemove _ _ hal
    · exact hw'
  have ht := (hi.putNat _ hx).1.updBase (s0 := s) r3 u hr.base hr.bn
  rw [e, loadDefer, ht.completes hq hr.it hr.vm]
  refine ⟨_, _, rfl, hx, rfl, newBase_updBase hb, ?_, ht.frame hr.jump⟩
  rw [advanced_alat, State.updBase_alat, (hi.putNat _ hx).2.alat]
  split <;> simp [hw.same, alatLess]

/-- A failed advanced load completes. -/
theorem loadOp_failed {f : Footprint} {p : LoadSpec} {r3 : BitVec 7} {u : BaseUpd} {s v : State} {pa : Nat} {attr : Attr}
    {target : Option (BitVec 7)} (hi : p.Inside f s) (hr : Room f r3 u) (htc : f.tc = true) (how : f.owed = true)
    (hca : f.lines = true) (hal : f.alat = true) (hb : BaseOk r3 target u) (hq : Quiet s) (hf : p.flav = .a)
    (hn : s.nat r3 = false)
    (ha : Accessible s (p.ref s r3) pa attr v) (hat : attr.nonSpeculative = true) :
    ∃ t w, loadOp p r3 u s = .next t ∧ Touch f s w ∧ t = advanced s (s.updBase r3 u (p.putZero w)) ∧ NewBase s t r3 u ∧
      t.alat = alatLess s p.fp p.reg ∧ Left v t ∧ Frame f s t := by
  have hw := ha.walked
  have hx : Touch f s (v.alatRemove p.fp p.reg) := (hw.touch htc how hca hr.data hr.fetch).alatRemove _ _ hal
  have ht := (hi.putZero _ hx).1.updBase (s0 := s) r3 u hr.base hr.bn
  rw [loadOp_advFail hf hn ha hat, loadAdvFail, ht.completes hq hr.it hr.vm]
  have k := (hi.putZero _ hx).2
  refine ⟨_, _, rfl, hx, rfl, newBase_updBase hb, ?_, ?_, ht.frame hr.jump⟩
  · rw [advanced_alat, State.updBase_alat, k.alat]
    simp [hw.same, alatLess]
  · simp [Left, Searched, k.itcTlb, k.dtcTlb, k.mcOwed, k.lines]

/-- A check load that hits completes. -/
theorem loadOp_hits {f : Footprint} {p : LoadSpec} {r3 : BitVec 7} {u : BaseUpd} {s v : State} {pa : Nat} {attr : Attr}
    {target : Option (BitVec 7)} (hi : ∀ v, Touch f s v → Touch f s (p.onHit v) ∧ Keeps v (p.onHit v))
    (hr : Room f r3 u) (htc : f.tc = true) (how : f.owed = true) (hca : f.lines = true) (hal : f.alat = true)
    (hb : BaseOk r3 target u)
    (hq : Quiet s) (hf : p.flav.checks = true) (hh : s.alatHit p.fp p.reg = true) (hn : s.nat r3 = false)
    (ha : Accessible s (p.ref s r3) pa attr v) :
    ∃ t w, loadOp p r3 u s = .next t ∧ Touch f s w ∧ w.gr = s.gr ∧ w.fr = s.fr ∧ w.sys.psr = s.sys.psr ∧
      t = advanced s (s.updBase r3 u (p.onHit w)) ∧ NewBase s t r3 u ∧
      t.alat = (if p.flav.clears then alatLess s p.fp p.reg else s.alat) ∧ Frame f s t := by
  obtain ⟨w, hw, e⟩ := loadOp_hit (u := u) hf hh hn ha
  have hx := (hw.touch htc how hca hr.data hr.fetch).dropped p.flav.clears p.fp p.reg hal
  have ht := (hi _ hx).1.updBase (s0 := s) r3 u hr.base hr.bn
  rw [e, loadHit, ht.completes hq hr.it hr.vm]
  refine ⟨_, _, rfl, hx, ?_, ?_, ?_, rfl, newBase_updBase hb, ?_, ht.frame hr.jump⟩
  · split <;> simp [hw.same]
  · split <;> simp [hw.same]
  · split <;> simp [hw.psr]
  · rw [advanced_alat, State.updBase_alat, (hi _ hx).2.alat]
    split <;> simp [hw.same, alatLess]

/-- An integer load writes its target only. -/
theorem intSpec_inside (n : Nat) (flav : LoadFlavour) {r1 : BitVec 7} {f : Footprint} {s : State} (hr : r1 ∈ f.gr)
    (hb : bit f.psr Psr.bn = false) : (intSpec n flav r1).Inside f s where
  put _ _ _ h := ⟨h.setVal _ hr hb, by constructor <;> simp [intSpec]⟩
  putNat _ h := ⟨h.setGr _ hr hb, by constructor <;> simp [intSpec]⟩
  putZero _ h := ⟨h.setVal _ hr hb, by constructor <;> simp [intSpec]⟩
  onHit _ h := ⟨h, by constructor <;> simp [intSpec]⟩

/-- A written floating-point register leaves the caches of translations alone. -/
theorem keeps_setFr (v : State) (f : BitVec 7) (x : FWord) : Keeps v (v.setFr f x) := by
  unfold State.setFr
  split <;> constructor <;> simp

theorem keeps_markFp (v : State) (f : BitVec 7) : Keeps v (v.mapSys (Sys.onPsr (markFpWritten f))) := by
  constructor <;> simp

theorem Keeps.trans {u v w : State} (h : Keeps u v) (k : Keeps v w) : Keeps u w :=
  ⟨k.alat.trans h.alat, k.itcTlb.trans h.itcTlb, k.dtcTlb.trans h.dtcTlb, k.mcOwed.trans h.mcOwed, k.lines.trans h.lines⟩

/-- A floating-point load writes its target and marks its register set only. -/
theorem fpSpec_inside (n align : Nat) (sup : Support) (fmt : Config.FpFormat) (flav : LoadFlavour) {f1 : BitVec 7}
    {f : Footprint} {s : State} (hr : f1 ∈ f.fr) (hb : f.psr = fpMarks) (hd : f.data = false := by rfl)
    (hf : f.fetch = false := by rfl) : (fpSpec n align sup fmt flav f1).Inside f s where
  put _ _ _ h := ⟨h.setFr _ hr hb hd hf, keeps_setFr _ _ _⟩
  putNat _ h := ⟨h.setFr _ hr hb hd hf, keeps_setFr _ _ _⟩
  putZero _ h := ⟨h.setFr _ hr hb hd hf, keeps_setFr _ _ _⟩
  onHit _ h := ⟨h.markFp _ hb hd hf, keeps_markFp _ _⟩

/-- A pair load writes its two targets and marks their register sets only. -/
theorem pairSpec_inside (fmt : PairFmt) (flav : LoadFlavour) {f1 f2 : BitVec 7} {f : Footprint} {s : State}
    (h1 : f1 ∈ f.fr) (h2 : f2 ∈ f.fr) (hb : f.psr = fpMarks) (hd : f.data = false := by rfl)
    (hf : f.fetch = false := by rfl) : (pairSpec fmt flav f1 f2).Inside f s where
  put _ _ _ h := ⟨(h.setFr _ h1 hb hd hf).setFr _ h2 hb hd hf, (keeps_setFr _ _ _).trans (keeps_setFr _ _ _)⟩
  putNat _ h := ⟨(h.setFr _ h1 hb hd hf).setFr _ h2 hb hd hf, (keeps_setFr _ _ _).trans (keeps_setFr _ _ _)⟩
  putZero _ h := ⟨(h.setFr _ h1 hb hd hf).setFr _ h2 hb hd hf, (keeps_setFr _ _ _).trans (keeps_setFr _ _ _)⟩
  onHit _ h := ⟨(h.markFp _ hb hd hf).markFp _ hb hd hf, (keeps_markFp _ _).trans (keeps_markFp _ _)⟩

/-! Completed stores. -/

/-- A store to ordinary memory completes. -/
theorem storeOp_stored {f : Footprint} {n align v : Nat} {strict : Bool} {sup : Support} {r3 : BitVec 7} {u : BaseUpd}
    {extra : State → State} {s w : State} {pa : Nat} {attr : Attr} {target : Option (BitVec 7)}
    (hx : ∀ t, Touch f s t → Touch f s (extra t)) (hxk : ∀ t, Keeps t (extra t)) (hxm : ∀ t, (extra t).mem = t.mem)
    (hr : Room f r3 u) (htc : f.tc = true) (how : f.owed = true) (hca : f.lines = true) (hst : f.stale = true)
    (hal : f.alat = true) (hbytes : ∀ a, inBytes pa n a = true → f.bytes a = true)
    (hb : BaseOk r3 target u) (hq : Quiet s) (hm : MemoryOk s)
    (ha : Accessible s { va := s.val r3, size := n, align := align, w := true, dirty := true, strict := strict, sup := sup,
                         pl := s.cpl } pa attr w) (ho : Ordinary w attr pa n) :
    ∃ t x, storeOp n align strict sup v r3 u extra s = .next t ∧ t = advanced s (s.updBase r3 u (extra x)) ∧ x.ar = s.ar ∧
      x.sys.psr = s.sys.psr ∧ t.mem = writeList s.mem pa (valBytes (s.dpsr Psr.be) n v) ∧
      readBytes (s.dpsr Psr.be) t.mem pa n = v % 256 ^ n ∧ NewBase s t r3 u ∧
      t.alat = (s.alat.filter fun a => !rangesOverlap a.pa a.size pa n) ∧ Reached w t attr pa n ∧ Frame f s t := by
  have hw := ha.walked
  have hs := ((hw.touch htc how hca hr.data hr.fetch).storeBytes pa (valBytes (s.dpsr Psr.be) n v) hal hst
    (by simpa using hbytes)).touch attr pa n hca
  have ht := (hx _ hs).updBase (s0 := s) r3 u hr.base hr.bn
  have hmem : (s.updBase r3 u (extra ((w.storeBytes pa (valBytes (s.dpsr Psr.be) n v)).touch attr pa n))).mem =
      writeList s.mem pa (valBytes (s.dpsr Psr.be) n v) := by simp [hxm, hw.same]
  rw [storeOp_stores ha ho, ht.completes hq hr.it hr.vm]
  have k := hxk ((w.storeBytes pa (valBytes (s.dpsr Psr.be) n v)).touch attr pa n)
  refine ⟨_, _, rfl, rfl, by simp [hw.same], by simp [hw.psr], by simpa using hmem, ?_, newBase_updBase hb, ?_, ?_,
    ht.frame hr.jump⟩
  · rw [advanced_mem, hmem]
    exact readBytes_stored hm
  · simp [k.alat, hw.same, alatWithout]
  · simp [Reached, Searched, k.itcTlb, k.dtcTlb, k.mcOwed, k.lines]

end Machine
end Sys2Proof
end

