-- ==== Sys2Proof/Laws/PerInstr.lean ====
section
/-!
SUPPORT. A law of every instruction: its encoding carries the major opcode the table gives its row and its qualifying
predicate (30_encoding.md R308 to R313, R317). One lemma per constructor.
-/
namespace Sys2Proof.Laws.Header
open Sys2Proof Sys2Proof.Machine

/-- The major opcode, bits 40:37, of an instruction (opcode_table.json). -/
def majorOpcode : Instr → BitVec 4
  | .breakM .. => 0
  | .invala .. => 0
  | .fwb .. => 0
  | .srlzD .. => 0
  | .nopM .. => 0
  | .hintM .. => 0
  | .srlzI .. => 0
  | .invalaER .. => 0
  | .mf .. => 0
  | .invalaEF .. => 0
  | .mfA .. => 0
  | .syncI .. => 0
  | .sum .. => 0
  | .rum .. => 0
  | .ssm .. => 0
  | .rsm .. => 0
  | .movArImm .. => 0
  | .loadrs => 0
  | .flushrs => 0
  | .chkANcR .. => 0
  | .chkAClrR .. => 0
  | .chkANcF .. => 0
  | .chkAClrF .. => 0
  | .movToRr .. => 1
  | .movToDbr .. => 1
  | .movToIbr .. => 1
  | .movToPkr .. => 1
  | .movToPmc .. => 1
  | .movToPmd .. => 1
  | .movFromRr .. => 1
  | .movFromDbr .. => 1
  | .movFromIbr .. => 1
  | .movFromPkr .. => 1
  | .movFromPmc .. => 1
  | .movFromPmd .. => 1
  | .movFromCpuid .. => 1
  | .ptcL .. => 1
  | .ptcG .. => 1
  | .ptcGa .. => 1
  | .ptrD .. => 1
  | .ptrI .. => 1
  | .itrD .. => 1
  | .itrI .. => 1
  | .probeRImm .. => 1
  | .probeWImm .. => 1
  | .thash .. => 1
  | .ttag .. => 1
  | .tpa .. => 1
  | .tak .. => 1
  | .movFromUm .. => 1
  | .movFromAr .. => 1
  | .movFromCr .. => 1
  | .movFromPsr .. => 1
  | .movToUm .. => 1
  | .movToAr .. => 1
  | .movToCr .. => 1
  | .movToPsrL .. => 1
  | .itcD .. => 1
  | .itcI .. => 1
  | .fc .. => 1
  | .fcI .. => 1
  | .probeRwFault .. => 1
  | .probeRFault .. => 1
  | .probeWFault .. => 1
  | .ptcE .. => 1
  | .probeR .. => 1
  | .probeW .. => 1
  | .chkSM .. => 1
  | .chkSF .. => 1
  | .alloc .. => 1
  | .breakI .. => 0
  | .nopI .. => 0
  | .hintI .. => 0
  | .breakB .. => 0
  | .cover => 0
  | .clrrrb => 0
  | .clrrrbPr => 0
  | .rfi => 0
  | .bsw0 => 0
  | .bsw1 => 0
  | .epc => 0
  | .vmsw0 => 0
  | .vmsw1 => 0
  | .brCond .. => 0
  | .brIa .. => 0
  | .brRet .. => 0
  | .nopB .. => 2
  | .hintB .. => 2
  | .ld1 .. => 4
  | .ld2 .. => 4
  | .ld4 .. => 4
  | .ld8 .. => 4
  | .ld1S .. => 4
  | .ld2S .. => 4
  | .ld4S .. => 4
  | .ld8S .. => 4
  | .ld1A .. => 4
  | .ld2A .. => 4
  | .ld4A .. => 4
  | .ld8A .. => 4
  | .ld1Sa .. => 4
  | .ld2Sa .. => 4
  | .ld4Sa .. => 4
  | .ld8Sa .. => 4
  | .ld1Bias .. => 4
  | .ld2Bias .. => 4
  | .ld4Bias .. => 4
  | .ld8Bias .. => 4
  | .ld1Acq .. => 4
  | .ld2Acq .. => 4
  | .ld4Acq .. => 4
  | .ld8Acq .. => 4
  | .ld1CClr .. => 4
  | .ld2CClr .. => 4
  | .ld4CClr .. => 4
  | .ld8CClr .. => 4
  | .ld1CNc .. => 4
  | .ld2CNc .. => 4
  | .ld4CNc .. => 4
  | .ld8CNc .. => 4
  | .ld1CClrAcq .. => 4
  | .ld2CClrAcq .. => 4
  | .ld4CClrAcq .. => 4
  | .ld8CClrAcq .. => 4
  | .ld8Fill .. => 4
  | .st1 .. => 4
  | .st2 .. => 4
  | .st4 .. => 4
  | .st8 .. => 4
  | .st1Rel .. => 4
  | .st2Rel .. => 4
  | .st4Rel .. => 4
  | .st8Rel .. => 4
  | .st8Spill .. => 4
  | .cmpxchg1Acq .. => 4
  | .cmpxchg2Acq .. => 4
  | .cmpxchg4Acq .. => 4
  | .cmpxchg8Acq .. => 4
  | .cmpxchg1Rel .. => 4
  | .cmpxchg2Rel .. => 4
  | .cmpxchg4Rel .. => 4
  | .cmpxchg8Rel .. => 4
  | .xchg1 .. => 4
  | .xchg2 .. => 4
  | .xchg4 .. => 4
  | .xchg8 .. => 4
  | .fetchadd4Acq .. => 4
  | .fetchadd8Acq .. => 4
  | .fetchadd4Rel .. => 4
  | .fetchadd8Rel .. => 4
  | .cmp8xchg16Acq .. => 4
  | .cmp8xchg16Rel .. => 4
  | .ld16 .. => 4
  | .ld16Acq .. => 4
  | .st16 .. => 4
  | .st16Rel .. => 4
  | .lfetch .. => 6
  | .lfetchExcl .. => 6
  | .lfetchFault .. => 6
  | .lfetchFaultExcl .. => 6
  | .ldfe .. => 6
  | .stfe .. => 6
  | .ldfs .. => 6
  | .ldfd .. => 6
  | .ldf8 .. => 6
  | .ldfFill .. => 6
  | .ldfp .. => 6
  | .stfs .. => 6
  | .stfd .. => 6
  | .stf8 .. => 6
  | .stfSpill .. => 6
  | .ldfFlav .. => 6
  | .memUpd _ op _ upd _ =>
    match upd with
    | .reg _ => if op.isInt then 4 else 6
    | .imm _ => if op.isInt then 5 else 7
    | .size => 6
  | .breakFX .. => 0
  | .movI .. => 0
  | .brRel (.call ..) => 5
  | .brRel (.brp _) => 7
  | .brRel _ => 4
  | .addp4 .. => 8
  | .shladdp4 .. => 8
  | .addp4Imm .. => 8

/-- Bits 5:0 of an instruction: its qualifying predicate, but for a branch prediction, which takes none. -/
def qpField : Instr → BitVec 6
  | .brRel (.brp w) => w.extractLsb' 0 6
  | i => qpOf i

/-- The encoding carries the major opcode and the qualifying predicate. -/
def Statement (i : Instr) : Prop := (encodeRaw i).op = majorOpcode i ∧ (encodeRaw i).qp = qpField i

theorem breakM (qp : BitVec 6) (imm : BitVec 21) : Statement (.breakM qp imm) := ⟨rfl, rfl⟩
theorem invala (qp : BitVec 6) : Statement (.invala qp) := ⟨rfl, rfl⟩
theorem fwb (qp : BitVec 6) : Statement (.fwb qp) := ⟨rfl, rfl⟩
theorem srlzD (qp : BitVec 6) : Statement (.srlzD qp) := ⟨rfl, rfl⟩
theorem nopM (qp : BitVec 6) (imm : BitVec 21) : Statement (.nopM qp imm) := ⟨rfl, rfl⟩
theorem hintM (qp : BitVec 6) (imm : BitVec 21) : Statement (.hintM qp imm) := ⟨rfl, rfl⟩
theorem srlzI (qp : BitVec 6) : Statement (.srlzI qp) := ⟨rfl, rfl⟩
theorem invalaER (qp : BitVec 6) (r1 : BitVec 7) : Statement (.invalaER qp r1) := ⟨rfl, rfl⟩
theorem mf (qp : BitVec 6) : Statement (.mf qp) := ⟨rfl, rfl⟩
theorem invalaEF (qp : BitVec 6) (f1 : BitVec 7) : Statement (.invalaEF qp f1) := ⟨rfl, rfl⟩
theorem mfA (qp : BitVec 6) : Statement (.mfA qp) := ⟨rfl, rfl⟩
theorem syncI (qp : BitVec 6) : Statement (.syncI qp) := ⟨rfl, rfl⟩
theorem sum (qp : BitVec 6) (imm : BitVec 24) : Statement (.sum qp imm) := ⟨rfl, rfl⟩
theorem rum (qp : BitVec 6) (imm : BitVec 24) : Statement (.rum qp imm) := ⟨rfl, rfl⟩
theorem ssm (qp : BitVec 6) (imm : BitVec 24) : Statement (.ssm qp imm) := ⟨rfl, rfl⟩
theorem rsm (qp : BitVec 6) (imm : BitVec 24) : Statement (.rsm qp imm) := ⟨rfl, rfl⟩
theorem movArImm (qp : BitVec 6) (ar3 : BitVec 7) (imm : BitVec 8) : Statement (.movArImm qp ar3 imm) := ⟨rfl, rfl⟩
theorem loadrs : Statement .loadrs := ⟨rfl, rfl⟩
theorem flushrs : Statement .flushrs := ⟨rfl, rfl⟩
theorem chkANcR (qp : BitVec 6) (r1 : BitVec 7) (imm : BitVec 21) : Statement (.chkANcR qp r1 imm) := ⟨rfl, rfl⟩
theorem chkAClrR (qp : BitVec 6) (r1 : BitVec 7) (imm : BitVec 21) : Statement (.chkAClrR qp r1 imm) := ⟨rfl, rfl⟩
theorem chkANcF (qp : BitVec 6) (f1 : BitVec 7) (imm : BitVec 21) : Statement (.chkANcF qp f1 imm) := ⟨rfl, rfl⟩
theorem chkAClrF (qp : BitVec 6) (f1 : BitVec 7) (imm : BitVec 21) : Statement (.chkAClrF qp f1 imm) := ⟨rfl, rfl⟩
theorem movToRr (qp : BitVec 6) (r3 : BitVec 7) (r2 : BitVec 7) : Statement (.movToRr qp r3 r2) := ⟨rfl, rfl⟩
theorem movToDbr (qp : BitVec 6) (r3 : BitVec 7) (r2 : BitVec 7) : Statement (.movToDbr qp r3 r2) := ⟨rfl, rfl⟩
theorem movToIbr (qp : BitVec 6) (r3 : BitVec 7) (r2 : BitVec 7) : Statement (.movToIbr qp r3 r2) := ⟨rfl, rfl⟩
theorem movToPkr (qp : BitVec 6) (r3 : BitVec 7) (r2 : BitVec 7) : Statement (.movToPkr qp r3 r2) := ⟨rfl, rfl⟩
theorem movToPmc (qp : BitVec 6) (r3 : BitVec 7) (r2 : BitVec 7) : Statement (.movToPmc qp r3 r2) := ⟨rfl, rfl⟩
theorem movToPmd (qp : BitVec 6) (r3 : BitVec 7) (r2 : BitVec 7) : Statement (.movToPmd qp r3 r2) := ⟨rfl, rfl⟩
theorem movFromRr (qp : BitVec 6) (r1 : BitVec 7) (r3 : BitVec 7) : Statement (.movFromRr qp r1 r3) := ⟨rfl, rfl⟩
theorem movFromDbr (qp : BitVec 6) (r1 : BitVec 7) (r3 : BitVec 7) : Statement (.movFromDbr qp r1 r3) := ⟨rfl, rfl⟩
theorem movFromIbr (qp : BitVec 6) (r1 : BitVec 7) (r3 : BitVec 7) : Statement (.movFromIbr qp r1 r3) := ⟨rfl, rfl⟩
theorem movFromPkr (qp : BitVec 6) (r1 : BitVec 7) (r3 : BitVec 7) : Statement (.movFromPkr qp r1 r3) := ⟨rfl, rfl⟩
theorem movFromPmc (qp : BitVec 6) (r1 : BitVec 7) (r3 : BitVec 7) : Statement (.movFromPmc qp r1 r3) := ⟨rfl, rfl⟩
theorem movFromPmd (qp : BitVec 6) (r1 : BitVec 7) (r3 : BitVec 7) : Statement (.movFromPmd qp r1 r3) := ⟨rfl, rfl⟩
theorem movFromCpuid (qp : BitVec 6) (r1 : BitVec 7) (r3 : BitVec 7) : Statement (.movFromCpuid qp r1 r3) := ⟨rfl, rfl⟩
theorem ptcL (qp : BitVec 6) (r3 : BitVec 7) (r2 : BitVec 7) : Statement (.ptcL qp r3 r2) := ⟨rfl, rfl⟩
theorem ptcG (qp : BitVec 6) (r3 : BitVec 7) (r2 : BitVec 7) : Statement (.ptcG qp r3 r2) := ⟨rfl, rfl⟩
theorem ptcGa (qp : BitVec 6) (r3 : BitVec 7) (r2 : BitVec 7) : Statement (.ptcGa qp r3 r2) := ⟨rfl, rfl⟩
theorem ptrD (qp : BitVec 6) (r3 : BitVec 7) (r2 : BitVec 7) : Statement (.ptrD qp r3 r2) := ⟨rfl, rfl⟩
theorem ptrI (qp : BitVec 6) (r3 : BitVec 7) (r2 : BitVec 7) : Statement (.ptrI qp r3 r2) := ⟨rfl, rfl⟩
theorem itrD (qp : BitVec 6) (r3 : BitVec 7) (r2 : BitVec 7) : Statement (.itrD qp r3 r2) := ⟨rfl, rfl⟩
theorem itrI (qp : BitVec 6) (r3 : BitVec 7) (r2 : BitVec 7) : Statement (.itrI qp r3 r2) := ⟨rfl, rfl⟩
theorem probeRImm (qp : BitVec 6) (r1 : BitVec 7) (r3 : BitVec 7) (imm : BitVec 2) : Statement (.probeRImm qp r1 r3 imm) := ⟨rfl, rfl⟩
theorem probeWImm (qp : BitVec 6) (r1 : BitVec 7) (r3 : BitVec 7) (imm : BitVec 2) : Statement (.probeWImm qp r1 r3 imm) := ⟨rfl, rfl⟩
theorem thash (qp : BitVec 6) (r1 : BitVec 7) (r3 : BitVec 7) : Statement (.thash qp r1 r3) := ⟨rfl, rfl⟩
theorem ttag (qp : BitVec 6) (r1 : BitVec 7) (r3 : BitVec 7) : Statement (.ttag qp r1 r3) := ⟨rfl, rfl⟩
theorem tpa (qp : BitVec 6) (r1 : BitVec 7) (r3 : BitVec 7) : Statement (.tpa qp r1 r3) := ⟨rfl, rfl⟩
theorem tak (qp : BitVec 6) (r1 : BitVec 7) (r3 : BitVec 7) : Statement (.tak qp r1 r3) := ⟨rfl, rfl⟩
theorem movFromUm (qp : BitVec 6) (r1 : BitVec 7) : Statement (.movFromUm qp r1) := ⟨rfl, rfl⟩
theorem movFromAr (qp : BitVec 6) (r1 : BitVec 7) (ar3 : BitVec 7) : Statement (.movFromAr qp r1 ar3) := ⟨rfl, rfl⟩
theorem movFromCr (qp : BitVec 6) (r1 : BitVec 7) (cr3 : BitVec 7) : Statement (.movFromCr qp r1 cr3) := ⟨rfl, rfl⟩
theorem movFromPsr (qp : BitVec 6) (r1 : BitVec 7) : Statement (.movFromPsr qp r1) := ⟨rfl, rfl⟩
theorem movToUm (qp : BitVec 6) (r2 : BitVec 7) : Statement (.movToUm qp r2) := ⟨rfl, rfl⟩
theorem movToAr (qp : BitVec 6) (ar3 : BitVec 7) (r2 : BitVec 7) : Statement (.movToAr qp ar3 r2) := ⟨rfl, rfl⟩
theorem movToCr (qp : BitVec 6) (cr3 : BitVec 7) (r2 : BitVec 7) : Statement (.movToCr qp cr3 r2) := ⟨rfl, rfl⟩
theorem movToPsrL (qp : BitVec 6) (r2 : BitVec 7) : Statement (.movToPsrL qp r2) := ⟨rfl, rfl⟩
theorem itcD (qp : BitVec 6) (r2 : BitVec 7) : Statement (.itcD qp r2) := ⟨rfl, rfl⟩
theorem itcI (qp : BitVec 6) (r2 : BitVec 7) : Statement (.itcI qp r2) := ⟨rfl, rfl⟩
theorem fc (qp : BitVec 6) (r3 : BitVec 7) : Statement (.fc qp r3) := ⟨rfl, rfl⟩
theorem fcI (qp : BitVec 6) (r3 : BitVec 7) : Statement (.fcI qp r3) := ⟨rfl, rfl⟩
theorem probeRwFault (qp : BitVec 6) (r3 : BitVec 7) (imm : BitVec 2) : Statement (.probeRwFault qp r3 imm) := ⟨rfl, rfl⟩
theorem probeRFault (qp : BitVec 6) (r3 : BitVec 7) (imm : BitVec 2) : Statement (.probeRFault qp r3 imm) := ⟨rfl, rfl⟩
theorem probeWFault (qp : BitVec 6) (r3 : BitVec 7) (imm : BitVec 2) : Statement (.probeWFault qp r3 imm) := ⟨rfl, rfl⟩
theorem ptcE (qp : BitVec 6) (r3 : BitVec 7) : Statement (.ptcE qp r3) := ⟨rfl, rfl⟩
theorem probeR (qp : BitVec 6) (r1 : BitVec 7) (r3 : BitVec 7) (r2 : BitVec 7) : Statement (.probeR qp r1 r3 r2) := ⟨rfl, rfl⟩
theorem probeW (qp : BitVec 6) (r1 : BitVec 7) (r3 : BitVec 7) (r2 : BitVec 7) : Statement (.probeW qp r1 r3 r2) := ⟨rfl, rfl⟩
theorem chkSM (qp : BitVec 6) (r2 : BitVec 7) (imm : BitVec 21) : Statement (.chkSM qp r2 imm) := ⟨rfl, rfl⟩
theorem chkSF (qp : BitVec 6) (f2 : BitVec 7) (imm : BitVec 21) : Statement (.chkSF qp f2 imm) := ⟨rfl, rfl⟩
theorem alloc (r1 : BitVec 7) (sof : BitVec 7) (sol : BitVec 7) (sor : BitVec 4) : Statement (.alloc r1 sof sol sor) := ⟨rfl, rfl⟩
theorem breakI (qp : BitVec 6) (imm : BitVec 21) : Statement (.breakI qp imm) := ⟨rfl, rfl⟩
theorem nopI (qp : BitVec 6) (imm : BitVec 21) : Statement (.nopI qp imm) := ⟨rfl, rfl⟩
theorem hintI (qp : BitVec 6) (imm : BitVec 21) : Statement (.hintI qp imm) := ⟨rfl, rfl⟩
theorem breakB (qp : BitVec 6) (imm : BitVec 21) : Statement (.breakB qp imm) := ⟨rfl, rfl⟩
theorem cover : Statement .cover := ⟨rfl, rfl⟩
theorem clrrrb : Statement .clrrrb := ⟨rfl, rfl⟩
theorem clrrrbPr : Statement .clrrrbPr := ⟨rfl, rfl⟩
theorem rfi : Statement .rfi := ⟨rfl, rfl⟩
theorem bsw0 : Statement .bsw0 := ⟨rfl, rfl⟩
theorem bsw1 : Statement .bsw1 := ⟨rfl, rfl⟩
theorem epc : Statement .epc := ⟨rfl, rfl⟩
theorem vmsw0 : Statement .vmsw0 := ⟨rfl, rfl⟩
theorem vmsw1 : Statement .vmsw1 := ⟨rfl, rfl⟩
theorem brCond (qp : BitVec 6) (b2 : BitVec 3) (p : BitVec 1) (wh : BitVec 2) (d : BitVec 1) : Statement (.brCond qp b2 p wh d) := ⟨rfl, rfl⟩
theorem brIa (b2 : BitVec 3) (p : BitVec 1) (wh : BitVec 2) (d : BitVec 1) : Statement (.brIa b2 p wh d) := ⟨rfl, rfl⟩
theorem brRet (qp : BitVec 6) (b2 : BitVec 3) (p : BitVec 1) (wh : BitVec 2) (d : BitVec 1) : Statement (.brRet qp b2 p wh d) := ⟨rfl, rfl⟩
theorem nopB (qp : BitVec 6) (imm : BitVec 21) : Statement (.nopB qp imm) := ⟨rfl, rfl⟩
theorem hintB (qp : BitVec 6) (imm : BitVec 21) : Statement (.hintB qp imm) := ⟨rfl, rfl⟩
theorem ld1 (qp : BitVec 6) (r1 : BitVec 7) (r3 : BitVec 7) (hint : BitVec 2) : Statement (.ld1 qp r1 r3 hint) := ⟨rfl, rfl⟩
theorem ld2 (qp : BitVec 6) (r1 : BitVec 7) (r3 : BitVec 7) (hint : BitVec 2) : Statement (.ld2 qp r1 r3 hint) := ⟨rfl, rfl⟩
theorem ld4 (qp : BitVec 6) (r1 : BitVec 7) (r3 : BitVec 7) (hint : BitVec 2) : Statement (.ld4 qp r1 r3 hint) := ⟨rfl, rfl⟩
theorem ld8 (qp : BitVec 6) (r1 : BitVec 7) (r3 : BitVec 7) (hint : BitVec 2) : Statement (.ld8 qp r1 r3 hint) := ⟨rfl, rfl⟩
theorem ld1S (qp : BitVec 6) (r1 : BitVec 7) (r3 : BitVec 7) (hint : BitVec 2) : Statement (.ld1S qp r1 r3 hint) := ⟨rfl, rfl⟩
theorem ld2S (qp : BitVec 6) (r1 : BitVec 7) (r3 : BitVec 7) (hint : BitVec 2) : Statement (.ld2S qp r1 r3 hint) := ⟨rfl, rfl⟩
theorem ld4S (qp : BitVec 6) (r1 : BitVec 7) (r3 : BitVec 7) (hint : BitVec 2) : Statement (.ld4S qp r1 r3 hint) := ⟨rfl, rfl⟩
theorem ld8S (qp : BitVec 6) (r1 : BitVec 7) (r3 : BitVec 7) (hint : BitVec 2) : Statement (.ld8S qp r1 r3 hint) := ⟨rfl, rfl⟩
theorem ld1A (qp : BitVec 6) (r1 : BitVec 7) (r3 : BitVec 7) (hint : BitVec 2) : Statement (.ld1A qp r1 r3 hint) := ⟨rfl, rfl⟩
theorem ld2A (qp : BitVec 6) (r1 : BitVec 7) (r3 : BitVec 7) (hint : BitVec 2) : Statement (.ld2A qp r1 r3 hint) := ⟨rfl, rfl⟩
theorem ld4A (qp : BitVec 6) (r1 : BitVec 7) (r3 : BitVec 7) (hint : BitVec 2) : Statement (.ld4A qp r1 r3 hint) := ⟨rfl, rfl⟩
theorem ld8A (qp : BitVec 6) (r1 : BitVec 7) (r3 : BitVec 7) (hint : BitVec 2) : Statement (.ld8A qp r1 r3 hint) := ⟨rfl, rfl⟩
theorem ld1Sa (qp : BitVec 6) (r1 : BitVec 7) (r3 : BitVec 7) (hint : BitVec 2) : Statement (.ld1Sa qp r1 r3 hint) := ⟨rfl, rfl⟩
theorem ld2Sa (qp : BitVec 6) (r1 : BitVec 7) (r3 : BitVec 7) (hint : BitVec 2) : Statement (.ld2Sa qp r1 r3 hint) := ⟨rfl, rfl⟩
theorem ld4Sa (qp : BitVec 6) (r1 : BitVec 7) (r3 : BitVec 7) (hint : BitVec 2) : Statement (.ld4Sa qp r1 r3 hint) := ⟨rfl, rfl⟩
theorem ld8Sa (qp : BitVec 6) (r1 : BitVec 7) (r3 : BitVec 7) (hint : BitVec 2) : Statement (.ld8Sa qp r1 r3 hint) := ⟨rfl, rfl⟩
theorem ld1Bias (qp : BitVec 6) (r1 : BitVec 7) (r3 : BitVec 7) (hint : BitVec 2) : Statement (.ld1Bias qp r1 r3 hint) := ⟨rfl, rfl⟩
theorem ld2Bias (qp : BitVec 6) (r1 : BitVec 7) (r3 : BitVec 7) (hint : BitVec 2) : Statement (.ld2Bias qp r1 r3 hint) := ⟨rfl, rfl⟩
theorem ld4Bias (qp : BitVec 6) (r1 : BitVec 7) (r3 : BitVec 7) (hint : BitVec 2) : Statement (.ld4Bias qp r1 r3 hint) := ⟨rfl, rfl⟩
theorem ld8Bias (qp : BitVec 6) (r1 : BitVec 7) (r3 : BitVec 7) (hint : BitVec 2) : Statement (.ld8Bias qp r1 r3 hint) := ⟨rfl, rfl⟩
theorem ld1Acq (qp : BitVec 6) (r1 : BitVec 7) (r3 : BitVec 7) (hint : BitVec 2) : Statement (.ld1Acq qp r1 r3 hint) := ⟨rfl, rfl⟩
theorem ld2Acq (qp : BitVec 6) (r1 : BitVec 7) (r3 : BitVec 7) (hint : BitVec 2) : Statement (.ld2Acq qp r1 r3 hint) := ⟨rfl, rfl⟩
theorem ld4Acq (qp : BitVec 6) (r1 : BitVec 7) (r3 : BitVec 7) (hint : BitVec 2) : Statement (.ld4Acq qp r1 r3 hint) := ⟨rfl, rfl⟩
theorem ld8Acq (qp : BitVec 6) (r1 : BitVec 7) (r3 : BitVec 7) (hint : BitVec 2) : Statement (.ld8Acq qp r1 r3 hint) := ⟨rfl, rfl⟩
theorem ld1CClr (qp : BitVec 6) (r1 : BitVec 7) (r3 : BitVec 7) (hint : BitVec 2) : Statement (.ld1CClr qp r1 r3 hint) := ⟨rfl, rfl⟩
theorem ld2CClr (qp : BitVec 6) (r1 : BitVec 7) (r3 : BitVec 7) (hint : BitVec 2) : Statement (.ld2CClr qp r1 r3 hint) := ⟨rfl, rfl⟩
theorem ld4CClr (qp : BitVec 6) (r1 : BitVec 7) (r3 : BitVec 7) (hint : BitVec 2) : Statement (.ld4CClr qp r1 r3 hint) := ⟨rfl, rfl⟩
theorem ld8CClr (qp : BitVec 6) (r1 : BitVec 7) (r3 : BitVec 7) (hint : BitVec 2) : Statement (.ld8CClr qp r1 r3 hint) := ⟨rfl, rfl⟩
theorem ld1CNc (qp : BitVec 6) (r1 : BitVec 7) (r3 : BitVec 7) (hint : BitVec 2) : Statement (.ld1CNc qp r1 r3 hint) := ⟨rfl, rfl⟩
theorem ld2CNc (qp : BitVec 6) (r1 : BitVec 7) (r3 : BitVec 7) (hint : BitVec 2) : Statement (.ld2CNc qp r1 r3 hint) := ⟨rfl, rfl⟩
theorem ld4CNc (qp : BitVec 6) (r1 : BitVec 7) (r3 : BitVec 7) (hint : BitVec 2) : Statement (.ld4CNc qp r1 r3 hint) := ⟨rfl, rfl⟩
theorem ld8CNc (qp : BitVec 6) (r1 : BitVec 7) (r3 : BitVec 7) (hint : BitVec 2) : Statement (.ld8CNc qp r1 r3 hint) := ⟨rfl, rfl⟩
theorem ld1CClrAcq (qp : BitVec 6) (r1 : BitVec 7) (r3 : BitVec 7) (hint : BitVec 2) : Statement (.ld1CClrAcq qp r1 r3 hint) := ⟨rfl, rfl⟩
theorem ld2CClrAcq (qp : BitVec 6) (r1 : BitVec 7) (r3 : BitVec 7) (hint : BitVec 2) : Statement (.ld2CClrAcq qp r1 r3 hint) := ⟨rfl, rfl⟩
theorem ld4CClrAcq (qp : BitVec 6) (r1 : BitVec 7) (r3 : BitVec 7) (hint : BitVec 2) : Statement (.ld4CClrAcq qp r1 r3 hint) := ⟨rfl, rfl⟩
theorem ld8CClrAcq (qp : BitVec 6) (r1 : BitVec 7) (r3 : BitVec 7) (hint : BitVec 2) : Statement (.ld8CClrAcq qp r1 r3 hint) := ⟨rfl, rfl⟩
theorem ld8Fill (qp : BitVec 6) (r1 : BitVec 7) (r3 : BitVec 7) (hint : BitVec 2) : Statement (.ld8Fill qp r1 r3 hint) := ⟨rfl, rfl⟩
theorem st1 (qp : BitVec 6) (r2 : BitVec 7) (r3 : BitVec 7) (hint : BitVec 2) : Statement (.st1 qp r2 r3 hint) := ⟨rfl, rfl⟩
theorem st2 (qp : BitVec 6) (r2 : BitVec 7) (r3 : BitVec 7) (hint : BitVec 2) : Statement (.st2 qp r2 r3 hint) := ⟨rfl, rfl⟩
theorem st4 (qp : BitVec 6) (r2 : BitVec 7) (r3 : BitVec 7) (hint : BitVec 2) : Statement (.st4 qp r2 r3 hint) := ⟨rfl, rfl⟩
theorem st8 (qp : BitVec 6) (r2 : BitVec 7) (r3 : BitVec 7) (hint : BitVec 2) : Statement (.st8 qp r2 r3 hint) := ⟨rfl, rfl⟩
theorem st1Rel (qp : BitVec 6) (r2 : BitVec 7) (r3 : BitVec 7) (hint : BitVec 2) : Statement (.st1Rel qp r2 r3 hint) := ⟨rfl, rfl⟩
theorem st2Rel (qp : BitVec 6) (r2 : BitVec 7) (r3 : BitVec 7) (hint : BitVec 2) : Statement (.st2Rel qp r2 r3 hint) := ⟨rfl, rfl⟩
theorem st4Rel (qp : BitVec 6) (r2 : BitVec 7) (r3 : BitVec 7) (hint : BitVec 2) : Statement (.st4Rel qp r2 r3 hint) := ⟨rfl, rfl⟩
theorem st8Rel (qp : BitVec 6) (r2 : BitVec 7) (r3 : BitVec 7) (hint : BitVec 2) : Statement (.st8Rel qp r2 r3 hint) := ⟨rfl, rfl⟩
theorem st8Spill (qp : BitVec 6) (r2 : BitVec 7) (r3 : BitVec 7) (hint : BitVec 2) : Statement (.st8Spill qp r2 r3 hint) := ⟨rfl, rfl⟩
theorem cmpxchg1Acq (qp : BitVec 6) (r1 : BitVec 7) (r2 : BitVec 7) (r3 : BitVec 7) (hint : BitVec 2) : Statement (.cmpxchg1Acq qp r1 r2 r3 hint) := ⟨rfl, rfl⟩
theorem cmpxchg2Acq (qp : BitVec 6) (r1 : BitVec 7) (r2 : BitVec 7) (r3 : BitVec 7) (hint : BitVec 2) : Statement (.cmpxchg2Acq qp r1 r2 r3 hint) := ⟨rfl, rfl⟩
theorem cmpxchg4Acq (qp : BitVec 6) (r1 : BitVec 7) (r2 : BitVec 7) (r3 : BitVec 7) (hint : BitVec 2) : Statement (.cmpxchg4Acq qp r1 r2 r3 hint) := ⟨rfl, rfl⟩
theorem cmpxchg8Acq (qp : BitVec 6) (r1 : BitVec 7) (r2 : BitVec 7) (r3 : BitVec 7) (hint : BitVec 2) : Statement (.cmpxchg8Acq qp r1 r2 r3 hint) := ⟨rfl, rfl⟩
theorem cmpxchg1Rel (qp : BitVec 6) (r1 : BitVec 7) (r2 : BitVec 7) (r3 : BitVec 7) (hint : BitVec 2) : Statement (.cmpxchg1Rel qp r1 r2 r3 hint) := ⟨rfl, rfl⟩
theorem cmpxchg2Rel (qp : BitVec 6) (r1 : BitVec 7) (r2 : BitVec 7) (r3 : BitVec 7) (hint : BitVec 2) : Statement (.cmpxchg2Rel qp r1 r2 r3 hint) := ⟨rfl, rfl⟩
theorem cmpxchg4Rel (qp : BitVec 6) (r1 : BitVec 7) (r2 : BitVec 7) (r3 : BitVec 7) (hint : BitVec 2) : Statement (.cmpxchg4Rel qp r1 r2 r3 hint) := ⟨rfl, rfl⟩
theorem cmpxchg8Rel (qp : BitVec 6) (r1 : BitVec 7) (r2 : BitVec 7) (r3 : BitVec 7) (hint : BitVec 2) : Statement (.cmpxchg8Rel qp r1 r2 r3 hint) := ⟨rfl, rfl⟩
theorem xchg1 (qp : BitVec 6) (r1 : BitVec 7) (r2 : BitVec 7) (r3 : BitVec 7) (hint : BitVec 2) : Statement (.xchg1 qp r1 r2 r3 hint) := ⟨rfl, rfl⟩
theorem xchg2 (qp : BitVec 6) (r1 : BitVec 7) (r2 : BitVec 7) (r3 : BitVec 7) (hint : BitVec 2) : Statement (.xchg2 qp r1 r2 r3 hint) := ⟨rfl, rfl⟩
theorem xchg4 (qp : BitVec 6) (r1 : BitVec 7) (r2 : BitVec 7) (r3 : BitVec 7) (hint : BitVec 2) : Statement (.xchg4 qp r1 r2 r3 hint) := ⟨rfl, rfl⟩
theorem xchg8 (qp : BitVec 6) (r1 : BitVec 7) (r2 : BitVec 7) (r3 : BitVec 7) (hint : BitVec 2) : Statement (.xchg8 qp r1 r2 r3 hint) := ⟨rfl, rfl⟩
theorem fetchadd4Acq (qp : BitVec 6) (r1 : BitVec 7) (inc : BitVec 3) (r3 : BitVec 7) (hint : BitVec 2) : Statement (.fetchadd4Acq qp r1 inc r3 hint) := ⟨rfl, rfl⟩
theorem fetchadd8Acq (qp : BitVec 6) (r1 : BitVec 7) (inc : BitVec 3) (r3 : BitVec 7) (hint : BitVec 2) : Statement (.fetchadd8Acq qp r1 inc r3 hint) := ⟨rfl, rfl⟩
theorem fetchadd4Rel (qp : BitVec 6) (r1 : BitVec 7) (inc : BitVec 3) (r3 : BitVec 7) (hint : BitVec 2) : Statement (.fetchadd4Rel qp r1 inc r3 hint) := ⟨rfl, rfl⟩
theorem fetchadd8Rel (qp : BitVec 6) (r1 : BitVec 7) (inc : BitVec 3) (r3 : BitVec 7) (hint : BitVec 2) : Statement (.fetchadd8Rel qp r1 inc r3 hint) := ⟨rfl, rfl⟩
theorem cmp8xchg16Acq (qp : BitVec 6) (r1 : BitVec 7) (r2 : BitVec 7) (r3 : BitVec 7) (hint : BitVec 2) : Statement (.cmp8xchg16Acq qp r1 r2 r3 hint) := ⟨rfl, rfl⟩
theorem cmp8xchg16Rel (qp : BitVec 6) (r1 : BitVec 7) (r2 : BitVec 7) (r3 : BitVec 7) (hint : BitVec 2) : Statement (.cmp8xchg16Rel qp r1 r2 r3 hint) := ⟨rfl, rfl⟩
theorem ld16 (qp : BitVec 6) (r1 : BitVec 7) (r3 : BitVec 7) (hint : BitVec 2) : Statement (.ld16 qp r1 r3 hint) := ⟨rfl, rfl⟩
theorem ld16Acq (qp : BitVec 6) (r1 : BitVec 7) (r3 : BitVec 7) (hint : BitVec 2) : Statement (.ld16Acq qp r1 r3 hint) := ⟨rfl, rfl⟩
theorem st16 (qp : BitVec 6) (r2 : BitVec 7) (r3 : BitVec 7) (hint : BitVec 2) : Statement (.st16 qp r2 r3 hint) := ⟨rfl, rfl⟩
theorem st16Rel (qp : BitVec 6) (r2 : BitVec 7) (r3 : BitVec 7) (hint : BitVec 2) : Statement (.st16Rel qp r2 r3 hint) := ⟨rfl, rfl⟩
theorem lfetch (qp : BitVec 6) (r3 : BitVec 7) (hint : BitVec 2) : Statement (.lfetch qp r3 hint) := ⟨rfl, rfl⟩
theorem lfetchExcl (qp : BitVec 6) (r3 : BitVec 7) (hint : BitVec 2) : Statement (.lfetchExcl qp r3 hint) := ⟨rfl, rfl⟩
theorem lfetchFault (qp : BitVec 6) (r3 : BitVec 7) (hint : BitVec 2) : Statement (.lfetchFault qp r3 hint) := ⟨rfl, rfl⟩
theorem lfetchFaultExcl (qp : BitVec 6) (r3 : BitVec 7) (hint : BitVec 2) : Statement (.lfetchFaultExcl qp r3 hint) := ⟨rfl, rfl⟩
theorem ldfe (qp : BitVec 6) (f1 : BitVec 7) (r3 : BitVec 7) (hint : BitVec 2) : Statement (.ldfe qp f1 r3 hint) := ⟨rfl, rfl⟩
theorem stfe (qp : BitVec 6) (f2 : BitVec 7) (r3 : BitVec 7) (hint : BitVec 2) : Statement (.stfe qp f2 r3 hint) := ⟨rfl, rfl⟩
theorem ldfs (qp : BitVec 6) (f1 : BitVec 7) (r3 : BitVec 7) (hint : BitVec 2) : Statement (.ldfs qp f1 r3 hint) := ⟨rfl, rfl⟩
theorem ldfd (qp : BitVec 6) (f1 : BitVec 7) (r3 : BitVec 7) (hint : BitVec 2) : Statement (.ldfd qp f1 r3 hint) := ⟨rfl, rfl⟩
theorem ldf8 (qp : BitVec 6) (f1 : BitVec 7) (r3 : BitVec 7) (hint : BitVec 2) : Statement (.ldf8 qp f1 r3 hint) := ⟨rfl, rfl⟩
theorem ldfFill (qp : BitVec 6) (f1 : BitVec 7) (r3 : BitVec 7) (hint : BitVec 2) : Statement (.ldfFill qp f1 r3 hint) := ⟨rfl, rfl⟩
theorem ldfp (qp : BitVec 6) (fmt : PairFmt) (flav : FpFlavour) (f1 : BitVec 7) (f2 : BitVec 7) (r3 : BitVec 7) (hint : BitVec 2) : Statement (.ldfp qp fmt flav f1 f2 r3 hint) := ⟨rfl, rfl⟩
theorem stfs (qp : BitVec 6) (f2 : BitVec 7) (r3 : BitVec 7) (hint : BitVec 2) : Statement (.stfs qp f2 r3 hint) := ⟨rfl, rfl⟩
theorem stfd (qp : BitVec 6) (f2 : BitVec 7) (r3 : BitVec 7) (hint : BitVec 2) : Statement (.stfd qp f2 r3 hint) := ⟨rfl, rfl⟩
theorem stf8 (qp : BitVec 6) (f2 : BitVec 7) (r3 : BitVec 7) (hint : BitVec 2) : Statement (.stf8 qp f2 r3 hint) := ⟨rfl, rfl⟩
theorem stfSpill (qp : BitVec 6) (f2 : BitVec 7) (r3 : BitVec 7) (hint : BitVec 2) : Statement (.stfSpill qp f2 r3 hint) := ⟨rfl, rfl⟩
theorem ldfFlav (qp : BitVec 6) (fmt : FpFmt) (flav : FpSpec) (f1 : BitVec 7) (r3 : BitVec 7) (hint : BitVec 2) : Statement (.ldfFlav qp fmt flav f1 r3 hint) := ⟨rfl, rfl⟩
theorem memUpd (qp : BitVec 6) (op : UpdOp) (r3 : BitVec 7) (upd : Upd) (hint : BitVec 2) : Statement (.memUpd qp op r3 upd hint) := by
  cases upd with
  | imm i => cases op <;> exact ⟨rfl, rfl⟩
  | _ => exact ⟨rfl, rfl⟩
theorem breakFX (qp : BitVec 6) (form : BreakForm) : Statement (.breakFX qp form) := by cases form <;> exact ⟨rfl, rfl⟩
theorem movI (qp : BitVec 6) (form : MovIForm) : Statement (.movI qp form) := by cases form <;> exact ⟨rfl, rfl⟩
theorem brRel (form : BrRelForm) : Statement (.brRel form) := by
  cases form with
  | brp w =>
    constructor <;> apply BitVec.eq_of_getLsbD_eq <;> intro k hk
    · simp only [encodeRaw, Raw.ofWord, majorOpcode, BitVec.getLsbD_extractLsb', BitVec.getLsbD_append, hk, decide_true,
        Bool.true_and, show ¬ 37 + k < 37 by omega, if_false, Nat.add_sub_cancel_left]
      rfl
    · simp only [encodeRaw, Raw.ofWord, qpField, BitVec.getLsbD_extractLsb', BitVec.getLsbD_append, hk, decide_true,
        Bool.true_and, show 0 + k < 37 by omega, if_true]
  | _ => exact ⟨rfl, rfl⟩
theorem addp4 (qp : BitVec 6) (r1 : BitVec 7) (r2 : BitVec 7) (r3 : BitVec 7) : Statement (.addp4 qp r1 r2 r3) := ⟨rfl, rfl⟩
theorem shladdp4 (qp : BitVec 6) (r1 : BitVec 7) (r2 : BitVec 7) (ct2d : BitVec 2) (r3 : BitVec 7) : Statement (.shladdp4 qp r1 r2 ct2d r3) := ⟨rfl, rfl⟩
theorem addp4Imm (qp : BitVec 6) (r1 : BitVec 7) (imm : BitVec 14) (r3 : BitVec 7) : Statement (.addp4Imm qp r1 imm r3) := ⟨rfl, rfl⟩

end Sys2Proof.Laws.Header
end

