-- ==== Sys2Proof/Tests/Slice0.lean ====
section
/-!
SUPPORT. Tests: ill-formed terms, words written out from 95_test_vectors.md and the encoding tables, single instructions with
the results of 95_test_vectors.md §2 (or by hand from the rule named), and for each claim a state that meets its hypotheses.
-/
namespace Sys2Proof.Tests
set_option Elab.async false
open Sys2Proof Sys2Proof.Machine

/-! Ill-formed terms: the one check there is, on each operation it refuses. -/

theorem test_wf_store_reg : (Instr.memUpd 0 (.store 3 false 2) 3 (.reg 4) 0).wf = false := by decide
theorem test_wf_spill_reg : (Instr.memUpd 0 (.spill 2) 3 (.reg 4) 0).wf = false := by decide
theorem test_wf_fpStore_reg : (Instr.memUpd 0 (.fpStore .double 2) 3 (.reg 4) 0).wf = false := by decide
theorem test_wf_fpSpill_reg : (Instr.memUpd 0 (.fpSpill 2) 3 (.reg 4) 0).wf = false := by decide
theorem test_wf_pair_reg : (Instr.memUpd 0 (.fpPair .double .plain 8 9) 3 (.reg 4) 0).wf = false := by decide
theorem test_wf_pair_imm : (Instr.memUpd 0 (.fpPair .double .plain 8 9) 3 (.imm 8) 0).wf = false := by decide
theorem test_wf_load_size : (Instr.memUpd 0 (.load 3 .plain 2) 3 .size 0).wf = false := by decide
theorem test_wf_load_reg : (Instr.memUpd 0 (.load 3 .plain 2) 3 (.reg 4) 0).wf = true := by decide

/-! Words of 95_test_vectors.md §2.1 to §2.4 and of 30_encoding.md R316. -/

theorem test_decode_sum : decodeSlot .m 0 0x00020000280 = .ok (.sum 0 0x0A) := by decide +kernel
theorem test_decode_rum : decodeSlot .m 0 0x00028000F80 = .ok (.rum 0 0x3E) := by decide +kernel
theorem test_decode_ssm : decodeSlot .m 0 0x00030180000 = .ok (.ssm 0 0x6000) := by decide +kernel
theorem test_decode_rsm : decodeSlot .m 0 0x00038180000 = .ok (.rsm 0 0x6000) := by decide +kernel
theorem test_decode_movToPsrL : decodeSlot .m 0 0x02168004000 = .ok (.movToPsrL 0 2) := by decide +kernel
theorem test_decode_movToUm : decodeSlot .m 0 0x02148004000 = .ok (.movToUm 0 2) := by decide +kernel
theorem test_decode_movFromUm : decodeSlot .m 0 0x02108000040 = .ok (.movFromUm 0 1) := by decide +kernel
theorem test_decode_movFromPsr : decodeSlot .m 0 0x02128000180 = .ok (.movFromPsr 0 6) := by decide +kernel
theorem test_decode_bsw0 : decodeSlot .b 0 0x00060000000 = .ok (.bsw0) := by decide +kernel
theorem test_decode_bsw1 : decodeSlot .b 0 0x00068000000 = .ok (.bsw1) := by decide +kernel
theorem test_decode_rfi : decodeSlot .b 0 0x00040000000 = .ok (.rfi) := by decide +kernel
theorem test_decode_vmsw0 : decodeSlot .b 0 0x000C0000000 = .ok (.vmsw0) := by decide +kernel
theorem test_decode_vmsw1 : decodeSlot .b 0 0x000C8000000 = .ok (.vmsw1) := by decide +kernel
theorem test_decode_movToCr : decodeSlot .m 0 0x02161304000 = .ok (.movToCr 0 19 2) := by decide +kernel
theorem test_decode_movFromCr : decodeSlot .m 0 0x02124100040 = .ok (.movFromCr 0 1 65) := by decide +kernel
theorem test_decode_movFromAr : decodeSlot .m 0 0x02112C00040 = .ok (.movFromAr 0 1 44) := by decide +kernel
theorem test_decode_movToAr : decodeSlot .m 0 0x02152C04000 = .ok (.movToAr 0 44 2) := by decide +kernel
theorem test_decode_srlzI : decodeSlot .m 0 0x00188000000 = .ok (.srlzI 0) := by decide +kernel
theorem test_decode_srlzD : decodeSlot .m 0 0x00180000000 = .ok (.srlzD 0) := by decide +kernel
theorem test_decode_cover : decodeSlot .b 0 0x00010000000 = .ok (.cover) := by decide +kernel
theorem test_decode_epc : decodeSlot .b 0 0x00080000000 = .ok (.epc) := by decide +kernel
theorem test_decode_breakM : decodeSlot .m 0 0x01000000000 = .ok (.breakM 0 0x100000) := by decide +kernel
theorem test_decode_breakM2 : decodeSlot .m 0 0x00000048D00 = .ok (.breakM 0 0x1234) := by decide +kernel
theorem test_decode_movToRr : decodeSlot .m 0 0x02000304000 = .ok (.movToRr 0 3 2) := by decide +kernel
theorem test_decode_movFromRr : decodeSlot .m 0 0x02080300040 = .ok (.movFromRr 0 1 3) := by decide +kernel
theorem test_decode_movToPkr : decodeSlot .m 0 0x02018304000 = .ok (.movToPkr 0 3 2) := by decide +kernel
theorem test_decode_movFromPkr : decodeSlot .m 0 0x02098300040 = .ok (.movFromPkr 0 1 3) := by decide +kernel
theorem test_decode_itcI : decodeSlot .m 0 0x02178004000 = .ok (.itcI 0 2) := by decide +kernel
theorem test_decode_itcD : decodeSlot .m 0 0x02170004000 = .ok (.itcD 0 2) := by decide +kernel
theorem test_decode_itrI : decodeSlot .m 0 0x02078304000 = .ok (.itrI 0 3 2) := by decide +kernel
theorem test_decode_itrD : decodeSlot .m 0 0x02070304000 = .ok (.itrD 0 3 2) := by decide +kernel
theorem test_decode_ptcL : decodeSlot .m 0 0x02048304000 = .ok (.ptcL 0 3 2) := by decide +kernel
theorem test_decode_ptcG : decodeSlot .m 0 0x02050304000 = .ok (.ptcG 0 3 2) := by decide +kernel
theorem test_decode_ptcGa : decodeSlot .m 0 0x02058304000 = .ok (.ptcGa 0 3 2) := by decide +kernel
theorem test_decode_ptcE : decodeSlot .m 0 0x021A0300000 = .ok (.ptcE 0 3) := by decide +kernel
theorem test_decode_ptrD : decodeSlot .m 0 0x02060304000 = .ok (.ptrD 0 3 2) := by decide +kernel
theorem test_decode_ptrI : decodeSlot .m 0 0x02068304000 = .ok (.ptrI 0 3 2) := by decide +kernel
theorem test_decode_thash : decodeSlot .m 0 0x020D0300040 = .ok (.thash 0 1 3) := by decide +kernel
theorem test_decode_ttag : decodeSlot .m 0 0x020D8300040 = .ok (.ttag 0 1 3) := by decide +kernel
theorem test_decode_tpa : decodeSlot .m 0 0x020F0300040 = .ok (.tpa 0 1 3) := by decide +kernel
theorem test_decode_tak : decodeSlot .m 0 0x020F8300040 = .ok (.tak 0 1 3) := by decide +kernel
theorem test_decode_probeR : decodeSlot .m 0 0x021C0304040 = .ok (.probeR 0 1 3 2) := by decide +kernel
theorem test_decode_probeW : decodeSlot .m 0 0x021C8304040 = .ok (.probeW 0 1 3 2) := by decide +kernel
theorem test_decode_probeWImm : decodeSlot .m 0 0x020C8306040 = .ok (.probeWImm 0 1 3 3) := by decide +kernel
theorem test_decode_probeRwFault : decodeSlot .m 0 0x02188306000 = .ok (.probeRwFault 0 3 3) := by decide +kernel
theorem test_decode_ld8 : decodeSlot .m 0 0x080C0300040 = .ok (.ld8 0 1 3 0) := by decide +kernel
theorem test_decode_ld2 : decodeSlot .m 0 0x08040300040 = .ok (.ld2 0 1 3 0) := by decide +kernel
theorem test_decode_ld8S : decodeSlot .m 0 0x081C0300040 = .ok (.ld8S 0 1 3 0) := by decide +kernel
theorem test_decode_ld8A : decodeSlot .m 0 0x082C0300040 = .ok (.ld8A 0 1 3 0) := by decide +kernel
theorem test_decode_ld8Acq : decodeSlot .m 0 0x085C0300040 = .ok (.ld8Acq 0 1 3 0) := by decide +kernel
theorem test_decode_ld8Fill : decodeSlot .m 0 0x086C0300040 = .ok (.ld8Fill 0 1 3 0) := by decide +kernel
theorem test_decode_st4 : decodeSlot .m 0 0x08C80304000 = .ok (.st4 0 2 3 0) := by decide +kernel
theorem test_decode_st8Rel : decodeSlot .m 0 0x08DC0304000 = .ok (.st8Rel 0 2 3 0) := by decide +kernel
theorem test_decode_st8Spill : decodeSlot .m 0 0x08EC0304000 = .ok (.st8Spill 0 2 3 0) := by decide +kernel
theorem test_decode_cmpxchg8Acq : decodeSlot .m 0 0x080C8304040 = .ok (.cmpxchg8Acq 0 1 2 3 0) := by decide +kernel
theorem test_decode_xchg8 : decodeSlot .m 0 0x082C8304040 = .ok (.xchg8 0 1 2 3 0) := by decide +kernel
theorem test_decode_fetchadd4Acq : decodeSlot .m 0 0x08488306040 = .ok (.fetchadd4Acq 0 1 3 3 0) := by decide +kernel
theorem test_decode_fetchadd8Rel : decodeSlot .m 0 0x085C830E040 = .ok (.fetchadd8Rel 0 1 7 3 0) := by decide +kernel
theorem test_decode_mf : decodeSlot .m 0 0x00110000000 = .ok (.mf 0) := by decide +kernel
theorem test_decode_mfA : decodeSlot .m 0 0x00118000000 = .ok (.mfA 0) := by decide +kernel
theorem test_decode_fwb : decodeSlot .m 0 0x00100000000 = .ok (.fwb 0) := by decide +kernel
theorem test_decode_syncI : decodeSlot .m 0 0x00198000000 = .ok (.syncI 0) := by decide +kernel
theorem test_decode_fc : decodeSlot .m 0 0x02180300000 = .ok (.fc 0 3) := by decide +kernel
theorem test_decode_fcI : decodeSlot .m 0 0x03180300000 = .ok (.fcI 0 3) := by decide +kernel
theorem test_decode_addp4 : decodeSlot .m 0 0x10040304040 = .ok (.addp4 0 1 2 3) := by decide +kernel
theorem test_decode_shladdp4 : decodeSlot .m 0 0x100D0304040 = .ok (.shladdp4 0 1 2 2 3) := by decide +kernel
theorem test_decode_nopM : decodeSlot .m 0 0x00008000000 = .ok (.nopM 0 0) := by decide +kernel
theorem test_decode_nopB : decodeSlot .b 0 0x04000000000 = .ok (.nopB 0 0) := by decide +kernel
theorem test_decode_nopI : decodeSlot .i 0 0x00008000000 = .ok (.nopI 0 0) := by decide +kernel

/-! Words written out by hand: the format and its fields. -/

/-- B4, x6 = 0x20, b2 = 6 (R311) -/
theorem test_decode_brCond : decodeSlot .b 0 0x0010000C000 = .ok (.brCond 0 6 0 0 0) := by decide +kernel
/-- B4, x6 = 0x21, btype = 4 (R311) -/
theorem test_decode_brRet : decodeSlot .b 0 0x00108000100 = .ok (.brRet 0 0 0 0 0) := by decide +kernel
/-- B1, opcode 4, imm20b = 2 (log entry 14) -/
theorem test_decode_brRel : decodeSlot .b 0 0x08000004000 = .ok (.brRel (.cond 0 2 0 0 0)) := by decide +kernel
/-- M13, opcode 6, x6 = 0x2C (R312) -/
theorem test_decode_lfetch : decodeSlot .m 0 0x0CB00300000 = .ok (.lfetch 0 3 0) := by decide +kernel
/-- M6, opcode 6, x6 = 3, f1 = 8 (R312) -/
theorem test_decode_ldfd : decodeSlot .m 0 0x0C0C0300200 = .ok (.ldfd 0 8 3 0) := by decide +kernel
/-- M9, opcode 6, x6 = 0x33, f2 = 8 (R312) -/
theorem test_decode_stfd : decodeSlot .m 0 0x0CCC0310000 = .ok (.stfd 0 8 3 0) := by decide +kernel
/-- M24, x4 = 0, x2 = 1 (R308) -/
theorem test_decode_invala : decodeSlot .m 0 0x00080000000 = .ok (.invala 0) := by decide +kernel
/-- M22, x3 = 4 (R308) -/
theorem test_decode_chkANcR : decodeSlot .m 0 0x00800000040 = .ok (.chkANcR 0 1 0) := by decide +kernel
/-- M2, opcode 4, m = 1 (R312) -/
theorem test_decode_memUpd_reg : decodeSlot .m 0 0x090C0304040 = .ok (.memUpd 0 (.load 3 .plain 1) 3 (.reg 2) 0) := by decide +kernel
/-- M3, opcode 5, imm7b = 8 (log entry 14) -/
theorem test_decode_memUpd_imm : decodeSlot .m 0 0x0A0C0310040 = .ok (.memUpd 0 (.load 3 .plain 1) 3 (.imm 8) 0) := by decide +kernel
/-- I26, x6 = 0x2A, ar3 = 64 (log entry 14) -/
theorem test_decode_movI : decodeSlot .i 0 0x00154004000 = .ok (.movI 0 (.toAr 64 2)) := by decide +kernel
/-- I19, x6 = 0 (R316) -/
theorem test_decode_breakI : decodeSlot .i 0 0x00000000140 = .ok (.breakI 0 5) := by decide +kernel
/-- A reserved encoding is refused by name: M unit, opcode 1, x3 = 2 (30_encoding.md R315). -/
theorem test_decode_reserved : decodeSlot .m 0 0x02400000000 = .error .reserved := by decide +kernel
/-- The slot under the template it stands in: MIB with a stop, the branch in slot 2 (R303, R304). -/
theorem test_bundle : ((decodeBundleSlot (BitVec.ofNat 128 (bundleWith 0x11 2 0x00040000000)) 2).map fun i =>
    decide (i.result = .ok .rfi) && i.stop) = some true := by decide +kernel


/-! Single instructions. -/

/-- After reset, at 0x1000, with a PSR and some general (by place), control and application registers. -/
def st (psr : Word) (gr : List (Nat × Word)) (cr : List (Nat × Word) := []) (ar : List (Nat × Word) := []) : State :=
  { State.reset with
    ip := 0x1000
    gr := gr.foldl (fun v p => wr v p.1 { val := p.2, nat := false }) State.reset.gr
    ar := ar.foldl (fun v p => wr v p.1 p.2) State.reset.ar
    sys := { Sys.reset with psr := psr, cr := cr.foldl (fun v p => wr v p.1 p.2) Sys.reset.cr } }

/-- Change the system registers. -/
def onSys (s : State) (f : Sys → Sys) : State := { s with sys := f s.sys }
/-- Set the NaT bit of a register. -/
def withNat (s : State) (r : Nat) : State := { s with gr := wr s.gr r { val := 0, nat := true } }
/-- Little-endian bytes in memory. -/
def withMem (s : State) (a n v : Nat) : State := { s with mem := writeList s.mem a (valBytes false n v) }
/-- A read/write page of region 1 with region identifier 0x55, at privilege level 0. -/
def page (base : BitVec 61) (ps : BitVec 6) : TlbEntry :=
  { rid := 0x55, vrn := 1, base := base, ps := ps, p := true, ma := 0, a := true, d := true, pl := 0, ar := 2, ppn := 0
    ed := false, key := 0 }
/-- A state with a page in the data translation cache, RR1 = 0x5530 and IVA = 0x100000. -/
def pagedAs (psr : Word) (gr : List (Nat × Word)) (e : TlbEntry) : State :=
  onSys (st psr gr [(2, 0x100000)]) fun y => { y with rr := wr y.rr 1 0x5530, dtcTlb := [e] }
/-- The same with a 16K page at offset 0x10000. -/
def paged (psr : Word) (gr : List (Nat × Word)) : State := pagedAs psr gr (page 0x10000 14)
/-- The fetch context of a promotion page of level 0. -/
def promotion : Ctx := { Ctx.none with translated := true, ar := 7, pl := 0 }
/-- The outcome is a next state of which this holds. -/
def ends (o : Out) (p : State → Bool) : Bool :=
  match o with
  | .next t => p t
  | _ => false
/-- At a vector of the table at 0x100000 (or at 0), with this code in ISR{15:0}. -/
def entered (off : Word) (code : BitVec 16) (t : State) : Bool :=
  decide (t.ip &&& 0xFFFF = off) && decide ((t.sys.getCr 17).extractLsb' 0 16 = code)

/-- 95 §2.1 vector 1 -/
theorem test_sum :
    ends (exec (.sum 0 0x0A) ((st 0 [] [(2, 0x100000)])))
      (fun t => t.sys.psr = 0x0A) = true := by
  decide +kernel
/-- 95 §2.1 vector 4 -/
theorem test_sum_reserved :
    ends (exec (.sum 0 0x40) ((st 0 [] [(2, 0x100000)])))
      (entered 0x5400 0x30) = true := by
  decide +kernel
/-- 95 §2.1 vector 2 -/
theorem test_rum :
    ends (exec (.rum 0 0x3E) ((st 0x10003E [] [(2, 0x100000)])))
      (fun t => t.sys.psr = 0x100004) = true := by
  decide +kernel
/-- 95 §2.1 vector 6 -/
theorem test_movToUm :
    ends (exec (.movToUm 0 4) ((st 0 [(4, 2)] [(2, 0x100000)])))
      (fun t => t.sys.psr = 2) = true := by
  decide +kernel
/-- 95 §2.1 vector 7 -/
theorem test_movToUm_reserved :
    ends (exec (.movToUm 0 4) ((st 0 [(4, 0x42)] [(2, 0x100000)])))
      (entered 0x5400 0x30) = true := by
  decide +kernel
/-- 95 §2.1 vector 9 -/
theorem test_movFromUm :
    ends (exec (.movFromUm 0 1) ((st 0x18 [] [(2, 0x100000)])))
      (fun t => t.val 1 = 0x18) = true := by
  decide +kernel
/-- 95 §2.1 vector 10 -/
theorem test_ssm :
    ends (exec (.ssm 0 0x6000) ((st 0 [] [(2, 0x100000)])))
      (fun t => t.sys.psr = 0x6000) = true := by
  decide +kernel
/-- 95 §2.1 vector 12 -/
theorem test_ssm_priv :
    ends (exec (.ssm 0 0x10000) ((st 0x300000000 [] [(2, 0x100000)])))
      (entered 0x5400 0x10) = true := by
  decide +kernel
/-- 95 §2.1 vector 14 -/
theorem test_rsm :
    ends (exec (.rsm 0 0x6000) ((st 0x6000 [] [(2, 0x100000)])))
      (fun t => t.sys.psr = 0) = true := by
  decide +kernel
/-- 95 §2.1 vector 17 -/
theorem test_movToPsrL :
    ends (exec (.movToPsrL 0 3) ((st 0x100000000000 [(3, 0xFFFFFFFF00026000)] [(2, 0x100000)])))
      (fun t => t.sys.psr = 0x100000026000) = true := by
  decide +kernel
/-- 95 §2.1 vector 16 -/
theorem test_movToPsrL_reserved :
    ends (exec (.movToPsrL 0 3) ((st 0 [(3, 0x18026000)] [(2, 0x100000)])))
      (entered 0x5400 0x30) = true := by
  decide +kernel
/-- 95 §2.1 vector 18 -/
theorem test_movFromPsr :
    ends (exec (.movFromPsr 0 1) ((st 0x141008026000 [] [(2, 0x100000)])))
      (fun t => t.val 1 = 0x1008026000) = true := by
  decide +kernel
/-- 95 §2.1 vector 19 -/
theorem test_movFromPsr_priv :
    ends (exec (.movFromPsr 0 1) ((st 0x100000000 [] [(2, 0x100000)])))
      (entered 0x5400 0x10) = true := by
  decide +kernel
/-- 95 §2.1 vector 20 -/
theorem test_bsw0 :
    ends (exec (.bsw0) ((st 0x100000000000 [(128, 5), (16, 9)] [(2, 0x100000)])))
      (fun t => t.val 16 = 5 ∧ t.psrNow Psr.bn = false) = true := by
  decide +kernel
/-- 95 §2.1 vector 21 -/
theorem test_bsw1 :
    ends (exec (.bsw1) ((st 0 [(128, 5), (16, 9)] [(2, 0x100000)])))
      (fun t => t.val 16 = 9 ∧ t.psrNow Psr.bn = true) = true := by
  decide +kernel
/-- 95 §2.1 vector 24 -/
theorem test_rfi :
    ends (exec (.rfi) ((st 0x8000000 [] [(16, 0x141008026000), (19, 0xA00000000001234F)])))
      (fun t => t.sys.psr = 0x141008026000 ∧ t.ip = 0xA000000000012340 ∧ t.slot = 2 ∧ t.cfm = 0) = true := by
  decide +kernel
/-- 95 §2.1 vector 26 -/
theorem test_rfi_frame :
    ends (exec (.rfi) ((st 0x8000000 [] [(16, 0x101008026000), (19, 0xA000000000012340), (23, 0x8000000000000389)])))
      (fun t => t.cfm = 0x389) = true := by
  decide +kernel
/-- 95 §2.2 vector 1 -/
theorem test_movToCr :
    ends (exec (.movToCr 0 19 5) ((st 0 [(5, 0xA000000000012345)] [(2, 0x100000)])))
      (fun t => t.sys.getCr 19 = 0xA000000000012345) = true := by
  decide +kernel
/-- 95 §2.2 vector 7 -/
theorem test_movToCr_iva :
    ends (exec (.movToCr 0 2 4) ((st 0 [(4, 0x107FFF)] [(2, 0x100000)])))
      (fun t => t.sys.getCr 2 = 0x100000) = true := by
  decide +kernel
/-- 95 §2.2 vector 3 -/
theorem test_movFromCr :
    ends (exec (.movFromCr 0 1 20) ((st 0x2000 [] [(2, 0x100000)])))
      (entered 0x5400 0) = true := by
  decide +kernel
/-- 95 §2.2 vector 8, the read -/
theorem test_movFromCr_iha :
    ends (exec (.movFromCr 0 7 25) ((st 0 [] [(25, 0x2000000080000090)])))
      (fun t => t.val 7 = 0x2000000080000090) = true := by
  decide +kernel
/-- 95 §2.2 vector 13 -/
theorem test_movFromAr_itc :
    ends (exec (.movFromAr 0 2 44) ((st 0x300800000 [] [(2, 0x100000)])))
      (entered 0x5400 0x20) = true := by
  decide +kernel
/-- 41 R373 -/
theorem test_movFromAr :
    ends (exec (.movFromAr 0 2 32) ((st 0 [] [(2, 0x100000)] [(32, 7)])))
      (fun t => t.val 2 = 7) = true := by
  decide +kernel
/-- 95 §2.2 vector 14 -/
theorem test_movToAr_itc :
    ends (exec (.movToAr 0 44 2) ((st 0x300000000 [] [(2, 0x100000)])))
      (entered 0x5400 0x20) = true := by
  decide +kernel
/-- 41 R373 -/
theorem test_movToAr :
    ends (exec (.movToAr 0 32 2) ((st 0 [(2, 9)] [(2, 0x100000)])))
      (fun t => t.getAr 32 = 9) = true := by
  decide +kernel
/-- 41 R363, the sign-extended immediate -/
theorem test_movArImm :
    ends (exec (.movArImm 0 32 0xFF) ((st 0 [] [(2, 0x100000)])))
      (fun t => t.getAr 32 = 0xFFFFFFFFFFFFFFFF) = true := by
  decide +kernel
/-- 41 R373 -/
theorem test_movI :
    ends (exec (.movI 0 (.fromAr 2 32)) ((st 0 [] [(2, 0x100000)] [(32, 7)])))
      (fun t => t.val 2 = 7) = true := by
  decide +kernel
/-- 95 §2.2 vector 16 -/
theorem test_cover :
    ends (exec (.cover) ({ (st 0 [] [(2, 0x100000)]) with cfm := 0x389 }))
      (fun t => t.sys.getCr 23 = 0x8000000000000389 ∧ t.cfm = 0) = true := by
  decide +kernel
/-- 95 §2.2 vector 17 -/
theorem test_cover_ic :
    ends (exec (.cover) ({ (st 0x2000 [] [(2, 0x100000)]) with cfm := 0x389 }))
      (fun t => t.sys.getCr 23 = 0 ∧ t.cfm = 0) = true := by
  decide +kernel
/-- log entry 13 -/
theorem test_clrrrb :
    ends (exec (.clrrrb) ({ (st 0 [] [(2, 0x100000)]) with cfm := 0x3FFFFFFFFF }))
      (fun t => t.cfm = 0x3FFFF) = true := by
  decide +kernel
/-- log entry 13 -/
theorem test_clrrrbPr :
    ends (exec (.clrrrbPr) ({ (st 0 [] [(2, 0x100000)]) with cfm := 0x3FFFFFFFFF }))
      (fun t => t.cfm = 0xFFFFFFFF) = true := by
  decide +kernel
/-- 95 §2.2 vector 18 -/
theorem test_epc :
    ends (exec (.epc) ({ (st 0x1300000000 [] [(2, 0x100000)] [(64, 0xC000000000000000)]) with ctx := promotion }))
      (fun t => psrCpl t.sys.psr = 0) = true := by
  decide +kernel
/-- 95 §2.2 vector 19 -/
theorem test_epc_other :
    ends (exec (.epc) ({ (st 0x1300000000 [] [(2, 0x100000)] [(64, 0xC000000000000000)]) with ctx := { promotion with ar := 3, pl := 3 } }))
      (fun t => psrCpl t.sys.psr = 3) = true := by
  decide +kernel
/-- 95 §2.2 vector 20 -/
theorem test_breakM :
    ends (exec (.breakM 0 0x100000) ({ (st 0x2000 [] [(2, 0x100000)]) with slot := 1 }))
      (fun t => t.sys.getCr 24 = 0x100000 ∧ t.sys.getCr 19 = 0x1000 ∧ t.sys.getCr 16 = 0x20000002000 ∧ t.sys.getCr 17 = 0x20000000000 ∧ t.ip = 0x102C00) = true := by
  decide +kernel
/-- 95 §2.2 vector 21 -/
theorem test_breakM_ic0 :
    ends (exec (.breakM 0 5) ((st 0 [] [(2, 0x100000)])))
      (fun t => t.sys.getCr 17 = 0x8000000000 ∧ t.sys.getCr 24 = 0 ∧ t.sys.getCr 19 = 0 ∧ t.ip = 0x102C00) = true := by
  decide +kernel
/-- 60 R496 -/
theorem test_breakB :
    ends (exec (.breakB 0 7) ((st 0x2000 [] [(2, 0x100000), (24, 3)])))
      (fun t => t.sys.getCr 24 = 0) = true := by
  decide +kernel
/-- 41 R377 -/
theorem test_breakI :
    ends (exec (.breakI 0 7) ((st 0x2000 [] [(2, 0x100000)])))
      (fun t => t.sys.getCr 24 = 7) = true := by
  decide +kernel
/-- 41 R377, the 62-bit immediate -/
theorem test_breakFX :
    ends (exec (.breakFX 0 (.x 0x3FFFFFFFFFFFFFFF)) ((st 0x2000 [] [(2, 0x100000)])))
      (fun t => t.sys.getCr 24 = 0x3FFFFFFFFFFFFFFF) = true := by
  decide +kernel
/-- 95 §2.2 vector 22 -/
theorem test_movFromCpuid :
    ends (exec (.movFromCpuid 0 1 4) ((st 0x300000000 [] [(2, 0x100000)])))
      (fun t => t.nat 1 = false) = true := by
  decide +kernel
/-- 95 §2.3 vector 5 -/
theorem test_movToRr :
    ends (exec (.movToRr 0 3 2) ((st 0 [(2, 0x5531), (3, 0x2000000012345678)] [(2, 0x100000)])))
      (fun t => rd t.sys.rr 1 0 = 0x5531) = true := by
  decide +kernel
/-- 95 §2.3 vector 4 -/
theorem test_movToRr_reserved :
    ends (exec (.movToRr 0 3 2) ((st 0 [(2, 0x5533), (3, 0x2000000000000000)] [(2, 0x100000)])))
      (entered 0x5400 0x30) = true := by
  decide +kernel
/-- 95 §2.3 vector 6 -/
theorem test_movFromRr :
    ends (exec (.movFromRr 0 4 3) ((paged 0 [(3, 0x2000000000000000)])))
      (fun t => t.val 4 = 0x5530) = true := by
  decide +kernel
/-- 95 §2.3 vector 7 -/
theorem test_movFromRr_priv :
    ends (exec (.movFromRr 0 4 3) ((st 0x300000000 [] [(2, 0x100000)])))
      (entered 0x5400 0x10) = true := by
  decide +kernel
/-- 95 §2.3 vector 8 -/
theorem test_movToPkr :
    ends (exec (.movToPkr 0 3 2) ((onSys (st 0 [(2, 0x7703), (3, 5)] [(2, 0x100000)]) fun y => { y with pkr := wr y.pkr 2 0x7701 })))
      (fun t => rd t.sys.pkr 2 0 = 0x7700 ∧ rd t.sys.pkr 5 0 = 0x7703) = true := by
  decide +kernel
/-- 42 R385 -/
theorem test_movFromPkr :
    ends (exec (.movFromPkr 0 1 3) ((onSys (st 0 [(3, 2)] [(2, 0x100000)]) fun y => { y with pkr := wr y.pkr 2 0x7701 })))
      (fun t => t.val 1 = 0x7701) = true := by
  decide +kernel
/-- 41 R366 -/
theorem test_movToDbr :
    ends (exec (.movToDbr 0 3 2) ((st 0 [(2, 0x77), (3, 4)] [(2, 0x100000)])))
      (fun t => rd t.sys.dbr 4 0 = 0x77) = true := by
  decide +kernel
/-- 41 R366 -/
theorem test_movFromDbr :
    ends (exec (.movFromDbr 0 1 3) ((onSys (st 0 [(3, 4)] [(2, 0x100000)]) fun y => { y with dbr := wr y.dbr 4 0x77 })))
      (fun t => t.val 1 = 0x77) = true := by
  decide +kernel
/-- 41 R367 -/
theorem test_movToIbr :
    ends (exec (.movToIbr 0 3 2) ((st 0 [(2, 0x77), (3, 4)] [(2, 0x100000)])))
      (fun t => rd t.sys.ibr 4 0 = 0x77) = true := by
  decide +kernel
/-- 41 R367 -/
theorem test_movFromIbr :
    ends (exec (.movFromIbr 0 1 3) ((onSys (st 0 [(3, 4)] [(2, 0x100000)]) fun y => { y with ibr := wr y.ibr 4 0x77 })))
      (fun t => t.val 1 = 0x77) = true := by
  decide +kernel
/-- 41 R368 -/
theorem test_movToPmc :
    ends (exec (.movToPmc 0 3 2) ((st 0 [(2, 0x77), (3, 4)] [(2, 0x100000)])))
      (fun t => rd t.sys.pmc 4 0 = 0x77) = true := by
  decide +kernel
/-- 41 R368 -/
theorem test_movFromPmc :
    ends (exec (.movFromPmc 0 1 3) ((onSys (st 0 [(3, 4)] [(2, 0x100000)]) fun y => { y with pmc := wr y.pmc 4 0x77 })))
      (fun t => t.val 1 = 0x77) = true := by
  decide +kernel
/-- 41 R369 -/
theorem test_movToPmd :
    ends (exec (.movToPmd 0 3 2) ((st 0 [(2, 0x77), (3, 4)] [(2, 0x100000)])))
      (fun t => rd t.sys.pmd 4 0 = 0x77) = true := by
  decide +kernel
/-- 41 R369 -/
theorem test_movFromPmd :
    ends (exec (.movFromPmd 0 1 3) ((onSys (st 0 [(3, 4)] [(2, 0x100000)]) fun y => { y with pmd := wr y.pmd 4 0x77 })))
      (fun t => t.nat 1 = false) = true := by
  decide +kernel
/-- 95 §2.3 vector 10 -/
theorem test_itcI :
    ends (exec (.itcI 0 2) ((onSys (st 0 [(2, 0x04000261), (3, 3)] [(20, 0x4000000000006000), (21, 0x934)]) fun y => { y with rr := wr y.rr 2 0x900 })))
      (fun t => t.sys.itcTlb = [{ rid := 9, vrn := 2, base := 0x6000, ps := 13, p := true, ma := 0, a := true, d := true, pl := 0, ar := 1, ppn := 0x4000, ed := false, key := 9 }] ∧ t.sys.dtcTlb = []) = true := by
  decide +kernel
/-- 42 R387 -/
theorem test_itcD :
    ends (exec (.itcD 0 2) ((onSys (st 0 [(2, 0x04000261), (3, 3)] [(20, 0x4000000000006000), (21, 0x934)]) fun y => { y with rr := wr y.rr 2 0x900 })))
      (fun t => t.sys.dtcTlb = [{ rid := 9, vrn := 2, base := 0x6000, ps := 13, p := true, ma := 0, a := true, d := true, pl := 0, ar := 1, ppn := 0x4000, ed := false, key := 9 }] ∧ t.sys.itcTlb = []) = true := by
  decide +kernel
/-- 42 R388 -/
theorem test_itrI :
    ends (exec (.itrI 0 3 2) ((onSys (st 0 [(2, 0x04000261), (3, 3)] [(20, 0x4000000000006000), (21, 0x934)]) fun y => { y with rr := wr y.rr 2 0x900 })))
      (fun t => rd t.sys.itr 3 none = some { rid := 9, vrn := 2, base := 0x6000, ps := 13, p := true, ma := 0, a := true, d := true, pl := 0, ar := 1, ppn := 0x4000, ed := false, key := 9 }) = true := by
  decide +kernel
/-- 42 R389 -/
theorem test_itrD :
    ends (exec (.itrD 0 3 2) ((onSys (st 0 [(2, 0x04000261), (3, 3)] [(20, 0x4000000000006000), (21, 0x934)]) fun y => { y with rr := wr y.rr 2 0x900 })))
      (fun t => rd t.sys.dtr 3 none = some { rid := 9, vrn := 2, base := 0x6000, ps := 13, p := true, ma := 0, a := true, d := true, pl := 0, ar := 1, ppn := 0x4000, ed := false, key := 9 }) = true := by
  decide +kernel
/-- 95 §2.3 vector 11 -/
theorem test_itcI_ic :
    ends (exec (.itcI 0 2) ((st 0x2000 [] [(2, 0x100000)])))
      (fun t => t.ip = 0x105400) = true := by
  decide +kernel
/-- 95 §2.3 vector 20 -/
theorem test_ptcL :
    ends (exec (.ptcL 0 3 2) ((onSys (st 0 [(2, 0x34), (3, 0x2000000000002000)] [(2, 0x100000)]) fun y => { y with rr := wr y.rr 1 0x5530, dtcTlb := [page 0x3000 12, page 0 14, page 0x8000 12] })))
      (fun t => t.sys.dtcTlb = [page 0x8000 12] ∧ t.mcOwed = false) = true := by
  decide +kernel
/-- 95 §2.3 vector 20 -/
theorem test_ptcG :
    ends (exec (.ptcG 0 3 2) ((onSys (st 0 [(2, 0x34), (3, 0x2000000000002000)] [(2, 0x100000)]) fun y => { y with rr := wr y.rr 1 0x5530, dtcTlb := [page 0x3000 12, page 0 14, page 0x8000 12] })))
      (fun t => t.sys.dtcTlb = [page 0x8000 12] ∧ t.mcOwed = false) = true := by
  decide +kernel
/-- 95 §2.3 vector 20 -/
theorem test_ptcGa :
    ends (exec (.ptcGa 0 3 2) ((onSys (st 0 [(2, 0x34), (3, 0x2000000000002000)] [(2, 0x100000)]) fun y => { y with rr := wr y.rr 1 0x5530, dtcTlb := [page 0x3000 12, page 0 14, page 0x8000 12] })))
      (fun t => t.sys.dtcTlb = [page 0x8000 12] ∧ t.mcOwed = false) = true := by
  decide +kernel
/-- 95 §2.3 vector 22 -/
theorem test_ptcL_tr :
    ends (exec (.ptcL 0 3 2) ((onSys (onSys (st 0 [(2, 0x34), (3, 0x2000000000002000)] [(2, 0x100000)]) fun y => { y with rr := wr y.rr 1 0x5530, dtcTlb := [page 0x3000 12, page 0 14, page 0x8000 12] }) fun y => { y with dtr := wr y.dtr 0 (some (page 0x2000 12)) })))
      (fun t => t.mcOwed = true ∧ rd t.sys.dtr 0 none = some (page 0x2000 12)) = true := by
  decide +kernel
/-- 42 R396 -/
theorem test_ptcE :
    ends (exec (.ptcE 0 3) ((onSys (st 0 [(2, 0x34), (3, 0x2000000000002000)] [(2, 0x100000)]) fun y => { y with rr := wr y.rr 1 0x5530, dtcTlb := [page 0x3000 12, page 0 14, page 0x8000 12] })))
      (fun t => t.sys.dtcTlb = []) = true := by
  decide +kernel
/-- 95 §2.3 vector 23 -/
theorem test_ptrI :
    ends (exec (.ptrI 0 3 2) ((onSys (st 0 [(2, 0x60), (3, 0x2000000001000000)] [(2, 0x100000)]) fun y => { y with rr := wr y.rr 1 0x5530, itr := wr y.itr 3 (some (page 0x1000000 24)), dtr := wr y.dtr 3 (some (page 0x1000000 24)) })))
      (fun t => rd t.sys.itr 3 none = none ∧ rd t.sys.dtr 3 none = some (page 0x1000000 24)) = true := by
  decide +kernel
/-- 42 R400 -/
theorem test_ptrD :
    ends (exec (.ptrD 0 3 2) ((onSys (st 0 [(2, 0x60), (3, 0x2000000001000000)] [(2, 0x100000)]) fun y => { y with rr := wr y.rr 1 0x5530, itr := wr y.itr 3 (some (page 0x1000000 24)), dtr := wr y.dtr 3 (some (page 0x1000000 24)) })))
      (fun t => rd t.sys.dtr 3 none = none ∧ rd t.sys.itr 3 none = some (page 0x1000000 24)) = true := by
  decide +kernel
/-- 95 §2.3 vector 27 -/
theorem test_probeWImm :
    ends (exec (.probeWImm 0 8 3 3) ((pagedAs 0x20000 [(3, 0x2000000000012345)] { page 0x10000 14 with ppn := 0x8404, pl := 3 })))
      (fun t => t.val 8 = 1) = true := by
  decide +kernel
/-- 95 §2.3 vector 28 -/
theorem test_probeWImm_readOnly :
    ends (exec (.probeWImm 0 8 3 3) ((pagedAs 0x20000 [(3, 0x2000000000012345)] { page 0x10000 14 with ppn := 0x8404, pl := 3, ar := 0 })))
      (fun t => t.val 8 = 0) = true := by
  decide +kernel
/-- 95 §2.3 vector 29 -/
theorem test_probeRImm :
    ends (exec (.probeRImm 0 8 3 3) ((pagedAs 0x20000 [(3, 0x2000000000012345)] { page 0x10000 14 with ppn := 0x8404 })))
      (fun t => t.val 8 = 0) = true := by
  decide +kernel
/-- 95 §2.3 vector 30 -/
theorem test_probeR :
    ends (exec (.probeR 0 8 3 2) ((pagedAs 0x300020000 [(3, 0x2000000000012345), (2, 0)] { page 0x10000 14 with ppn := 0x8404 })))
      (fun t => t.val 8 = 0) = true := by
  decide +kernel
/-- 42 R392 -/
theorem test_probeW :
    ends (exec (.probeW 0 8 3 2) ((pagedAs 0x20000 [(3, 0x2000000000012345), (2, 0)] { page 0x10000 14 with ppn := 0x8404 })))
      (fun t => t.val 8 = 1) = true := by
  decide +kernel
/-- 42 R392, access rights -/
theorem test_probeRFault :
    ends (exec (.probeRFault 0 3 3) ((pagedAs 0x20000 [(3, 0x2000000000012345)] { page 0x10000 14 with ppn := 0x8404 })))
      (fun t => t.ip = 0x105300) = true := by
  decide +kernel
/-- 21 R284, no Dirty bit fault -/
theorem test_probeWFault :
    ends (exec (.probeWFault 0 3 0) ((pagedAs 0x20000 [(3, 0x2000000000012345)] { page 0x10000 14 with ppn := 0x8404, d := false })))
      (fun t => t.ip = 0x1000 ∧ t.slot = 1) = true := by
  decide +kernel
/-- 42 R392 -/
theorem test_probeRwFault :
    ends (exec (.probeRwFault 0 3 0) ((pagedAs 0x20000 [(3, 0x2000000000012345)] { page 0x10000 14 with ppn := 0x8404 })))
      (fun t => t.ip = 0x1000 ∧ t.slot = 1) = true := by
  decide +kernel
/-- 95 §2.3 vector 33 -/
theorem test_tak :
    ends (exec (.tak 0 1 3) ((pagedAs 0x20000 [(3, 0x2000000000012345)] { page 0x10000 14 with ppn := 0x8404, key := 0x1234 })))
      (fun t => t.val 1 = 0x123400) = true := by
  decide +kernel
/-- 95 §2.3 vector 34 -/
theorem test_tak_none :
    ends (exec (.tak 0 1 3) ((st 0x20000 [(3, 0x2000000000012345)] [(2, 0x100000)])))
      (fun t => t.val 1 = 1) = true := by
  decide +kernel
/-- 95 §2.3 vector 35 -/
theorem test_tpa :
    ends (exec (.tpa 0 1 3) ((pagedAs 0x20000 [(3, 0x2000000000012345)] { page 0x10000 14 with ppn := 0x8404 })))
      (fun t => t.val 1 = 0x8406345) = true := by
  decide +kernel
/-- 10 R38 note b: PSR.up stays in flight for the fetch -/
theorem test_fetch_um :
    ends (exec (.sum 0 4) ((st 0 [] [(2, 0x100000)])))
      (fun t => t.fetchOld.map (fun y => bit y.psr 2) = [false] ∧ t.dataOld = []) = true := by
  decide +kernel
/-- 11 R82 note a: the old in-service state stays in flight -/
theorem test_eoi_inFlight :
    ends (exec (.movToCr 0 67 0) ((onSys (st 0 [] [(2, 0x100000)]) fun y => { y with inService := 1#256 <<< 0x40 })))
      (fun t => t.sys.inService = 0 ∧ t.dataOld.map (·.inService) = [1#256 <<< 0x40]) = true := by
  decide +kernel
/-- 95 §2.3 vector 40 -/
theorem test_thash :
    ends (exec (.thash 0 1 3) (withNat (st 0 [] [(2, 0x100000)]) 3))
      (fun t => t.nat 1 = true) = true := by
  decide +kernel
/-- 42 R399 -/
theorem test_ttag :
    ends (exec (.ttag 0 1 3) (withNat (st 0 [] [(2, 0x100000)]) 3))
      (fun t => t.nat 1 = true) = true := by
  decide +kernel
/-- 95 §2.4 vector 1 -/
theorem test_ld8 :
    ends (exec (.ld8 0 4 5 0) ((withMem (st 0 [(5, 0x1000)] [(2, 0x100000)]) 0x1000 8 0x1122334455667788)))
      (fun t => t.val 4 = 0x1122334455667788) = true := by
  decide +kernel
/-- 95 §2.4 vector 2 -/
theorem test_ld8_be :
    ends (exec (.ld8 0 4 5 0) ((withMem (st 2 [(5, 0x1000)] [(2, 0x100000)]) 0x1000 8 0x1122334455667788)))
      (fun t => t.val 4 = 0x8877665544332211) = true := by
  decide +kernel
/-- 95 §2.4 vector 3 -/
theorem test_ld2 :
    ends (exec (.ld2 0 4 5 0) ((withMem (st 2 [(5, 0x1000)] [(2, 0x100000)]) 0x1000 8 0x1122334455667788)))
      (fun t => t.val 4 = 0x8877) = true := by
  decide +kernel
/-- 95 §2.4 vector 4 -/
theorem test_ld1 :
    ends (exec (.ld1 0 4 5 0) ((withMem (st 2 [(5, 0x1000)] [(2, 0x100000)]) 0x1000 8 0x1122334455667788)))
      (fun t => t.val 4 = 0x88) = true := by
  decide +kernel
/-- 43 R426 -/
theorem test_ld4 :
    ends (exec (.ld4 0 4 5 0) ((withMem (st 0 [(5, 0x1000)] [(2, 0x100000)]) 0x1000 8 0x1122334455667788)))
      (fun t => t.val 4 = 0x55667788) = true := by
  decide +kernel
/-- 95 §2.4 vector 5 -/
theorem test_st4 :
    ends (exec (.st4 0 6 5 0) ((st 2 [(6, 0xAABBCCDD11223344), (5, 0x2000)] [(2, 0x100000)])))
      (fun t => readList t.mem 0x2000 5 = [0x11, 0x22, 0x33, 0x44, 0]) = true := by
  decide +kernel
/-- 95 §2.4 vector 9 -/
theorem test_st8 :
    ends (exec (.st8 0 6 5 0) (withNat (st 0 [(5, 0x2000)] [(2, 0x100000)]) 6))
      (entered 0x5600 0x10) = true := by
  decide +kernel
/-- 43 R432 -/
theorem test_st1 :
    ends (exec (.st1 0 6 5 0) ((st 0 [(6, 0xAABB), (5, 0x2000)] [(2, 0x100000)])))
      (fun t => readList t.mem 0x2000 2 = [0xBB, 0]) = true := by
  decide +kernel
/-- 43 R432 -/
theorem test_st2 :
    ends (exec (.st2 0 6 5 0) ((st 0 [(6, 0xAABBCC), (5, 0x2000)] [(2, 0x100000)])))
      (fun t => readList t.mem 0x2000 3 = [0xCC, 0xBB, 0]) = true := by
  decide +kernel
/-- 95 §2.4 vector 10 -/
theorem test_st8Spill :
    ends (exec (.st8Spill 0 6 5 0) (withNat (st 0 [(5, 0x2008)] [(2, 0x100000)]) 6))
      (fun t => t.getAr 36 = 2) = true := by
  decide +kernel
/-- 95 §2.4 vector 11 -/
theorem test_ld8Fill :
    ends (exec (.ld8Fill 0 7 5 0) ((withMem (st 0 [(5, 0x2008)] [(2, 0x100000)] [(36, 2)]) 0x2008 8 9)))
      (fun t => t.val 7 = 9 ∧ t.nat 7 = true) = true := by
  decide +kernel
/-- 95 §2.4 vector 12 -/
theorem test_memUpd_spec :
    ends (exec (.memUpd 0 (.load 3 .s 4) 5 (.imm 8) 0) ((st 0 [(5, 0x1000)] [(2, 0x100000)])))
      (fun t => t.nat 4 = true ∧ t.val 5 = 0x1008) = true := by
  decide +kernel
/-- 43 R423 -/
theorem test_memUpd_reg :
    ends (exec (.memUpd 0 (.load 3 .plain 4) 5 (.reg 6) 0) ((withMem (st 0 [(5, 0x1000), (6, 0x20)] [(2, 0x100000)]) 0x1000 8 0x1122334455667788)))
      (fun t => t.val 4 = 0x1122334455667788 ∧ t.val 5 = 0x1020) = true := by
  decide +kernel
/-- 95 §2.4 vector 13 -/
theorem test_ld8S :
    ends (exec (.ld8S 0 4 5 0) ((withMem (pagedAs 0x20000 [(5, 0x2000000000012340)] { page 0x10000 14 with ppn := 0x8404 }) 0x8406340 8 5)))
      (fun t => t.getGr 4 = { val := 5, nat := false }) = true := by
  decide +kernel
/-- 11 R110, ISR.sp; 43 R426 -/
theorem test_ld8S_illegal :
    ends (exec (.ld8S 0 0 5 0) ((st 0 [] [(2, 0x100000)])))
      (fun t => t.ip = 0x105400 ∧ bit (t.sys.getCr 17) 36 = true) = true := by
  decide +kernel
/-- 95 §2.4 vector 15 -/
theorem test_ld4S :
    ends (exec (.ld4S 0 4 5 0) ((st 0x20000 [(5, 0x2000000000012340)] [(2, 0x100000)])))
      (fun t => t.nat 4 = true ∧ t.ip = 0x1000) = true := by
  decide +kernel
/-- 95 §2.4 vector 16 -/
theorem test_ld8A :
    ends (exec (.ld8A 0 4 5 0) ((st 0 [(4, 9), (5, 0x8000000000001000)] [(2, 0x100000)])))
      (fun t => t.getGr 4 = { val := 0, nat := false } ∧ t.alat = []) = true := by
  decide +kernel
/-- 43 R441 -/
theorem test_ld4A :
    ends (exec (.ld4A 0 4 5 0) ((withMem (st 0 [(5, 0x1000)] [(2, 0x100000)]) 0x1000 8 0x1122334455667788)))
      (fun t => t.val 4 = 0x55667788 ∧ t.alat = [{ fp := false, reg := 4, pa := 0x1000, size := 4 }]) = true := by
  decide +kernel
/-- 95 §2.4 vector 17, after the store -/
theorem test_ld8CClr :
    ends (exec (.ld8CClr 0 4 5 0) ((withMem (st 0 [(5, 0x1000)] [(2, 0x100000)]) 0x1000 8 0x1122334455667788)))
      (fun t => t.val 4 = 0x1122334455667788 ∧ t.alat = []) = true := by
  decide +kernel
/-- 43 R443 -/
theorem test_ld8CNc :
    ends (exec (.ld8CNc 0 4 5 0) ((withMem (st 0 [(5, 0x1000)] [(2, 0x100000)]) 0x1000 8 0x1122334455667788)))
      (fun t => t.val 4 = 0x1122334455667788 ∧ t.alat = [{ fp := false, reg := 4, pa := 0x1000, size := 8 }]) = true := by
  decide +kernel
/-- 95 §2.4 vector 17 -/
theorem test_st8_alat :
    ends (exec (.st8 0 0 5 0) ({ (withMem (st 0 [(5, 0x1000)] [(2, 0x100000)]) 0x1000 8 0x1122334455667788) with alat := [{ fp := false, reg := 4, pa := 0x1000, size := 8 }] }))
      (fun t => t.alat = [] ∧ readBytes false t.mem 0x1000 8 = 0) = true := by
  decide +kernel
/-- 43 R428 -/
theorem test_ld8Acq :
    ends (exec (.ld8Acq 0 4 5 0) ((withMem (st 0 [(5, 0x1000)] [(2, 0x100000)]) 0x1000 8 0x1122334455667788)))
      (fun t => t.val 4 = 0x1122334455667788) = true := by
  decide +kernel
/-- 95 §2.4 vector 19 -/
theorem test_cmpxchg8Acq :
    ends (exec (.cmpxchg8Acq 0 1 2 3 0) ((withMem (st 0 [(2, 9), (3, 0x3000)] [(2, 0x100000)] [(32, 5)]) 0x3000 8 5)))
      (fun t => t.val 1 = 5 ∧ readBytes false t.mem 0x3000 8 = 9) = true := by
  decide +kernel
/-- 95 §2.4 vector 20 -/
theorem test_cmpxchg8Acq_miss :
    ends (exec (.cmpxchg8Acq 0 1 2 3 0) ((withMem (st 0 [(2, 7), (3, 0x3000)] [(2, 0x100000)] [(32, 5)]) 0x3000 8 9)))
      (fun t => t.val 1 = 9 ∧ readBytes false t.mem 0x3000 8 = 9) = true := by
  decide +kernel
/-- 95 §2.4 vector 21 -/
theorem test_cmpxchg4Rel :
    ends (exec (.cmpxchg4Rel 0 1 2 3 0) ((withMem (st 0 [(2, 0xAAAABBBB00000007), (3, 0x3000)] [(2, 0x100000)] [(32, 0x12345678FFFFFFFF)]) 0x3000 8 0x1FFFFFFFF)))
      (fun t => t.val 1 = 0xFFFFFFFF ∧ readBytes false t.mem 0x3000 8 = 0x100000007) = true := by
  decide +kernel
/-- 95 §2.4 vector 22 -/
theorem test_cmpxchg8Rel :
    ends (exec (.cmpxchg8Rel 0 1 2 3 0) ((st 0 [(3, 0x3004)] [(2, 0x100000)])))
      (fun t => t.ip = 0x105A00) = true := by
  decide +kernel
/-- 95 §2.4 vector 23 (any size) -/
theorem test_cmpxchg1Acq :
    ends (exec (.cmpxchg1Acq 0 1 2 3 0) ((st 0 [(3, 0x8000000000003000)] [(2, 0x100000)])))
      (fun t => t.ip = 0x105B00) = true := by
  decide +kernel
/-- 95 §2.4 vector 25 -/
theorem test_xchg8 :
    ends (exec (.xchg8 0 1 2 3 0) ((withMem (st 0 [(2, 1), (3, 0x3000)] [(2, 0x100000)]) 0x3000 8 9)))
      (fun t => t.val 1 = 9 ∧ readBytes false t.mem 0x3000 8 = 1) = true := by
  decide +kernel
/-- 95 §2.4 vector 26 -/
theorem test_fetchadd4Rel :
    ends (exec (.fetchadd4Rel 0 1 3 3 0) ((withMem (st 0 [(3, 0x3010)] [(2, 0x100000)]) 0x3010 8 0x55FFFFFFFF)))
      (fun t => t.val 1 = 0xFFFFFFFF ∧ readBytes false t.mem 0x3010 8 = 0x5500000000) = true := by
  decide +kernel
/-- 95 §2.4 vector 27 -/
theorem test_fetchadd8Acq :
    ends (exec (.fetchadd8Acq 0 1 4 3 0) ((st 0 [(3, 0x3018)] [(2, 0x100000)])))
      (fun t => t.val 1 = 0 ∧ readBytes false t.mem 0x3018 8 = 0xFFFFFFFFFFFFFFF0) = true := by
  decide +kernel
/-- 43 R453 -/
theorem test_cmp8xchg16Acq :
    ends (exec (.cmp8xchg16Acq 0 1 2 3 0) ((withMem (st 0 [(2, 7), (3, 0x3008)] [(2, 0x100000)] [(32, 5), (25, 8)]) 0x3008 8 5)))
      (fun t => t.val 1 = 5 ∧ readBytes false t.mem 0x3000 8 = 7 ∧ readBytes false t.mem 0x3008 8 = 8) = true := by
  decide +kernel
/-- 43 R431 -/
theorem test_ld16 :
    ends (exec (.ld16 0 4 5 0) ((withMem (st 0 [(5, 0x3000)] [(2, 0x100000)]) 0x3008 8 9)))
      (fun t => t.val 4 = 0 ∧ t.getAr 25 = 9) = true := by
  decide +kernel
/-- 43 R435 -/
theorem test_st16 :
    ends (exec (.st16 0 6 5 0) ((st 0 [(6, 7), (5, 0x3000)] [(2, 0x100000)] [(25, 8)])))
      (fun t => readBytes false t.mem 0x3000 8 = 7 ∧ readBytes false t.mem 0x3008 8 = 8) = true := by
  decide +kernel
/-- 95 §2.4 vector 30 -/
theorem test_addp4 :
    ends (exec (.addp4 0 1 2 3) ((st 0 [(2, 0x40000000), (3, 0xC0000000)] [(2, 0x100000)])))
      (fun t => t.val 1 = 0x6000000000000000) = true := by
  decide +kernel
/-- 95 §2.4 vector 31 -/
theorem test_shladdp4 :
    ends (exec (.shladdp4 0 1 2 2 3) ((st 0 [(2, 3), (3, 0x40001000)] [(2, 0x100000)])))
      (fun t => t.val 1 = 0x2000000040001018) = true := by
  decide +kernel
/-- 43 R456, a negative immediate -/
theorem test_addp4Imm :
    ends (exec (.addp4Imm 0 1 0x3FFF 3) ((st 0 [(3, 0x40001000)] [(2, 0x100000)])))
      (fun t => t.val 1 = 0x2000000040000FFF) = true := by
  decide +kernel
/-- 95 §2.4 vector 33 -/
theorem test_lfetch :
    ends (exec (.lfetch 0 3 0) ((st 0x20000 [(3, 0x2000000000012345)] [(2, 0x100000)])))
      (fun t => t.ip = 0x1000 ∧ t.slot = 1) = true := by
  decide +kernel
/-- 95 §2.4 vector 34 -/
theorem test_lfetchFault :
    ends (exec (.lfetchFault 0 3 0) ((st 0x22000 [(3, 0x2000000000012345)] [(2, 0x100000)])))
      (fun t => t.ip = 0x101000 ∧ t.sys.getCr 20 = 0x2000000000012345) = true := by
  decide +kernel
/-- 95 §2.4 vector 36 -/
theorem test_mf :
    ends (exec (.mf 0) ((st 0x300000000 [] [(2, 0x100000)])))
      (fun t => t.ip = 0x1000 ∧ t.slot = 1) = true := by
  decide +kernel
/-- 95 §2.4 vector 36 -/
theorem test_mfA :
    ends (exec (.mfA 0) ((st 0x300000000 [] [(2, 0x100000)])))
      (fun t => t.ip = 0x1000 ∧ t.slot = 1) = true := by
  decide +kernel
/-- 95 §2.4 vector 36 -/
theorem test_fwb :
    ends (exec (.fwb 0) ((st 0x300000000 [] [(2, 0x100000)])))
      (fun t => t.ip = 0x1000 ∧ t.slot = 1) = true := by
  decide +kernel
/-- 95 §2.4 vector 36 -/
theorem test_syncI :
    ends (exec (.syncI 0) ((st 0x300000000 [] [(2, 0x100000)])))
      (fun t => t.ip = 0x1000 ∧ t.slot = 1) = true := by
  decide +kernel
/-- 95 §2.4 vector 36 -/
theorem test_srlzD :
    ends (exec (.srlzD 0) ((st 0x300000000 [] [(2, 0x100000)])))
      (fun t => t.ip = 0x1000 ∧ t.slot = 1) = true := by
  decide +kernel
/-- 95 §2.4 vector 36 -/
theorem test_srlzI :
    ends (exec (.srlzI 0) ((st 0x300000000 [] [(2, 0x100000)])))
      (fun t => t.ip = 0x1000 ∧ t.slot = 1) = true := by
  decide +kernel
/-- 43 R437: the ALAT entries of the line go -/
theorem test_fc :
    ends (exec (.fc 0 5) ({ (withMem (st 0 [(5, 0x1000)] [(2, 0x100000)]) 0x1000 8 0x1122334455667788) with alat := [{ fp := false, reg := 4, pa := 0x1000, size := 8 }] }))
      (fun t => t.alat = []) = true := by
  decide +kernel
/-- 43 R444 -/
theorem test_invala :
    ends (exec (.invala 0) ({ (withMem (st 0 [(5, 0x1000)] [(2, 0x100000)]) 0x1000 8 0x1122334455667788) with alat := [{ fp := false, reg := 4, pa := 0x1000, size := 8 }] }))
      (fun t => t.alat = []) = true := by
  decide +kernel
/-- 43 R444, another register -/
theorem test_invalaER :
    ends (exec (.invalaER 0 5) ({ (withMem (st 0 [(5, 0x1000)] [(2, 0x100000)]) 0x1000 8 0x1122334455667788) with alat := [{ fp := false, reg := 4, pa := 0x1000, size := 8 }] }))
      (fun t => t.alat = [{ fp := false, reg := 4, pa := 0x1000, size := 8 }]) = true := by
  decide +kernel
/-- 43 R444, a hit -/
theorem test_chkAClrR :
    ends (exec (.chkAClrR 0 4 2) ({ (withMem (st 0 [(5, 0x1000)] [(2, 0x100000)]) 0x1000 8 0x1122334455667788) with alat := [{ fp := false, reg := 4, pa := 0x1000, size := 8 }] }))
      (fun t => t.alat = [] ∧ t.ip = 0x1000) = true := by
  decide +kernel
/-- 43 R444, a hit -/
theorem test_chkANcR :
    ends (exec (.chkANcR 0 4 2) ({ (withMem (st 0 [(5, 0x1000)] [(2, 0x100000)]) 0x1000 8 0x1122334455667788) with alat := [{ fp := false, reg := 4, pa := 0x1000, size := 8 }] }))
      (fun t => t.alat = [{ fp := false, reg := 4, pa := 0x1000, size := 8 }] ∧ t.ip = 0x1000) = true := by
  decide +kernel
/-- 43 R445 -/
theorem test_chkSM :
    ends (exec (.chkSM 0 4 2) ((st 0 [] [(2, 0x100000)])))
      (fun t => t.ip = 0x1000 ∧ t.slot = 1) = true := by
  decide +kernel
/-- 30 R311 -/
theorem test_brCond :
    ends (exec (.brCond 0 6 0 0 0) ({ (st 0 [] [(2, 0x100000)]) with br := wr State.reset.br 6 0x2008 }))
      (fun t => t.ip = 0x2000 ∧ t.slot = 0) = true := by
  decide +kernel
/-- 30 R311, two bundles back -/
theorem test_brRel :
    ends (exec (.brRel (.cond 0 0x1FFFFE 0 0 0)) ((st 0 [] [(2, 0x100000)])))
      (fun t => t.ip = 0xFE0) = true := by
  decide +kernel
/-- 41 R376, a demotion -/
theorem test_brRet :
    ends (exec (.brRet 0 0 0 0 0) ((st 0 [] [(2, 0x100000)] [(64, 0xC010000000000389)])))
      (fun t => t.cfm = 0x389 ∧ t.getAr 66 = 1 ∧ t.cpl = 3) = true := by
  decide +kernel
/-- 40 R348 -/
theorem test_brIa :
    ends (exec (.brIa 0 0 0 0) ({ (st 0x1000022000 [] [(2, 0x100000)]) with br := wr State.reset.br 0 0xFFFFFFFF00001234 }))
      (fun t => t.ip = 0x1234 ∧ t.psrNow Psr.is = true) = true := by
  decide +kernel
/-- 30 R317 -/
theorem test_nopM_false :
    ends (exec (.breakM 1 5) ((st 0 [] [(2, 0x100000)])))
      (fun t => t.ip = 0x1000 ∧ t.slot = 1) = true := by
  decide +kernel
/-- 95 §2.5 vector 2 -/
theorem test_ld8_noEntry :
    ends (exec (.ld8 0 4 5 0) ({ (pagedAs 0x22000 [(5, 0x2000000000022340)] (page 0x10000 14)) with slot := 1 }))
      (fun t => t.ip = 0x101000 ∧ t.sys.getCr 17 = 0x20400000000 ∧ t.sys.getCr 20 = 0x2000000000022340 ∧ t.sys.getCr 21 = 0x5530 ∧ t.sys.getCr 19 = 0x1000) = true := by
  decide +kernel
/-- 95 §2.5 vector 3 -/
theorem test_ld4_nested :
    ends (exec (.ld4 0 4 5 0) ((pagedAs 0x20000 [(5, 0x2000000000022340)] (page 0x10000 14))))
      (fun t => t.ip = 0x101400 ∧ t.sys.getCr 17 = 0 ∧ t.sys.getCr 20 = 0) = true := by
  decide +kernel
/-- 95 §2.5 vector 4 -/
theorem test_st8Rel_dirty :
    ends (exec (.st8Rel 0 6 5 0) ({ (pagedAs 0x22000 [(5, 0x2000000000012340)] { page 0x10000 14 with ppn := 0x8404, d := false }) with slot := 1 }))
      (fun t => t.ip = 0x102000 ∧ t.sys.getCr 17 = 0x20200000000) = true := by
  decide +kernel
/-- 95 §2.5 vector 5 -/
theorem test_ld8Bias_rights :
    ends (exec (.ld8Bias 0 4 5 0) ((pagedAs 0x300022000 [(5, 0x2000000000012340)] { page 0x10000 14 with ppn := 0x8404 })))
      (fun t => t.ip = 0x105300 ∧ t.cpl = 0) = true := by
  decide +kernel
/-- 95 §2.5 vector 7 -/
theorem test_ld2Acq_present :
    ends (exec (.ld2Acq 0 4 5 0) ((pagedAs 0x22000 [(5, 0x2000000000012340)] { page 0x10000 14 with ppn := 0x8404, p := false, a := false })))
      (fun t => t.ip = 0x105000) = true := by
  decide +kernel
/-- 95 §2.5 vector 8 -/
theorem test_ld1Acq_natPage :
    ends (exec (.ld1Acq 0 4 5 0) ((pagedAs 0x22000 [(5, 0x2000000000012340)] { page 0x10000 14 with ppn := 0x8404, ma := 7 })))
      (fun t => t.ip = 0x105600 ∧ t.sys.getCr 17 = 0x400000020) = true := by
  decide +kernel
/-- 95 §2.5 vector 9 -/
theorem test_ld1S_natPage :
    ends (exec (.ld1S 0 4 5 0) ((pagedAs 0x22000 [(5, 0x2000000000012340)] { page 0x10000 14 with ppn := 0x8404, ma := 7 })))
      (fun t => t.nat 4 = true) = true := by
  decide +kernel
/-- 95 §2.5 vector 14 -/
theorem test_ldfd_disabled :
    ends (exec (.ldfd 0 8 5 0) ((st 0x42000 [(5, 0x1000)] [(2, 0x100000)])))
      (entered 0x5500 1) = true := by
  decide +kernel
/-- 95 §2.5 vector 19 -/
theorem test_nopI_step :
    ends (exec (.nopI 0 0) ({ (st 0x10000002000 [] [(2, 0x100000)]) with slot := 1 }))
      (fun t => t.ip = 0x106000 ∧ t.sys.getCr 17 = 0x20000000008 ∧ field (t.sys.getCr 16) 41 2 = 2 ∧ t.sys.getCr 19 = 0x1000 ∧ t.sys.getCr 22 = 0x1000) = true := by
  decide +kernel
/-- 95 §2.5 vector 20 -/
theorem test_brCond_trap :
    ends (exec (.brCond 0 6 0 0 0) ({ (st 0x4002000 [] [(2, 0x100000)]) with br := wr State.reset.br 6 0x2000, slot := 2 }))
      (fun t => t.ip = 0x105F00 ∧ t.sys.getCr 19 = 0x2000 ∧ t.sys.getCr 17 = 0x40000000004) = true := by
  decide +kernel
/-- 95 §2.6 vector 2 -/
theorem test_ld4Acq_uc :
    ends (exec (.ld4Acq 0 4 5 0) ((withMem (st 0 [(5, 0x8000000000001000)] [(2, 0x100000)]) 0x1000 8 0x1122334455667788)))
      (fun t => t.val 4 = 0x55667788) = true := by
  decide +kernel
/-- 95 §2.6 vector 3 -/
theorem test_ld4CClr_key :
    ends (exec (.ld4CClr 0 4 5 0) ((pagedAs 0x2A000 [(5, 0x2000000000012340)] { page 0x10000 14 with ppn := 0x8404, key := 7 })))
      (fun t => t.ip = 0x101C00) = true := by
  decide +kernel
/-- 95 §2.6 vector 4 -/
theorem test_ld2CClr_key :
    ends (exec (.ld2CClr 0 4 5 0) ((onSys (pagedAs 0x2A000 [(5, 0x2000000000012340)] { page 0x10000 14 with ppn := 0x8404, key := 7 }) fun y => { y with pkr := wr y.pkr 2 0x705 })))
      (fun t => t.ip = 0x105100) = true := by
  decide +kernel
/-- 95 §2.6 vector 5 -/
theorem test_st2Rel_key :
    ends (exec (.st2Rel 0 6 5 0) ((onSys (pagedAs 0x2A000 [(5, 0x2000000000012340), (6, 0x77)] { page 0x10000 14 with ppn := 0x8404, key := 7 }) fun y => { y with pkr := wr y.pkr 2 0x705 })))
      (fun t => readList t.mem 0x8406340 2 = [0x77, 0]) = true := by
  decide +kernel
/-- 95 §2.6 vector 6 -/
theorem test_st1Rel_access :
    ends (exec (.st1Rel 0 6 5 0) ((pagedAs 0x22000 [(5, 0x2000000000012340)] { page 0x10000 14 with ppn := 0x8404, a := false, d := false })))
      (fun t => t.ip = 0x102000) = true := by
  decide +kernel
/-- 95 §2.6 vector 7 -/
theorem test_ld1CNc_da :
    ends (exec (.ld1CNc 0 4 5 0) ((pagedAs 0x4000022000 [(5, 0x2000000000012340)] { page 0x10000 14 with ppn := 0x8404, a := false })))
      (fun t => t.ip = 0x1000 ∧ t.psrNow Psr.da = false) = true := by
  decide +kernel

/-! A step on a placed instruction, and the next one on its own. -/

/-- addp4 r1 = r2, r3 placed at 0x1000. -/
def wStep : State := (st 0 [(2, 0x10), (3, 0xC0000FF8)]).withFetchWord 41 0x10040304040

/-- 95 §2.4 vector 29, through the fetch and the decoder -/
theorem test_step : ends (step wStep) (fun t => t.val 1 = 0x60000000C0001008 ∧ t.ip = 0x1000 ∧ t.slot = 1) = true := by
  decide +kernel
/-- 60_exceptions.md R513 with log entry 22: a message of mode INT with vector 5 sets its pending bit. -/
theorem test_message : (postMessage State.reset 5).irr = 1#256 <<< 5 := by decide +kernel

/-- 20_memory.md R211: the fetch of the first bundle has used its line as cacheable. -/
theorem test_fetch_line : ends (step wStep) (fun t => t.lines = useLines [] .cached 0x1000 16) = true := by decide +kernel

/-- 20_memory.md R161, R211: a line that was used as uncacheable, or as write-combining, may not be used with an attribute that
is not coherent with it before an fc; UC and UCE are coherent with each other. -/
theorem test_line_flush :
    [(Attr.uc, Attr.wb), (.wc, .uc), (.wc, .uce), (.uce, .wc), (.wb, .wc)].all (fun p =>
      (State.reset.touch p.1 0x1000 8).aliased p.2 0x1000 8 &&
        !(dropLine 0x1000 (State.reset.touch p.1 0x1000 8)).aliased p.2 0x1000 8) &&
      !(State.reset.touch .uc 0x1000 8).aliased .uce 0x1000 8 = true := by decide +kernel
/-- 20_memory.md R209: lfetch.fault of an uncacheable page is suppressed, also where its line was used as cacheable. -/
theorem test_lfetch_suppressed :
    ends (exec (.lfetchFault 0 3 0) ((st 0 [(3, 0x8000000000001000)]).touch .wb 0x1000 8)) (fun t =>
      t.lines = useLines [] .cached 0x1000 8) = true := by decide +kernel
/-- 10_state.md R65: a store to the Processor Interrupt Block removes the ALAT entries it overlaps, and no others. -/
theorem test_block_store_alat :
    ends (exec (.st1 0 2 3 0) { st 0 [(2, 0x60), (3, 0x80000000FEFE0008)] with
        alat := [{ fp := false, reg := 4, pa := 0xFEFE0008, size := 8 }, { fp := false, reg := 5, pa := 0x1000, size := 8 }] })
      (fun t => t.alat.map (·.reg) = [5] ∧ t.xtp = 0x60) = true := by decide +kernel
/-- 30_encoding.md R317: br.wtop with a false predicate has no effect; with a true one it rotates (log entry 9). -/
theorem test_wtop_predicate : ends (exec (.brRel (.wtop 1 0 0 0 0)) (st 0 [])) (fun t => t.slot = 1) = true ∧
    exec (.brRel (.wtop 0 0 0 0 0)) (st 0 []) = .refused .rseNotDefined := ⟨by decide +kernel, rfl⟩
/-- 70_reset_and_hazards.md R560, 40 R338: a write of PSR.be or PSR.ac by sum and a load of its group; not a fetch of a line, and not
a write of another bit; mov ar.pfs and br.ret or epc. -/
theorem test_mask_group :
    let wrote := fun (i : Instr) => ({ st 0 [(3, 0x1000)] with groupRegs := i.tagsWritten (st 0 []) } : State)
    ((Instr.ld8 0 2 3 0).breaksGroup (wrote (.sum 0 8)) && (Instr.st4 0 2 3 0).breaksGroup (wrote (.movToUm 0 5)) &&
      !(Instr.fc 0 3).breaksGroup (wrote (.rum 0 2)) && !(Instr.ld8 0 2 3 0).breaksGroup (wrote (.sum 0 4)) &&
      (Instr.brRet 0 0 0 0 0).breaksGroup (wrote (.movToAr 0 64 3)) && (Instr.epc).breaksGroup (wrote (.movToAr 0 64 3))) = true := by
  decide +kernel
/-- 70_reset_and_hazards.md R560: two moves to AR[UNAT], or one and a ld8.fill, break a group; a fill of another bit, or a move
from AR[UNAT], after a spill does not. -/
theorem test_unat_group :
    let wrote := fun (i : Instr) => ({ st 0 [(3, 0x1000), (4, 0x1008)] with groupRegs := i.tagsWritten (st 0 [(3, 0x1000)]) } : State)
    ((Instr.movToAr 0 36 2).breaksGroup (wrote (.movToAr 0 36 3)) && (Instr.ld8Fill 0 2 3 0).breaksGroup (wrote (.movToAr 0 36 3)) &&
      (Instr.ld8Fill 0 2 3 0).breaksGroup (wrote (.st8Spill 0 2 3 0)) && !(Instr.ld8Fill 0 2 4 0).breaksGroup (wrote (.st8Spill 0 2 3 0)) &&
      !(Instr.movFromAr 0 2 36).breaksGroup (wrote (.st8Spill 0 5 3 0))) = true := by decide +kernel

/-- 70_reset_and_hazards.md R560 (a): mov ar.itc, then in a later group srlz.i and, in the group of that, a read of ITC. -/
theorem test_itc_early :
    (Instr.movFromAr 0 2 44).readsEarly { (st 0 []).pushSys (fun y => { y with itc := 9 }) with srlzI := true } = true := by
  decide +kernel

/-! For each claim with hypotheses, a state and operands that meet them. -/

/-- Accessible with translation off. -/
theorem accessible_physical {s : State} {ref : Ref} {pa : Nat} {attr : Attr} (h : (s.dataView 0).dt = false)
    (hu : unimplPa ref.va = false) (hp : ref.va.toNat % 2 ^ 63 = pa) (ha : (if bit ref.va 63 then .uc else .wbl) = attr)
    (hf : (failing (if ref.chk then lateFaults s (s.dataView 0) ref attr else [])).isEmpty = true) :
    Accessible s ref pa attr s := by
  unfold Accessible checkRef unsearched Ref.late
  simp only [h, hu, ha, hp, Bool.false_and, Bool.or_self, List.isEmpty_iff.mp hf, Bool.false_eq_true, if_false]

/-- One region register of these holds the identifier 0x55. -/
theorem one_region {l : List Word} (h : l = [0, 0x5531, 0, 0, 0, 0, 0, 0]) :
    ∀ r ∈ l, rrRid r = rrRid 0x5531 → insertable (rrPs r) = true → rrPs r = rrPs 0x5531 := by
  have h0 : rrRid 0 ≠ rrRid 0x5531 := by decide
  intro r hr e _
  simp only [h, List.mem_cons, List.not_mem_nil, or_false] at hr
  rcases hr with rfl | rfl | rfl | rfl | rfl | rfl | rfl | rfl <;> first | rfl | exact absurd e h0

/-- A search that finds one entry. -/
theorem found_of {s : State} {v w : TransView} {sd : Side} {va : Word} {e : TlbEntry}
    (h : v.tlb.lookup sd (rrRid (v.rrOf va)) va = [e]) : searchTlb s v w sd va = .found e s := by
  unfold searchTlb
  rw [h]

/-- Accessible through a translation. -/
theorem accessible_virtual {s : State} {ref : Ref} {pa : Nat} {attr : Attr} {e : TlbEntry} (h : (s.dataView 0).dt = true)
    (hu : unimplVa (s.dataView 0).vm ref.va = false)
    (hs : (s.dataView 0).tlb.lookup .data (rrRid ((s.dataView 0).rrOf ref.va)) ref.va = [e]) (hp : e.pa ref.va = pa)
    (ha : attrOf e.ma = attr)
    (hf : (failing (pageFaults s (s.dataView 0) ref e ++
      (if ref.chk then lateFaults s (s.dataView 0) ref attr else []))).isEmpty = true) : Accessible s ref pa attr s := by
  unfold Accessible checkRef
  simp only [h, hu, found_of hs, Bool.not_false, Bool.and_self, if_true, afterSearch, Ref.late, hp, ha, List.isEmpty_iff.mp hf]

/-- A reference with a failing check, by evaluation. -/
theorem faults_of {s : State} {ref : Ref}
    (h : (match checkRef s 0 ref with
      | .ok c => !c.faults.isEmpty
      | .error _ => false) = true) : ∃ c k e rest, checkRef s 0 ref = .ok c ∧ c.faults = (k, e) :: rest := by
  revert h
  cases checkRef s 0 ref with
  | error e => exact fun h => Bool.noConfusion h
  | ok c =>
    obtain ⟨f, p, a, u⟩ := c
    cases f with
    | nil => exact fun h => Bool.noConfusion h
    | cons x l => exact fun _ => ⟨_, x.1, x.2, l, rfl, rfl⟩

/-- A reference whose first failing check is this one, by evaluation. -/
theorem first_of {s : State} {ref : Ref} {k : DFault}
    (h : (match checkRef s 0 ref with
      | .ok c => (c.faults.head?.map Prod.fst) == some k
      | .error _ => false) = true) : ∃ c e rest, checkRef s 0 ref = .ok c ∧ c.faults = (k, e) :: rest := by
  revert h
  cases checkRef s 0 ref with
  | error e => exact fun h => Bool.noConfusion h
  | ok c =>
    obtain ⟨f, p, a, u⟩ := c
    cases f with
    | nil => exact fun h => Bool.noConfusion h
    | cons x l =>
      intro h
      obtain rfl : x.1 = k := by simpa using h
      exact ⟨_, x.2, l, rfl, rfl⟩

/-- A first fault that a speculative load defers, and no later one that it could take instead, by evaluation. -/
theorem deferred_of {s : State} {ref : Ref}
    (h : (match checkRef s 0 ref with
      | .ok c => match c.faults with
        | (k, _) :: rest => (defers s k && rest.all fun q => !k.allowsAfter q.1 || defers s q.1)
        | [] => false
      | .error _ => false) = true) :
    ∃ c k e rest, checkRef s 0 ref = .ok c ∧ c.faults = (k, e) :: rest ∧ FaultDeferred s k ∧
      ∀ q ∈ rest, k.allowsAfter q.1 = true → FaultDeferred s q.1 := by
  revert h
  cases checkRef s 0 ref with
  | error e => exact fun h => Bool.noConfusion h
  | ok c =>
    obtain ⟨f, p, a, u⟩ := c
    cases f with
    | nil => exact fun h => Bool.noConfusion h
    | cons x l =>
      intro h
      simp only [Bool.and_eq_true, List.all_eq_true, Bool.or_eq_true, Bool.not_eq_true'] at h
      exact ⟨_, x.1, x.2, l, rfl, rfl, defers_iff.mp h.1, fun q hq ha =>
        defers_iff.mp ((h.2 q hq).resolve_left (by simp [ha]))⟩

/-- A first fault that a speculative load takes, by evaluation. -/
theorem raised_of {s : State} {ref : Ref}
    (h : (match checkRef s 0 ref with
      | .ok c => match c.faults with
        | (k, _) :: _ => !defers s k
        | [] => false
      | .error _ => false) = true) :
    ∃ c k e rest, checkRef s 0 ref = .ok c ∧ c.faults = (k, e) :: rest ∧ ¬FaultDeferred s k := by
  revert h
  cases checkRef s 0 ref with
  | error e => exact fun h => Bool.noConfusion h
  | ok c =>
    obtain ⟨f, p, a, u⟩ := c
    cases f with
    | nil => exact fun h => Bool.noConfusion h
    | cons x l =>
      intro h
      exact ⟨_, x.1, x.2, l, rfl, rfl, fun hd => by simp [defers_iff.mpr hd] at h⟩

/-- A miss with the walker off. -/
theorem missed_of {s : State} {ref : Ref} (h : (s.dataView 0).dt = true) (hu : unimplVa (s.dataView 0).vm ref.va = false)
    (hs : (s.dataView 0).tlb.lookup .data (rrRid ((s.dataView 0).rrOf ref.va)) ref.va = [])
    (hw : walkerEnabled (s.dataView 100) .data ref.va = false) : ∃ e, FaultsWith s ref .tlb e ∧ e.dataMiss = true := by
  have e : ∃ c, checkRef s 0 ref = .ok c ∧ c.st = s ∧ ∃ x l, c.faults = (.tlb, x) :: l ∧ x.dataMiss = true := by
    unfold checkRef searchTlb
    simp only [h, hu, hs, hw, Bool.not_false, Bool.and_self, if_true, Bool.false_eq_true, if_false, Nat.reduceAdd, afterSearch]
    exact ⟨_, rfl, rfl, _, _, rfl, rfl⟩
  obtain ⟨c, h1, h2, x, l, h3, h4⟩ := e
  exact ⟨x, ⟨c, l, h1, h2, h3⟩, h4⟩

/-- An address that a processor with 51 address bits does not implement (95 §2.5 vector 13). -/
theorem unimpl_of (h : Config.hasPsrVm = false) (hm : Config.implVaMsbRaw % 11 = 0) :
    unimplVa false 0x2004000000000000 = true := by
  have e : Config.implVaMsb = 50 := by simp only [Config.implVaMsb, h, hm]; rfl
  unfold unimplVa
  rw [e]
  decide +kernel

theorem wp_memoryOk : MemoryOk (st 0 [(2, 0x10), (3, 0x1000)] [(2, 0x100000)]) := by
  unfold MemoryOk
  decide +kernel

theorem ends_next {o : Out} (h : ends o (fun _ => true) = true) : ∃ t, o = .next t := by
  cases o with
  | next t => exact ⟨t, rfl⟩
  | fault _ => simp [ends] at h
  | refused _ => simp [ends] at h

/-- Level 0, translation off, PSR.ic = 0; GR3 an address. -/
def wp : State := st 0 [(2, 0x10), (3, 0x1000)] [(2, 0x100000)]
/-- The same with PSR.ic = 1. -/
def wIc : State := st 0x2000 [(3, 0x1000)] [(2, 0x100000)]
/-- Level 3. -/
def wUser : State := st 0x300000000 [(3, 0x1000)] [(2, 0x100000)]
/-- PSR.vm = 1. -/
def wVm : State := st 0x400000000000 [(3, 0x1000)] [(2, 0x100000)]
/-- GR5 a NaT, GR4 = 0x40, GR3 = 0x3E. -/
def wBad : State := withNat (st 0 [(3, 0x3E), (4, 0x40)] [(2, 0x100000)]) 5
/-- PSR.i = 1 and vector 0xD0 pending. -/
def wIrq : State := { st 0x4000 [] [(2, 0x100000)] with irr := 1#256 <<< 0xD0 }
/-- Interruption registers that return to physical mode, after a single step, to slot 3, and to virtual mode. -/
def wRfi : State := st 0 [] [(16, 0x2000), (19, 0x4000)]
def wRfiSs : State := st 0x10000000000 [] [(16, 0x2000), (19, 0x4000)]
def wRfi3 : State := st 0 [] [(16, 0x60000002000), (19, 0x4000)]
def wRfiV : State := st 0 [] [(16, 0x1000002000), (19, 0x2000000000010000)]
/-- A reserved bit in IPSR; PSR.rt in IPSR where the RSE is not in enforced lazy mode. -/
def wRfiBad : State := st 0 [] [(16, 0x10000000)]
def wRfiRt : State := st 0 [] [(16, 0x8000000)] [(16, 3)]
/-- The same to IA-32 code, as it must be and not. -/
def wRfiIa : State := st 0 [] [(16, 0x1400022000), (19, 0x123456)]
def wRfiIu : State := st 0 [] [(16, 0x400000000)]
/-- The RSE not in enforced lazy mode; a reserved PSR value in GR2, PSR.rt in GR3. -/
def wRt : State := st 0 [(2, 0x10000000), (3, 0x8000000)] [] [(16, 3)]
/-- PSR.ss = 1; PSR.tb = 1 in a state that may enter IA-32 code; a secured ITC at level 3; bank 1; register
number 255 (GR3). -/
def wSs : State := st 0x10000000000 []
def wIaTb : State := st 0x1004022000 []
def wSi : State := st 0x300800000 []
def wBn : State := st 0x100000000000 []
def wFf : State := st 0 [(2, 0x2004000000000000), (3, 0xFF)]
/-- The last instruction of a group that holds a srlz.i. -/
def wStop : State := { st 0 [] with ctx := { Ctx.none with stopAfter := true }, srlzI := true }
/-- On a promotion page, at level 0 and at level 3. -/
def wProm : State := { st 0x1000000000 [] with ctx := promotion }
def wEpc : State := { st 0x1300000000 [] [] [(64, 0xC000000000000000)] with ctx := promotion }
/-- LC = 3 and CCV = 5. -/
def wAr : State := st 0 [(2, 0x10), (3, 0x1000)] [] [(65, 3), (32, 5)]
/-- PSR.tb = 1; a state that may enter IA-32 code; PSR.sp = 1 at level 3; PSR.ed = 1; both register sets disabled. -/
def wTb : State := st 0x4000000 []
def wIa : State := st 0x1000022000 []
def wPm : State := st 0x300100000 []
def wEd : State := st 0x80000000000 [(3, 0x1000)]
def wDf : State := st 0xC0000 []
/-- A region register value of 4K pages; an unaligned address; an uncacheable one. -/
def wRr : State := st 0 [(2, 0x30)]
/-- A page. -/
def dataPage : TlbEntry := { page 0x10000 14 with ppn := 0x8404 }

/-- A reference that the page allows, without protection keys. -/
theorem mapped_dataPage {s : State} {ref : Ref} (hd : (s.dataView 0).dt = true) (hu : unimplVa s.vm ref.va = false)
    (hl : (s.dataView 0).tlb.lookup .data (rrRid ((s.dataView 0).rrOf ref.va)) ref.va = [dataPage])
    (hk : (s.dataView 0).pk = false)
    (hr : rights 2 0 ref.pl .r = true ∧ rights 2 0 ref.pl .w = true)
    {pa : Nat} (hp : dataPage.pa ref.va = pa) : Mapped s ref pa .wb :=
  .inr ⟨hd, hu, _, hl, rfl, by decide, fun h => absurd (hk.symm.trans h) (by decide), fun _ => hr.1, fun _ => hr.2,
    fun _ => .inl rfl, .inl rfl, hp.symm, rfl⟩

/-- PSR.ac = 1, the address one byte off (GR3) and in a page; PSR.db = 1; PSR.ac = 0 and the address crosses 16 bytes, or not. -/
def wAc : State := st 0x8 [(2, 0x10), (3, 0x1001)]
def wAcV : State := pagedAs 0x20008 [(2, 0x10), (3, 0x2000000000012341)] dataPage
def wDb : State := st 0x1000000 [(3, 0x1000)]
def wCross : State := st 0 [(2, 0x10), (3, 0x100C)]
/-- The last bundle of the virtual and of the physical address space. -/
def wTop : State := { st 0x1000000000 [] [(2, 0x100000)] with ip := 0xFFFFFFFFFFFFFFF0, slot := 2 }
def wTopP : State := { st 0 [] [(2, 0x100000)] with ip := 0x7FFFFFFFFFFFFFF0, slot := 2 }
def wOdd : State := st 0 [(2, 0x10), (3, 0x1004)]
def wUc : State := st 0 [(3, 0x8000000000001000)]
/-- Operands of an insert and of a purge (95 §2.3 vectors 10 and 20). -/
def wIns : State := onSys (st 0 [(2, 0x4000261)] [(20, 0x4000000000006000), (21, 0x934)]) fun y => { y with rr := wr y.rr 2 0x900 }
/-- The same with a translation register of each side that overlaps, with a register in use, and with write-combining. -/
def wInsTr : State := onSys wIns fun y =>
  { y with dtr := wr y.dtr 1 (some { page 0x6000 12 with rid := 9 }), itr := wr y.itr 1 (some { page 0x6000 12 with rid := 9 }) }
def wInsLive : State := onSys wIns fun y => { y with dtr := wr y.dtr 0 (some (page 0 12)), itr := wr y.itr 0 (some (page 0 12)) }
def wInsWc : State := onSys (st 0 [(2, 0x4000279)] [(20, 0x4000000000006000), (21, 0x934)]) fun y => { y with rr := wr y.rr 2 0x900 }
/-- The same with a reserved attribute, and with physical address bit 49. -/
def wInsBad : State := onSys (st 0 [(2, 0x4000265)] [(20, 0x4000000000006000), (21, 0x934)]) fun y => { y with rr := wr y.rr 2 0x900 }
def wInsPpn : State := onSys (st 0 [(2, 0x2000000000261)] [(20, 0x4000000000006000), (21, 0x934)]) fun y => { y with rr := wr y.rr 2 0x900 }
/-- A register number (GR4) that may be out of range; an IFA that may be unimplemented. -/
def wInsBig : State := st 0 [(2, 0x4000261), (4, 0xFF)] [(20, 0x4000000000006000), (21, 0x934)]
def wInsIfa : State := st 0 [(2, 0x4000261)] [(20, 0x2004000000000000), (21, 0x934)]
/-- A purge of a page size that is never purgeable. -/
def wPur0 : State := onSys (st 0 [(3, 0x2000000000002000)]) fun y => { y with rr := wr y.rr 1 0x5530 }
def wPur : State := onSys (st 0 [(2, 0x34), (3, 0x2000000000002000)]) fun y => { y with rr := wr y.rr 1 0x5530 }
/-- PSR.dt = 1, a purgeable page size, an address that 51 bits do not hold. -/
def wFarPur : State := st 0x20000 [(2, 0x34), (3, 0x2004000000000000)]
/-- PSR.dt = 1 with an address in a page (GR3) and one outside (GR2); a miss. -/
def wv : State := pagedAs 0x20000 [(2, 0x2000000000022340), (3, 0x2000000000012340)] dataPage
def ucePage : TlbEntry := { dataPage with ma := 5 }
def wUce : State := pagedAs 0x20000 [(3, 0x2000000000012340)] ucePage
def wMiss : State := st 0x20000 [(3, 0x2000000000012340)]
/-- A miss with PSR.ic = 1, and one that DCR.dm defers, on a page with ed = 1. -/
def wMissIc : State := st 0x22000 [(3, 0x2000000000012340)]
def wMissEd : State :=
  { st 0x22000 [(3, 0x2000000000012340)] [(0, 0x100)] with ctx := { Ctx.none with translated := true, ed := true } }
/-- The line at 0x1000 is mapped as uncacheable too. -/
def wAlias : State := onSys wp fun y => { y with dtcTlb := [{ page 0 12 with ppn := 1, ma := 4 }] }
/-- Another page, a protection key register. -/
def wPage (e : TlbEntry) : State := pagedAs 0x20000 [(3, 0x2000000000012340)] e
def wKey (k : Word) : State := onSys (pagedAs 0x28000 [(3, 0x2000000000012340)] dataPage) fun y => { y with pkr := wr y.pkr 2 k }
/-- FR4 holds NaTVal. -/
def wNatVal : State := { wp with fr := wr wp.fr 4 Config.natVal }
/-- The interval timer one before its match; a message to this processor; a byte of the interrupt block. -/
def wTim : State := st 0 [] [(1, 1), (72, 0x50)]
def wIpi : State := st 0 [(2, 0x60), (3, 0x80000000FEE00000)]
def wPib (o : Word) : State := st 0 [(2, 0x60), (3, 0x80000000FEE00000 + o)]
/-- A PTA, a region with its walker on, table entries in memory, the pages that map a table. -/
def wWalk (pta : Word) (l : List TlbEntry) : State :=
  { onSys (st 0x20000 [] [(8, pta)]) (fun y => { y with rr := wr y.rr 1 0x5531, dtcTlb := l }) with
    mem := writeList (writeList [] 0x10110 (leBytes 8 0x8404461)) 0x10040 (leBytes 8 0x8404461 ++ leBytes 8 0x5530 ++ leBytes 8 7) }
def wTwo : State := onSys (wWalk 0x13D []) fun y => { y with rr := wr y.rr 2 0x5539 }
def tablePage : TlbEntry := { page 0 12 with ppn := 0x10 }
def longPage : TlbEntry := { page 0 12 with ppn := 0x10, vrn := 0, rid := 0 }
def wRef8 : Ref := { va := wp.val 3, size := 8, align := 8, r := true, pl := wp.cpl }
def wRef16 : Ref :=
  { va := wp.val 3, size := 16, align := 16, r := true, strict := true, sup := .writeBackOnly, pl := wp.cpl }
def wRef16w : Ref :=
  { va := wp.val 3, size := 16, align := 16, w := true, dirty := true, strict := true, sup := .writeBackOnly, pl := wp.cpl }
/-- A double load or store of FR8, a check load of FR4, a pair load of FR8 and FR9. -/
def wLdfd : FpForm := fpFormOf 0 .double .plain 8 3 .none
def wLdfC : FpForm := fpFormOf 0 .double .cClr 4 3 .none
def wPair : PairForm := ⟨0, .double, .plain, 8, 9, 3, .none⟩
/-- ALAT entries for GR4 and FR4. -/
def wAlat : State :=
  { wp with alat := [{ fp := false, reg := 4, pa := 0x1000, size := 8 }, { fp := true, reg := 4, pa := 0x1000, size := 8 }] }
/-- An executable page, and addp4 in it with PSR.it = 1. -/
def codePage : TlbEntry := { page 0x10000 14 with ppn := 0x8404, ar := 3 }
def wFetch : State :=
  { onSys (st 0x1000000000 []) (fun y => { y with rr := wr y.rr 1 0x5530, itcTlb := [codePage] }) with
    ip := 0x2000000000010000
    mem := writeList [] 0x8404000 (leBytes 16 (bundleWith 0x01 0 0x10040304040)) }
/-- Other pages for a fetch at the same address; a key that disables execution; an address far out. -/
def wCode (psr : Word) (l : List TlbEntry) : State := onSys wFetch fun y => { y with psr := psr, itcTlb := l }
def wCodeKey : State := onSys (wCode 0x1000008000 [codePage]) fun y => { y with pkr := wr y.pkr 2 9 }
def wFar : State := { wFetch with ip := 0x2004000000000000 }
def wFetched : State := { wFetch with ctx := Ctx.none }
def wEarly : State := { wFetch with srlzI := true, fetchOld := [{ wFetch.sys with rr := wr wFetch.sys.rr 1 0x5630 }] }

theorem test_witness_MemoryOkKept : MemoryOk wStep ∧ ∃ t, step wStep = .next t :=
  ⟨by unfold MemoryOk; decide +kernel, ends_next (by decide +kernel)⟩

theorem test_witness_PsrCleanKept : PsrClean wStep ∧ ∃ t, step wStep = .next t :=
  ⟨by unfold PsrClean; decide +kernel, ends_next (by decide +kernel)⟩

theorem test_witness_PkrUniqueKept : PkrUnique wStep ∧ ∃ t, step wStep = .next t := by
  refine ⟨fun i j hi hj hv _ _ => ?_, ends_next (by decide +kernel)⟩
  have hr : rd wStep.sys.pkr i 0 = 0 := by
    unfold rd
    rw [show wStep.sys.pkr = Vector.replicate 256 0 from rfl, Vector.getElem?_replicate]
    split <;> rfl
  rw [hr] at hv
  exact absurd hv (by decide)

theorem test_witness_DecodeEncode :
    (Instr.memUpd 0 (.load 3 .plain 1) 3 (.reg 2) 0).WF :=
  by decide +kernel

theorem test_witness_StoreReadsBack :
    Memory.wf [] = true :=
  by decide +kernel

theorem test_witness_StepRunsDecoded_physical :
    Fetches wStep ∧
    (unimplInstr wStep wStep.ip = false ∧ wStep.fetchesEarly = false ∧ (wStep.fetchView 0).db = false ∧ wStep.psrNow Psr.it = false ∧ 0x1000 = wStep.ip.toNat % 2 ^ 63) ∧
    Attr.wbl = (if bit wStep.ip 63 then .uc else .wbl) ∧
    wStep.slot ≠ 3 ∧
    Ordinary wStep .wbl 0x1000 16 ∧
    (∀ a, inBytes 0x1000 16 a = true → staleValues wStep.stale a = []) ∧
    ((match decodeBundleSlot (BitVec.ofNat 128 (leVal (readList wStep.mem 0x1000 16))) wStep.slot.toNat with
      | some info => decide (info.result = .ok (.addp4 0 1 2 3)) && !info.mlxTail
      | none => false) = true ∧ (Instr.addp4 0 1 2 3).mustEndGroup = false ∧ (Instr.addp4 0 1 2 3).breaksGroup wStep = false) :=
  ⟨⟨.inl rfl, rfl, by decide +kernel, by decide +kernel⟩, by decide +kernel, rfl, by decide +kernel, ⟨by decide +kernel, by decide +kernel, by decide +kernel⟩, fun _ _ => rfl, by decide +kernel⟩

/-- The region register of the fetch in flight, in the group of its srlz.i; also of an instruction with a false predicate. -/
theorem test_witness_StepRunsDecoded_early :
    Fetches wEarly ∧
    unimplInstr wEarly wEarly.ip = false ∧
    wEarly.fetchesEarly = true :=
  ⟨⟨.inl rfl, rfl, by decide +kernel, by decide +kernel⟩, by decide +kernel, by decide +kernel⟩

/-- 70_reset_and_hazards.md R560 (a): such a fetch is refused. -/
theorem test_fetch_early : step wEarly = .refused .dependencyViolation := by rfl

theorem test_witness_StepRunsDecoded_virtual :
    Fetches wFetch ∧
    (unimplInstr wFetch wFetch.ip = false ∧ wFetch.fetchesEarly = false ∧ (wFetch.fetchView 0).db = false ∧ wFetch.psrNow Psr.it = true) ∧
    (∃ u, searchTlb wFetched (wFetch.fetchView 0) (wFetch.fetchView 100) .instr wFetch.ip = .found codePage u) ∧
    ((∀ c ∈ instrFaults wFetch (wFetch.fetchView 0) codePage, c.1 = false) ∧ 0x8404000 = codePage.pa wFetch.ip) ∧
    Attr.wb = attrOf codePage.ma ∧
    wFetch.slot ≠ 3 ∧
    Ordinary wFetch .wb 0x8404000 16 ∧
    (∀ a, inBytes 0x8404000 16 a = true → staleValues wFetch.stale a = []) ∧
    ((match decodeBundleSlot (BitVec.ofNat 128 (leVal (readList wFetch.mem 0x8404000 16))) wFetch.slot.toNat with
      | some info => decide (info.result = .ok (.addp4 0 1 2 3)) && !info.mlxTail
      | none => false) = true ∧ (Instr.addp4 0 1 2 3).mustEndGroup = false ∧ (Instr.addp4 0 1 2 3).breaksGroup wFetch = false) :=
  ⟨⟨.inl rfl, rfl, by decide +kernel, by decide +kernel⟩, by decide +kernel, ⟨wFetched, found_of (by decide +kernel)⟩, by decide +kernel, rfl, by decide +kernel, ⟨by decide +kernel, by decide +kernel, by decide +kernel⟩, fun _ _ => rfl, by decide +kernel⟩

theorem test_witness_InterruptionEntry :
    Settled wIc ∧
    wIc.psrNow Psr.ic = true ∧
    ivaBad wIc (wIc.sys.getCr 2 &&& 0xFFFFFFFFFFFF8000) = false :=
  ⟨⟨rfl, rfl⟩, by decide +kernel, by decide +kernel⟩

theorem test_witness_InterruptionEntryNotCollected :
    Settled wp ∧
    wp.psrNow Psr.ic = false ∧
    ivaBad wp (wp.sys.getCr 2 &&& 0xFFFFFFFFFFFF8000) = false :=
  ⟨⟨rfl, rfl⟩, by decide +kernel, by decide +kernel⟩

theorem test_witness_ExternalInterruptTaken :
    ((wIrq.mcOwed = false ∨ wIrq.psrNow Psr.mc = true)) ∧
    wIrq.palOwed = false ∧
    wIrq.psrNow Psr.is = false ∧
    wIrq.interruptPending = true :=
  ⟨by decide +kernel, by decide +kernel, by decide +kernel, by decide +kernel⟩

theorem test_witness_RfiReturns_physical :
    Settled wRfi ∧
    (wRfi.cpl = 0 ∧ psrReservedSet (wRfi.sys.getCr 16) = false ∧ wRfi.vm = false ∧ rtChanges wRfi (wRfi.sys.getCr 16) = false) ∧
    (bit (wRfi.sys.getCr 16) Psr.is = false ∧ field (wRfi.sys.getCr 16) 41 2 ≠ (3 : BitVec 2) ∧ wRfi.psrNow Psr.ss = false ∧ (if bit (wRfi.sys.getCr 16) Psr.it then unimplVa (bit (wRfi.sys.getCr 16) Psr.vm && Config.hasPsrVm) (wRfi.sys.getCr 19 &&& ~~~15#64)
      else unimplPa (wRfi.sys.getCr 19 &&& ~~~15#64)) = false) :=
  ⟨⟨rfl, rfl⟩, by decide +kernel, by decide +kernel⟩

theorem test_witness_RfiReturns_virtual :
    Settled wRfiV ∧
    (wRfiV.cpl = 0 ∧ psrReservedSet (wRfiV.sys.getCr 16) = false ∧ wRfiV.vm = false ∧ rtChanges wRfiV (wRfiV.sys.getCr 16) = false) ∧
    (bit (wRfiV.sys.getCr 16) Psr.is = false ∧ field (wRfiV.sys.getCr 16) 41 2 ≠ (3 : BitVec 2) ∧ wRfiV.psrNow Psr.ss = false ∧ (if bit (wRfiV.sys.getCr 16) Psr.it then unimplVa (bit (wRfiV.sys.getCr 16) Psr.vm && Config.hasPsrVm) (wRfiV.sys.getCr 19 &&& ~~~15#64)
      else unimplPa (wRfiV.sys.getCr 19 &&& ~~~15#64)) = false) :=
  ⟨⟨rfl, rfl⟩, by decide +kernel, by decide +kernel⟩

theorem test_witness_RfiReturns_step :
    Settled wRfiSs ∧
    (wRfiSs.cpl = 0 ∧ psrReservedSet (wRfiSs.sys.getCr 16) = false ∧ wRfiSs.vm = false ∧ rtChanges wRfiSs (wRfiSs.sys.getCr 16) = false) ∧
    (bit (wRfiSs.sys.getCr 16) Psr.is = false ∧ field (wRfiSs.sys.getCr 16) 41 2 ≠ (3 : BitVec 2) ∧ wRfiSs.psrNow Psr.ss = true ∧ (if bit (wRfiSs.sys.getCr 16) Psr.it then unimplVa (bit (wRfiSs.sys.getCr 16) Psr.vm && Config.hasPsrVm) (wRfiSs.sys.getCr 19 &&& ~~~15#64)
      else unimplPa (wRfiSs.sys.getCr 19 &&& ~~~15#64)) = false) :=
  ⟨⟨rfl, rfl⟩, by decide +kernel, by decide +kernel⟩

/-- A reserved bit in IPSR; a change of PSR.rt outside enforced lazy mode. -/
theorem test_witness_RfiReturns_stops :
    (Settled wRfiBad ∧ wRfiBad.cpl = 0 ∧ psrReservedSet (wRfiBad.sys.getCr 16) = true) ∧
    (Settled wRfiRt ∧ wRfiRt.cpl = 0 ∧ psrReservedSet (wRfiRt.sys.getCr 16) = false ∧ wRfiRt.vm = false ∧
      rtChanges wRfiRt (wRfiRt.sys.getCr 16) = true) :=
  ⟨⟨⟨rfl, rfl⟩, by decide +kernel, by decide +kernel⟩, ⟨rfl, rfl⟩, by decide +kernel, by decide +kernel, by decide +kernel,
    by decide +kernel⟩

theorem test_witness_RfiReturns_slot :
    Settled wRfi3 ∧
    wRfi3.cpl = 0 ∧
    psrReservedSet (wRfi3.sys.getCr 16) = false ∧
    wRfi3.vm = false ∧
    rtChanges wRfi3 (wRfi3.sys.getCr 16) = false ∧
    bit (wRfi3.sys.getCr 16) Psr.is = false ∧
    field (wRfi3.sys.getCr 16) 41 2 = (3 : BitVec 2) :=
  ⟨⟨rfl, rfl⟩, by decide +kernel, by decide +kernel, by decide +kernel, by decide +kernel, by decide +kernel, by decide +kernel⟩

theorem test_witness_RfiReturns_ia32 :
    Settled wRfiIa ∧
    (wRfiIa.cpl = 0 ∧ psrReservedSet (wRfiIa.sys.getCr 16) = false ∧ wRfiIa.vm = false ∧ rtChanges wRfiIa (wRfiIa.sys.getCr 16) = false) ∧
    (bit (wRfiIa.sys.getCr 16) Psr.is = true ∧ bit (wRfiIa.sys.getCr 16) Psr.ic = true ∧ bit (wRfiIa.sys.getCr 16) Psr.dt = true ∧ bit (wRfiIa.sys.getCr 16) Psr.it = true) ∧
    (bit (wRfiIa.sys.getCr 16) Psr.mc = false ∧ wRfiIa.psrNow Psr.ss = false) :=
  ⟨⟨rfl, rfl⟩, by decide +kernel, by decide +kernel, by decide +kernel⟩

theorem test_witness_RfiReturns_ia32Undefined :
    Settled wRfiIu ∧
    (wRfiIu.cpl = 0 ∧ psrReservedSet (wRfiIu.sys.getCr 16) = false ∧ wRfiIu.vm = false ∧ rtChanges wRfiIu (wRfiIu.sys.getCr 16) = false) ∧
    (bit (wRfiIu.sys.getCr 16) Psr.is = true ∧ bit (wRfiIu.sys.getCr 16) Psr.ic = false ∧ bit (wRfiIu.sys.getCr 16) Psr.dt = false ∧ bit (wRfiIu.sys.getCr 16) Psr.it = false) :=
  ⟨⟨rfl, rfl⟩, by decide +kernel, by decide +kernel⟩

theorem test_witness_PrivilegedOnlyAtLevelZero :
    privileged (.ssm 0 0) = true ∧
    wUser.pred (qpOf (.ssm 0 0)) = true ∧
    ((wUser.pred (qpOf .vmsw0) = true ∧ wUser.pred (qpOf .vmsw1) = true)) ∧
    wUser.cpl ≠ 0 :=
  ⟨by decide +kernel, by decide +kernel, by decide +kernel, by decide +kernel⟩

/-- On a processor that has PSR.vm; privileged and other virtualized instructions. -/
theorem test_witness_VirtualizedPrivileged (h : Config.hasPsrVm = true) :
    privileged (.ssm 0 0) = true ∧
    wVm.pred (qpOf (.ssm 0 0)) = true ∧
    wVm.psrNow Psr.vm = true ∧
    Config.hasPsrVm = true ∧
    wVm.cpl = 0 ∧
    virtualReady wVm (.ssm 0 0) ∧
    virtualReady wVm (.cover) ∧
    virtualReady wVm (.thash 0 1 3) ∧
    virtualReady wVm (.bsw0) ∧
    virtualReady wVm (.movToAr 0 44 3) ∧
    virtualReady wVm (.movToCr 0 20 3) :=
  ⟨by decide +kernel, by decide +kernel, by decide +kernel, h, by decide +kernel, by show (0#24).setWidth 64 &&& 0x11FC1#64 = 0; decide, trivial, by show (1#7) ≠ 0; decide, trivial, ⟨rfl, by decide +kernel⟩, ⟨by decide +kernel, by decide +kernel, fun _ _ => by decide +kernel, by decide +kernel, by decide +kernel, fun _ => by decide +kernel⟩⟩

theorem test_witness_FalsePredicateDoesNothing :
    wp.pred (qpOf (.breakM 1 5)) = false ∧
    wp.pred (qpOf (.brRel (.wtop 1 0 0 0 0))) = false ∧
    Quiet wp :=
  ⟨by decide +kernel, by decide +kernel, ⟨rfl, rfl⟩⟩

/-- For each form of break: any immediate. -/
theorem test_witness_Breaks :
    wIc.pred 0 = true ∧
    Settled wIc ∧
    wIc.psrNow Psr.ic = true ∧
    ivaBad wIc (wIc.sys.getCr 2 &&& 0xFFFFFFFFFFFF8000) = false :=
  ⟨by decide +kernel, ⟨rfl, rfl⟩, by decide +kernel, by decide +kernel⟩

theorem test_witness_HintsAndFencesComplete :
    Quiet wp ∧
    Instr.nopM 0 0 ∈ [Instr.nopM 0 0] :=
  ⟨⟨rfl, rfl⟩, by simp⟩

/-- Both clauses: a target of 0 or not. -/
theorem test_witness_PointerAdds :
    wp.pred 0 = true ∧
    Quiet wp :=
  ⟨by decide +kernel, ⟨rfl, rfl⟩⟩

/-- A reserved immediate, a NaT, a reserved value, the largest immediate, the largest value. -/
theorem test_witness_UserMaskWrites :
    wBad.pred 0 = true ∧
    (0x40#24).setWidth 64 &&& ~~~0x3E#64 ≠ 0 ∧
    wBad.nat 5 = true ∧
    wBad.nat 4 = false ∧
    wBad.val 4 &&& ~~~0x3E#64 ≠ 0 ∧
    (0x3E#24).setWidth 64 &&& ~~~0x3E#64 = 0 ∧
    wBad.nat 3 = false ∧
    wBad.val 3 &&& ~~~0x3E#64 = 0 ∧
    Quiet wBad :=
  ⟨by decide +kernel, by decide, by decide +kernel, by decide +kernel, by decide +kernel, by decide, by decide +kernel, by decide +kernel, ⟨rfl, rfl⟩⟩

/-- A reserved immediate, and the largest legal one, PSR.i in it. -/
theorem test_witness_SystemMaskWrites :
    wp.pred 0 = true ∧
    wp.cpl = 0 ∧
    (0x40#24).setWidth 64 &&& 0x11FC1#64 ≠ 0 ∧
    (0xFEE03E#24).setWidth 64 &&& 0x11FC1#64 = 0 ∧
    wp.vm = false ∧
    Quiet wp :=
  ⟨by decide +kernel, by decide +kernel, by decide, by decide, by decide +kernel, ⟨rfl, rfl⟩⟩

theorem test_witness_PsrMoves :
    wp.pred 0 = true ∧
    Quiet wp ∧
    wp.cpl = 0 ∧
    wp.nat 2 = false ∧
    wp.val 2 &&& 0xF0011FC1#64 = 0 ∧
    wp.vm = false ∧
    rtChanges wp (wp.val 2) = false :=
  ⟨by decide +kernel, ⟨rfl, rfl⟩, by decide +kernel, by decide +kernel, by decide +kernel, by decide +kernel, by decide +kernel⟩

/-- A reserved value (GR2), a new PSR.rt (GR3), level 3. -/
theorem test_witness_PsrMoves_stops :
    (wRt.pred 0 = true ∧ wRt.cpl = 0 ∧ (wRt.nat 2 = false ∧ wRt.val 2 &&& 0xF0011FC1#64 ≠ 0) ∧ (wRt.nat 3 = false ∧ wRt.val 3 &&& 0xF0011FC1#64 = 0)) ∧
    (wRt.vm = false ∧ rtChanges wRt (wRt.val 3) = true ∧ wUser.pred 0 = true ∧ wUser.cpl ≠ 0) :=
  ⟨by decide +kernel, by decide +kernel⟩

theorem test_witness_PsrMoves_nat :
    ((wBad.pred 0 = true ∧ wBad.cpl = 0 ∧ wBad.nat 5 = true)) :=
  by decide +kernel

/-- On a processor that has PSR.vm. -/
theorem test_witness_PsrMoves_virt (h : Config.hasPsrVm = true) :
    wVm.pred 0 = true ∧
    wVm.cpl = 0 ∧
    wVm.vm = true :=
  ⟨by decide +kernel, by decide +kernel, by simp only [State.vm, h, Bool.and_true]; decide +kernel⟩

/-- Either bank, level 3, the middle of a group. -/
theorem test_witness_BankSwitches :
    wp.cpl = 0 ∧
    wp.vm = false ∧
    Quiet wp ∧
    wUser.cpl ≠ 0 ∧
    wp.ctx.stopAfter = false ∧
    wp.psrNow Psr.bn = false ∧
    ((wBn.psrNow Psr.bn = true ∧ wBn.cpl = 0 ∧ wBn.vm = false)) ∧
    Quiet wBn ∧
    Settled wp ∧
    Settled wBn :=
  ⟨by decide +kernel, by decide +kernel, ⟨rfl, rfl⟩, by decide +kernel, by decide +kernel, by decide +kernel, by decide +kernel, ⟨rfl, rfl⟩, ⟨rfl, rfl⟩, ⟨rfl, rfl⟩⟩

/-- On a processor that has PSR.vm. -/
theorem test_witness_BankSwitches_virt (h : Config.hasPsrVm = true) :
    wVm.cpl = 0 ∧
    wVm.vm = true :=
  ⟨by decide +kernel, by simp only [State.vm, h, Bool.and_true]; decide +kernel⟩

/-- On a promotion page and elsewhere. -/
theorem test_witness_VirtualMachineSwitch :
    wProm.cpl = 0 ∧
    wProm.psrNow Psr.it = true ∧
    wProm.ctx.ar = 7 ∧
    wProm.psrNow Psr.ss = false ∧
    unimplVa true wProm.ip = false ∧
    (lastSlot wProm = true → wProm.ip + 16 ≠ 0 ∧ ∀ vm, unimplVa vm (wProm.ip + 16) = false) ∧
    ((wp.psrNow Psr.it = false ∧ wp.cpl = 0 ∧ unimplVa true wp.ip = false ∧ lastSlot wp = false)) :=
  ⟨by decide +kernel, by decide +kernel, by decide +kernel, by decide +kernel, by decide +kernel, fun h => absurd h (by decide +kernel), by decide +kernel⟩

theorem test_witness_EpcPromotes :
    Quiet wEpc ∧
    wEpc.dataWrites = 0 ∧
    wEpc.cpl.toNat ≤ (pfsPpl (wEpc.getAr Ar.pfs)).toNat ∧
    wEpc.psrNow Psr.it = true ∧
    (pfsPpl (wUser.getAr Ar.pfs)).toNat < wUser.cpl.toNat :=
  ⟨⟨rfl, rfl⟩, by decide +kernel, by decide +kernel, by decide +kernel, by decide +kernel⟩

theorem test_witness_EpcPromotes_physical :
    Quiet wp ∧
    wp.dataWrites = 0 ∧
    wp.cpl.toNat ≤ (pfsPpl (wp.getAr Ar.pfs)).toNat ∧
    wp.psrNow Psr.it = false :=
  ⟨⟨rfl, rfl⟩, by decide +kernel, by decide +kernel, by decide +kernel⟩

theorem test_witness_FrameMarker :
    Quiet wp ∧
    wp.vm = false :=
  ⟨⟨rfl, rfl⟩, by decide +kernel⟩

theorem test_witness_BranchesTaken :
    wp.pred 0 = true ∧
    QuietBranch wp (wp.getBr 0) ∧
    QuietBranch wp (wp.ip + ((2#21).signExtend 64 <<< 4)) ∧
    wAr.getAr 65 ≠ 0 ∧
    QuietBranch wAr (wAr.ip + ((2#21).signExtend 64 <<< 4)) ∧
    Quiet wp ∧
    wp.getAr 65 = 0 :=
  ⟨by decide +kernel, ⟨rfl, rfl, by decide +kernel⟩, ⟨rfl, rfl, by decide +kernel⟩, by decide +kernel, ⟨rfl, rfl, by decide +kernel⟩, ⟨rfl, rfl⟩, by decide +kernel⟩

theorem test_witness_ReturnBranch :
    wp.pred 0 = true ∧
    QuietBranch wp (wp.getBr 0) ∧
    wp.dpsr Psr.lp = false ∧
    Settled wp :=
  ⟨by decide +kernel, ⟨rfl, rfl, by decide +kernel⟩, by decide +kernel, ⟨rfl, rfl⟩⟩

/-- 10 R31: the last bundle, in either mode, and one that is not. -/
theorem test_witness_BranchTraps_top :
    CompletesTo wTop (.nopI 0 0) wTop ∧
    (lastSlot wTop && decide ((if wTop.psrNow Psr.it then (advanced wTop wTop).ip else (advanced wTop wTop).ip <<< 1) = 0)) = true ∧
    (lastSlot wTopP && decide ((if wTopP.psrNow Psr.it then (advanced wTopP wTopP).ip else (advanced wTopP wTopP).ip <<< 1) = 0)) = true :=
  ⟨.plain _ 0 0 (by decide +kernel) (by simp), by decide +kernel, by decide +kernel⟩

/-- 10 R31: IP does not silently wrap: the trap or the fault, by the parameter. -/
theorem test_top : ends (exec (.nopI 0 0) wTop) (entered 0x5E00 0x10) = true := by
  have hp : (lastSlot wTop && pastTop (advanced wTop wTop) (advanced wTop wTop).ip) = true := by decide +kernel
  have e : exec (.nopI 0 0) wTop = finish wTop wTop := rfl
  rw [e]
  unfold finish
  have hs : wTop.psrNow Psr.ss = false := by decide +kernel
  cases h : seqUia wTop (advanced wTop wTop) <;> simp only [hp, h, withTraps, hs] <;> decide +kernel

/-- A branch that traps, one that does not, a predicate that is off and an instruction that completes, each with and without a single step, br.ia. -/
theorem test_witness_BranchTraps :
    TakenTo wTb (.brCond 0 0 0 0 0) wTb (wTb.getBr 0) false ∧
    TakenTo wAr (.brRel (.cloop 2 0 0 0)) (wAr.setAr 65 (wAr.getAr 65 - 1)) (wAr.ip + ((2#21).signExtend 64 <<< 4)) false ∧
    wTb.dpsr Psr.tb = true ∧
    CompletesTo wSs (.nopM 0 0) wSs ∧
    CompletesTo wp (.movFromAr 0 4 32) (wp.setVal 4 (wp.getAr 32)) ∧
    ((wSs.psrNow Psr.ss = true ∧ wSs.pred (qpOf (.breakM 1 5)) = false)) ∧
    ((wp.psrNow Psr.ss = false ∧ lastSlot wp = false ∧ wp.pred (qpOf (.breakM 1 5)) = false)) ∧
    ((wIaTb.dpsr Psr.di = false ∧ wIaTb.dpsr Psr.ic = true ∧ wIaTb.dpsr Psr.dt = true)) ∧
    ((wIaTb.psrNow Psr.it = true ∧ wIaTb.psrNow Psr.mc = false ∧ wIaTb.dpsr Psr.tb = true)) :=
  ⟨.cond 0 0 0 0 0 (by decide +kernel), .loop 2 0 0 0 (by decide +kernel), by decide +kernel, .plain _ 0 0 (by decide +kernel) (by simp), .fromCcv 0 4 (by decide +kernel) (by decide), by decide +kernel, by decide +kernel, by decide +kernel, by decide +kernel⟩

theorem test_witness_Ia32Entry :
    (wIa.dpsr Psr.di = false ∧ wIa.dpsr Psr.ic = true ∧ wIa.dpsr Psr.dt = true ∧ wIa.psrNow Psr.it = true) ∧
    (wIa.psrNow Psr.mc = false ∧ wIa.psrNow Psr.ss = false ∧ wIa.dpsr Psr.tb = false ∧ (st 0x400000 []).dpsr Psr.di = true) ∧
    ((wp.dpsr Psr.di = false ∧ wp.dpsr Psr.ic = false)) :=
  ⟨by decide +kernel, by decide +kernel, by decide +kernel⟩

/-- With GR4 = 0: the first and last registers, the interruption registers, IVA, IFA, IIPA, IHA and EOI. -/
theorem test_witness_ControlRegisterWrites :
    ((∀ n ∈ [0, 1, 2, 16, 20, 22, 25, 66, 67, 81], crDefined n = true ∧ crReadOnly n = false ∧ crReserved n 0 = false) ∧ wp.pred 0 = true ∧ wp.dpsr Psr.ic = false ∧ wp.cpl = 0) ∧
    ((wp.nat 4 = false ∧ wp.val 4 = 0) ∧ unimplVa wp.vm 0 = false ∧ wp.vm = false) ∧
    Quiet wp :=
  ⟨by decide +kernel, by decide +kernel, ⟨rfl, rfl⟩⟩

/-- Each clause at the ends of its range; IVR with no and with a deliverable vector. -/
theorem test_witness_ControlRegisterReads :
    ((∀ n ∈ [0, 1, 2, 16, 21, 25, 64, 65, 66, 67, 68, 71, 72, 81], crDefined n = true) ∧ wp.pred 0 = true ∧ wp.dpsr Psr.ic = false ∧ wp.cpl = 0) ∧
    wp.vm = false ∧
    Settled wp ∧
    Quiet wp ∧
    (wp.deliverable = none ∧ wIrq.deliverable = some 0xD0) :=
  ⟨by decide +kernel, by decide +kernel, ⟨rfl, rfl⟩, ⟨rfl, rfl⟩, by decide +kernel⟩

theorem test_witness_ApplicationRegisterMoves :
    ((∀ n ∈ [0, 7, 32, 44, 66], arNamed n = true) ∧ wp.pred 0 = true ∧ wp.cpl = 0 ∧ wp.vm = false) ∧
    (wp.nat 2 = false ∧ (wp.dpsr Psr.si = false ∧ wp.dpsr Psr.si 1 = false)) ∧
    Quiet wp ∧
    ((wUser.pred 0 = true ∧ wUser.cpl ≠ 0)) ∧
    Quiet wUser :=
  ⟨by decide +kernel, by decide +kernel, ⟨rfl, rfl⟩, by decide +kernel, ⟨rfl, rfl⟩⟩

/-- The numbers next to the ones that exist; level 3; a NaT and reserved values; a secured ITC; the largest number, which is out of range where fewer than 256 registers exist. -/
theorem test_witness_SpecialRegisterStops :
    ((∀ n ∈ [3, 7, 9, 15, 18, 26, 63, 75, 79, 82, 127], crDefined n = false) ∧ (wIc.dpsr Psr.ic = true ∧ wIc.pred 0 = true) ∧ wUser.pred 0 = true ∧ wUser.cpl ≠ 0) ∧
    ((crDefined 0 = true ∧ crReadOnly 0 = false ∧ crDefined 81 = true ∧ crReadOnly 81 = false) ∧ wBad.pred 0 = true ∧ wBad.cpl = 0 ∧ (wBad.nat 5 = true ∧ wBad.nat 4 = false)) ∧
    (crReserved 0 (wBad.val 4) = true ∧ (∀ n ∈ [8, 15, 20, 22, 31, 48, 67, 127], arNamed n = false) ∧ (∀ n ∈ [0, 7, 44], arNamed n = true) ∧ wSi.pred 0 = true) ∧
    ((wSi.vm = false ∧ wSi.dpsr Psr.si 1 = true ∧ wSi.cpl ≠ 0) ∧ (wBad.nat 3 = false ∧ rrReserved (wBad.val 3) = true) ∧ (pkrReserved (wRt.val 4) (wBad.val 4) = true ∧ wRt.val 4 = 0) ∧ ((wFf.val 3).extractLsb' 0 8).toNat = 255) ∧
    (wFf.pred 0 = true ∧ (wFf.cpl = 0 ∧ wFf.nat 3 = false ∧ wFf.nat 2 = false)) :=
  ⟨by decide +kernel, by decide +kernel, by decide +kernel, by decide +kernel, by decide +kernel⟩

/-- On processors that choose so. -/
theorem test_witness_SpecialRegisterStops_parameters (hd : Config.numDbr ≤ 255) (hi : Config.numIbr ≤ 255) (hm : Config.numPm ≤ 255) (hk : Config.numPkr ≤ 255)
    (hc : Config.numCpuid ≤ 255) (h : Config.ifaCheckAtMov = true) (hv : Config.hasPsrVm = false)
    (hb : Config.implVaMsbRaw % 11 = 0) :
    Config.numDbr ≤ ((wFf.val 3).extractLsb' 0 8).toNat ∧
    Config.numIbr ≤ ((wFf.val 3).extractLsb' 0 8).toNat ∧
    Config.numPm ≤ ((wFf.val 3).extractLsb' 0 8).toNat ∧
    Config.numPkr ≤ ((wFf.val 3).extractLsb' 0 8).toNat ∧
    Config.numCpuid ≤ ((wFf.val 3).extractLsb' 0 8).toNat ∧
    Config.ifaCheckAtMov = true ∧
    unimplVa wFf.vm (wFf.val 2) = true :=
  have e : ((wFf.val 3).extractLsb' 0 8).toNat = 255 := by decide +kernel
  ⟨by rw [e]; exact hd, by rw [e]; exact hi, by rw [e]; exact hm, by rw [e]; exact hk, by rw [e]; exact hc, h, by
    rw [show wFf.vm = false by simp only [State.vm, hv, Bool.and_false], show wFf.val 2 = 0x2004000000000000 by decide +kernel]
    exact unimpl_of hv hb⟩

theorem test_witness_IndirectWrites :
    (wp.pred 0 = true ∧ wp.cpl = 0 ∧ wp.nat 3 = false ∧ wp.nat 2 = false) ∧
    wp.vm = false ∧
    Quiet wp ∧
    ((rrReserved 0x30 = false ∧ wRr.val 2 = 0x30) ∧ pkrReserved (wp.val 4) (wp.val 4) = false ∧ ((wp.val 4).extractLsb' 0 8).toNat = 0) ∧
    0 < Config.numDbr ∧
    0 < Config.numIbr ∧
    0 < Config.numPm :=
  ⟨by decide +kernel, by decide +kernel, ⟨rfl, rfl⟩, by decide +kernel, by unfold Config.numDbr; omega, by unfold Config.numIbr; omega, by unfold Config.numPm; omega⟩

theorem test_witness_IndirectReads :
    (wp.pred 0 = true ∧ wp.nat 4 = false ∧ wp.vm = false) ∧
    Quiet wp ∧
    (wp.cpl = 0 ∧ ((wp.val 4).extractLsb' 0 8).toNat = 0) ∧
    0 < Config.numPkr ∧
    0 < Config.numCpuid ∧
    (({ wp with pmdKnown := 1 } : State).pmdKnown.getLsbD 0 = true ∧ wPm.dpsr Psr.sp = true ∧ wPm.cpl ≠ 0) ∧
    Quiet wVm :=
  ⟨by decide +kernel, ⟨rfl, rfl⟩, by decide +kernel, by unfold Config.numPkr; omega, by unfold Config.numCpuid; omega, by decide +kernel, ⟨rfl, rfl⟩⟩

/-- In the middle and at the end of a group. -/
theorem test_witness_Serialization :
    wp.pred 0 = true ∧
    Quiet wp ∧
    wp.ctx.stopAfter = false ∧
    ((wStop.ctx.stopAfter = true ∧ wStop.srlzI = true ∧ wStop.pred 0 = true)) ∧
    Quiet wStop :=
  ⟨by decide +kernel, ⟨rfl, rfl⟩, by decide +kernel, by decide +kernel, ⟨rfl, rfl⟩⟩

theorem test_witness_Inserts :
    wIns.pred 0 = true ∧
    Settled wIns ∧
    InsertOk wIns 2 ∧
    Quiet wIns ∧
    (platformSupports (field (wIns.val 2) 2 3) = true ∧ wIns.trClash .data (insertEntry wIns (wIns.val 2)) = false ∧ wIns.trClash .instr (insertEntry wIns (wIns.val 2)) = false ∧ wIns.nat 4 = false) ∧
    ((rd wIns.sys.dtr 0 none = none ∧ rd wIns.sys.itr 0 none = none) ∧ ((wIns.val 4).extractLsb' 0 8).toNat = 0) ∧
    0 < Config.numDtr ∧
    0 < Config.numItr :=
  ⟨by decide +kernel, ⟨rfl, rfl⟩, ⟨by decide +kernel, by decide +kernel, by decide +kernel, by decide +kernel, by decide +kernel, by decide +kernel, by decide +kernel⟩, ⟨rfl, rfl⟩, by decide +kernel, by decide +kernel, by unfold Config.numDtr; omega, by unfold Config.numItr; omega⟩

/-- PSR.ic = 1; PSR.ic = 0 with a NaT (GR5) and with a reserved memory attribute. -/
theorem test_witness_Inserts_faults :
    (wIc.pred 0 = true ∧ wIc.dpsr Psr.ic = true ∧ wInsBad.pred 0 = true) ∧
    Settled wInsBad ∧
    ((wInsBad.dpsr Psr.ic = false ∧ wInsBad.cpl = 0 ∧ wInsBad.nat 2 = false) ∧ insertReserved (wInsBad.val 2) (wInsBad.sys.getCr 21) = true ∧ wBad.pred 0 = true) ∧
    Settled wBad ∧
    ((wBad.dpsr Psr.ic = false ∧ wBad.cpl = 0 ∧ wBad.nat 5 = true ∧ wBad.nat 3 = false)) :=
  ⟨by decide +kernel, ⟨rfl, rfl⟩, by decide +kernel, ⟨rfl, rfl⟩, by decide +kernel⟩

/-- Register number 255 where fewer exist. -/
theorem test_witness_Inserts_number (hd : Config.numDtr ≤ 255) (hi : Config.numItr ≤ 255) :
    Settled wInsBig ∧
    ((wInsBig.dpsr Psr.ic = false ∧ wInsBig.cpl = 0 ∧ wInsBig.pred 0 = true)) ∧
    ((wInsBig.nat 4 = false ∧ wInsBig.nat 2 = false)) ∧
    Config.numDtr ≤ ((wInsBig.val 4).extractLsb' 0 8).toNat ∧
    Config.numItr ≤ ((wInsBig.val 4).extractLsb' 0 8).toNat :=
  have e : ((wInsBig.val 4).extractLsb' 0 8).toNat = 255 := by decide +kernel
  ⟨⟨rfl, rfl⟩, by decide +kernel, by decide +kernel, by rw [e]; exact hd, by rw [e]; exact hi⟩

/-- On a processor with 51 address bits that checks IFA at the insert. -/
theorem test_witness_Inserts_ifa (h : Config.hasPsrVm = false) (hm : Config.implVaMsbRaw % 11 = 0) (hc : Config.ifaCheckAtMov = false) :
    Settled wInsIfa ∧
    ((wInsIfa.dpsr Psr.ic = false ∧ wInsIfa.cpl = 0 ∧ wInsIfa.pred 0 = true)) ∧
    wInsIfa.nat 2 = false ∧
    insertReserved (wInsIfa.val 2) (wInsIfa.sys.getCr 21) = false ∧
    unimplVa wInsIfa.vm (wInsIfa.sys.getCr 20) = true ∧
    Config.ifaCheckAtMov = false :=
  ⟨⟨rfl, rfl⟩, by decide +kernel, by decide +kernel, by decide +kernel, by
    rw [show wInsIfa.vm = false by simp only [State.vm, h, Bool.and_false], show wInsIfa.sys.getCr 20 = 0x2004000000000000 by decide +kernel]
    exact unimpl_of h hm, hc⟩

/-- On a processor with 49 physical address bits. -/
theorem test_witness_Inserts_ppn (h : Config.implPaMsb = 48) :
    wInsPpn.pred 0 = true ∧
    Settled wInsPpn ∧
    ((wInsPpn.dpsr Psr.ic = false ∧ wInsPpn.cpl = 0 ∧ wInsPpn.nat 2 = false)) ∧
    insertReserved (wInsPpn.val 2) (wInsPpn.sys.getCr 21) = false ∧
    bit (wInsPpn.val 2) 0 = true ∧
    ppnUnimpl (wInsPpn.val 2) = true :=
  ⟨by decide +kernel, ⟨rfl, rfl⟩, by decide +kernel, by decide +kernel, by decide +kernel, by
    unfold ppnUnimpl unimplPa
    rw [h]; decide +kernel⟩

/-- 21 R233: ITIR{1:0} is reserved also where the entry is not present. -/
theorem test_insert_itir_low (h : Config.itirCheckAtMov = false) : insertReserved 0 0x931 = true := by
  unfold insertReserved
  rw [h]; decide +kernel

/-- 42 R390: an insert that overlaps a translation register of its side removes the overlapping entries of the cache, whether
its own entry gets in or not. -/
theorem test_insert_clash_purges :
    let e : TlbEntry := { page 0x6000 12 with rid := 9 }
    (Sys.purgeForInsert 0 .data e { Sys.reset with dtcTlb := [e, page 0x8000 12] }).dtcTlb = [page 0x8000 12] := by decide +kernel

/-- A translation register of either side overlaps. -/
theorem test_witness_Inserts_clash :
    wInsTr.pred 0 = true ∧
    Settled wInsTr ∧
    InsertOk wInsTr 2 ∧
    Quiet wInsTr ∧
    platformSupports (field (wInsTr.val 2) 2 3) = true ∧
    ((wInsTr.trClash .data (insertEntry wInsTr (wInsTr.val 2)) = true ∧ wInsTr.trClash .instr (insertEntry wInsTr (wInsTr.val 2)) = true)) ∧
    wInsTr.nat 4 = false ∧
    rd wInsTr.sys.dtr ((wInsTr.val 4).extractLsb' 0 8).toNat none = none :=
  ⟨by decide +kernel, ⟨rfl, rfl⟩, ⟨by decide +kernel, by decide +kernel, by decide +kernel, by decide +kernel, by decide +kernel, by decide +kernel, by decide +kernel⟩, ⟨rfl, rfl⟩, by decide +kernel, by decide +kernel, by decide +kernel, by decide +kernel⟩

/-- A register that holds another translation. -/
theorem test_witness_Inserts_live :
    InsertOk wInsLive 2 ∧
    ((wInsLive.trClash .data (insertEntry wInsLive (wInsLive.val 2)) = false ∧ wInsLive.trClash .instr (insertEntry wInsLive (wInsLive.val 2)) = false)) ∧
    (((rd wInsLive.sys.dtr ((wInsLive.val 4).extractLsb' 0 8).toNat none).isSome = true ∧ (rd wInsLive.sys.itr ((wInsLive.val 4).extractLsb' 0 8).toNat none).isSome = true)) :=
  ⟨⟨by decide +kernel, by decide +kernel, by decide +kernel, by decide +kernel, by decide +kernel, by decide +kernel, by decide +kernel⟩, by decide +kernel, by decide +kernel⟩

/-- Write-combining on a platform without it. -/
theorem test_witness_Inserts_platform (h : Config.platformHas true = false) :
    InsertOk wInsWc 2 ∧
    bit (wInsWc.val 2) 0 = true ∧
    platformSupports (field (wInsWc.val 2) 2 3) = false :=
  ⟨⟨by decide +kernel, by decide +kernel, by decide +kernel, by decide +kernel, by decide +kernel, by decide +kernel, by decide +kernel⟩, by decide +kernel, by
    rw [show field (wInsWc.val 2) 2 3 = 6 by decide +kernel]; exact h⟩

/-- A purgeable page size, and one that never is. -/
theorem test_witness_Purges :
    wPur.pred 0 = true ∧
    Settled wPur ∧
    Quiet wPur ∧
    PurgeOk wPur 3 2 ∧
    purgeable ((wPur.val 2).extractLsb' 2 6).toNat = true ∧
    ((wPur.cpl = 0 ∧ wPur.nat 3 = false ∧ wPur.vm = false)) ∧
    wPur0.pred 0 = true ∧
    Settled wPur0 ∧
    Quiet wPur0 ∧
    PurgeOk wPur0 3 2 ∧
    purgeable ((wPur0.val 2).extractLsb' 2 6).toNat = false :=
  ⟨by decide +kernel, ⟨rfl, rfl⟩, ⟨rfl, rfl⟩, ⟨by decide +kernel, by decide +kernel, by decide +kernel, by decide +kernel, by decide +kernel⟩, by decide +kernel, by decide +kernel, by decide +kernel, ⟨rfl, rfl⟩, ⟨rfl, rfl⟩, ⟨by decide +kernel, by decide +kernel, by decide +kernel, by decide +kernel, by decide +kernel⟩, by decide +kernel⟩

/-- GR5 as either operand. -/
theorem test_witness_Purges_faults :
    ((wBad.pred 0 = true ∧ wBad.cpl = 0 ∧ wBad.nat 5 = true ∧ wBad.nat 3 = false)) ∧
    Settled wBad ∧
    Quiet wBad :=
  ⟨by decide +kernel, ⟨rfl, rfl⟩, ⟨rfl, rfl⟩⟩

/-- On a processor with 51 address bits. -/
theorem test_witness_Purges_unimplemented (h : Config.hasPsrVm = false) (hm : Config.implVaMsbRaw % 11 = 0) :
    ((wFarPur.pred 0 = true ∧ wFarPur.cpl = 0 ∧ wFarPur.nat 3 = false ∧ wFarPur.nat 2 = false)) ∧
    Settled wFarPur ∧
    Quiet wFarPur ∧
    purgeable ((wFarPur.val 2).extractLsb' 2 6).toNat = true ∧
    unimplVa wFarPur.vm (wFarPur.val 3) = true :=
  ⟨by decide +kernel, ⟨rfl, rfl⟩, ⟨rfl, rfl⟩, by decide +kernel, by
    rw [show wFarPur.vm = false by simp only [State.vm, h, Bool.and_false], show wFarPur.val 3 = 0x2004000000000000 by decide +kernel]
    exact unimpl_of h hm⟩

theorem test_witness_Probes :
    (wv.pred 0 = true ∧ wv.nat 3 = false ∧ (wv.dataView 0).dt = true) ∧
    Quiet wv ∧
    wv.nat 2 = false ∧
    Translates wv (wv.val 3) dataPage wv ∧
    (dataPage.p = true ∧ dataPage.ma ≠ 7 ∧ (wv.dataView 0).pk = false ∧ ((wp.dataView 0).dt = false ∧ wp.nat 3 = false)) ∧
    Accessible wv (naRef wv 3 true false false (askedLevel wv 0)) 0x8406340 .wb wv ∧
    Accessible wv (naRef wv 3 true true false (askedLevel wv 0)) 0x8406340 .wb wv :=
  ⟨by decide +kernel, ⟨rfl, rfl⟩, by decide +kernel, ⟨by decide +kernel, by decide +kernel, found_of (by decide +kernel)⟩, by decide +kernel, accessible_virtual (e := dataPage) (by decide +kernel) (by decide +kernel) (by decide +kernel) (by decide +kernel) (by decide +kernel) (by decide +kernel), accessible_virtual (e := dataPage) (by decide +kernel) (by decide +kernel) (by decide +kernel) (by decide +kernel) (by decide +kernel) (by decide +kernel)⟩

/-- A NaT address (GR5); the faults a probe takes, and others that a probe.fault takes. -/
theorem test_witness_Probes_faults :
    wBad.pred 0 = true ∧
    wBad.nat 5 = true ∧
    ((wMiss.pred 0 = true ∧ wMiss.nat 3 = false ∧ (wMiss.dataView 0).dt = true)) ∧
    unimplVa wMiss.vm (wMiss.val 3) = false ∧
    Quiet wMiss ∧
    (∃ c e rest, checkRef wMiss 0 (naRef wMiss 3 true false false (askedLevel wMiss 0)) = .ok c ∧ c.faults = (DFault.tlb, e) :: rest) ∧
    (∃ c e rest, checkRef (wPage { dataPage with p := false }) 0 (naRef (wPage { dataPage with p := false }) 3 true false false (askedLevel (wPage { dataPage with p := false }) 0)) = .ok c ∧ c.faults = (DFault.notPresent, e) :: rest) ∧
    (∃ c e rest, checkRef (wPage { dataPage with ma := 7 }) 0 (naRef (wPage { dataPage with ma := 7 }) 3 true false false (askedLevel (wPage { dataPage with ma := 7 }) 0)) = .ok c ∧ c.faults = (DFault.natPage, e) :: rest) ∧
    (∃ c e rest, checkRef (wKey 0x701) 0 (naRef (wKey 0x701) 3 true false false (askedLevel (wKey 0x701) 0)) = .ok c ∧ c.faults = (DFault.keyMiss, e) :: rest) ∧
    (∃ c e rest, checkRef (wKey 0x5) 0 (naRef (wKey 0x5) 3 true false false (askedLevel (wKey 0x5) 0)) = .ok c ∧ c.faults = (DFault.keyPermission, e) :: rest) ∧
    (∃ c e rest, checkRef (wPage { dataPage with a := false }) 0 (naRef (wPage { dataPage with a := false }) 3 true false false (askedLevel (wPage { dataPage with a := false }) 0)) = .ok c ∧ c.faults = (DFault.accessBit, e) :: rest) ∧
    (∃ c e rest, checkRef wMiss 0 (naRef wMiss 3 false true false (askedLevel wMiss 0)) = .ok c ∧ c.faults = (DFault.tlb, e) :: rest) ∧
    (∃ c e rest, checkRef (wKey 0x3) 0 (naRef (wKey 0x3) 3 true true false (askedLevel (wKey 0x3) 0)) = .ok c ∧ c.faults = (DFault.keyPermission, e) :: rest) :=
  ⟨by decide +kernel, by decide +kernel, by decide +kernel, by decide +kernel, ⟨rfl, rfl⟩, first_of (by decide +kernel), first_of (by decide +kernel), first_of (by decide +kernel), first_of (by decide +kernel), first_of (by decide +kernel), first_of (by decide +kernel), first_of (by decide +kernel), first_of (by decide +kernel)⟩

/-- An address that a processor with 51 address bits does not implement (95 §2.5 vector 13). -/
theorem test_witness_Probes_unimplemented (h : Config.hasPsrVm = false) (hm : Config.implVaMsbRaw % 11 = 0) :
    unimplVa false 0x2004000000000000 = true :=
  unimpl_of h hm

theorem test_witness_TranslationQueries :
    (wv.pred 0 = true ∧ wv.vm = false) ∧
    Quiet wv ∧
    (wv.cpl = 0 ∧ wv.nat 3 = false ∧ (wv.dataView 0).dt = true ∧ ((wp.dataView 0).dt = false ∧ wp.cpl = 0 ∧ wp.nat 3 = false ∧ wp.vm = false)) ∧
    Translates wv (wv.val 3) dataPage wv ∧
    ((dataPage.p = true ∧ dataPage.ma ≠ 7) ∧ (wv.dataView 0).tlb.lookup .data (rrRid ((wv.dataView 0).rrOf (wv.val 3))) (wv.val 3) = [dataPage] ∧ (wv.dataView 0).tlb.lookup .data (rrRid ((wv.dataView 0).rrOf (wv.val 2))) (wv.val 2) = [] ∧ unimplVa wv.vm (wv.val 3) = false) ∧
    wBad.nat 5 = true ∧
    Settled wv :=
  ⟨by decide +kernel, ⟨rfl, rfl⟩, by decide +kernel, ⟨by decide +kernel, by decide +kernel, found_of (by decide +kernel)⟩, by decide +kernel, by decide +kernel, ⟨rfl, rfl⟩⟩

/-- A NaT address (GR5), no translation, a page that is not present, a NaT page. -/
theorem test_witness_TranslationQueries_faults :
    ((wBad.pred 0 = true ∧ wBad.cpl = 0 ∧ wBad.nat 5 = true)) ∧
    ((∀ s ∈ [wMiss, wPage { dataPage with p := false }, wPage { dataPage with ma := 7 }],
      s.pred 0 = true ∧ s.cpl = 0 ∧ s.nat 3 = false ∧ s.vm = false ∧ (s.dataView 0).dt = true ∧ unimplVa s.vm (s.val 3) = false)) ∧
    (∃ c e rest, checkRef wMiss 0 (naRef wMiss 3 false false true wMiss.cpl) = .ok c ∧ c.faults = (DFault.tlb, e) :: rest) ∧
    (∃ c e rest, checkRef (wPage { dataPage with p := false }) 0 (naRef (wPage { dataPage with p := false }) 3 false false true 0) = .ok c ∧ c.faults = (DFault.notPresent, e) :: rest) ∧
    (∃ c e rest, checkRef (wPage { dataPage with ma := 7 }) 0 (naRef (wPage { dataPage with ma := 7 }) 3 false false true 0) = .ok c ∧ c.faults = (DFault.natPage, e) :: rest) :=
  ⟨by decide +kernel, by decide +kernel, first_of (by decide +kernel), first_of (by decide +kernel), first_of (by decide +kernel)⟩

/-- On a processor with 51 address bits. -/
theorem test_witness_TranslationQueries_unimplemented (h : Config.hasPsrVm = false) (hm : Config.implVaMsbRaw % 11 = 0) :
    ((wFarPur.pred 0 = true ∧ wFarPur.cpl = 0 ∧ wFarPur.nat 3 = false)) ∧
    ((wFarPur.vm = false ∧ (wFarPur.dataView 0).dt = true)) ∧
    unimplVa wFarPur.vm (wFarPur.val 3) = true :=
  ⟨by decide +kernel, by decide +kernel, by
    rw [show wFarPur.vm = false by simp only [State.vm, h, Bool.and_false], show wFarPur.val 3 = 0x2004000000000000 by decide +kernel]
    exact unimpl_of h hm⟩

theorem test_witness_SpeculationChecks :
    wp.pred 0 = true ∧
    Quiet wp ∧
    ((wAlat.alatHit false 4 = true ∧ wAlat.alatHit true 4 = true)) ∧
    Quiet wAlat ∧
    ((wp.alatHit false 4 = false ∧ wp.alatHit true 4 = false)) ∧
    QuietBranch wp (wp.ip + ((2#21).signExtend 64 <<< 4)) ∧
    wp.nat 4 = false ∧
    wBad.nat 5 = true ∧
    QuietBranch wBad (wBad.ip + ((2#21).signExtend 64 <<< 4)) ∧
    FpEnabled wp 0 :=
  ⟨by decide +kernel, ⟨rfl, rfl⟩, by decide +kernel, ⟨rfl, rfl⟩, by decide +kernel, ⟨rfl, rfl, by decide +kernel⟩, by decide +kernel, by decide +kernel, ⟨rfl, rfl, by decide +kernel⟩, ⟨fun h => absurd h (by decide), fun h => absurd h (by decide)⟩⟩

/-- FR4 holds NaTVal. -/
theorem test_witness_SpeculationChecks_natVal :
    FpEnabled wNatVal 4 ∧
    wNatVal.getFr 4 = Config.natVal ∧
    QuietBranch wNatVal (wNatVal.ip + ((2#21).signExtend 64 <<< 4)) :=
  ⟨⟨by decide +kernel, by decide +kernel⟩, by simp [State.getFr, wNatVal, rd_wr_self], ⟨rfl, rfl, by decide +kernel⟩⟩

theorem test_witness_CacheFlushes :
    wp.pred 0 = true ∧
    wp.nat 3 = false ∧
    Accessible wp (naRef wp 3 true false false wp.cpl) 0x1000 .wbl wp ∧
    Quiet wp ∧
    (0x1010 : Nat) / 32 = 0x1000 / 32 ∧
    (∀ e ∈ [StaleByte.mk 0x1000 7 .flushed], e.stage ≠ .synced) :=
  ⟨by decide +kernel, by decide +kernel, accessible_physical (by decide +kernel) (by decide +kernel) (by decide +kernel) (by decide +kernel) (by decide +kernel), ⟨rfl, rfl⟩, by decide +kernel, by decide⟩

/-- A NaT address (GR5), no translation. -/
theorem test_witness_CacheFlushes_faults :
    ((wBad.pred 0 = true ∧ wBad.nat 5 = true)) ∧
    ((wMiss.pred 0 = true ∧ wMiss.nat 3 = false)) ∧
    (∃ c k e rest, checkRef wMiss 0 (naRef wMiss 3 true false false wMiss.cpl) = .ok c ∧ c.faults = (k, e) :: rest) :=
  ⟨by decide +kernel, by decide +kernel, faults_of (by decide +kernel)⟩

/-- A line of an uncacheable page. -/
theorem test_witness_Prefetches_uncacheable :
    wUc.pred 0 = true ∧
    ((wUc.psrNow Psr.ed = false ∧ wUc.nat 3 = false)) ∧
    Quiet wUc ∧
    Accessible wUc (naRef wUc 3 true false true wUc.cpl) 0x1000 .uc wUc ∧
    wUc.aliased .uc 0x1000 1 = false :=
  ⟨by decide +kernel, by decide +kernel, ⟨rfl, rfl⟩, accessible_physical (by decide +kernel) (by decide +kernel) (by decide +kernel) (by decide +kernel) (by decide +kernel), by decide +kernel⟩

theorem test_witness_Prefetches :
    lfetchForm (.lfetchFault 0 3 0) = some (0, true, false, 3, .none) ∧
    lfetchForm (.lfetch 0 3 0) = some (0, false, false, 3, .none) ∧
    wp.pred 0 = true ∧
    BaseOk 3 none (.none) ∧
    Quiet wp ∧
    wp.psrNow Psr.ed = false ∧
    wp.nat 3 = false ∧
    Accessible wp (naRef wp 3 true false true wp.cpl) 0x1000 .wbl wp ∧
    wEd.psrNow Psr.ed = true ∧
    wp.aliased .wbl 0x1000 1 = false :=
  ⟨rfl, rfl, by decide +kernel, .inl rfl, ⟨rfl, rfl⟩, by decide +kernel, by decide +kernel, accessible_physical (by decide +kernel) (by decide +kernel) (by decide +kernel) (by decide +kernel) (by decide +kernel), by decide +kernel, by decide +kernel⟩

/-- An aliased line, a NaT address, a miss. -/
theorem test_witness_Prefetches_stops :
    wAlias.pred 0 = true ∧
    ((wAlias.psrNow Psr.ed = false ∧ wAlias.nat 3 = false)) ∧
    Quiet wAlias ∧
    Accessible wAlias (naRef wAlias 3 true false true wAlias.cpl) 0x1000 .wbl wAlias ∧
    wAlias.aliased .wbl 0x1000 1 = true ∧
    ((wBad.pred 0 = true ∧ wBad.psrNow Psr.ed = false ∧ wBad.nat 5 = true)) ∧
    Quiet wBad ∧
    lfetchForm (.lfetchFault 0 5 0) = some (0, true, false, 5, .none) ∧
    (∃ c k e rest, checkRef wMiss 0 (naRef wMiss 3 true false true wMiss.cpl) = .ok c ∧ c.faults = (k, e) :: rest) ∧
    (∃ c k e rest, checkRef wMiss 0 (naRef wMiss 3 true true true wMiss.cpl) = .ok c ∧ c.faults = (k, e) :: rest) ∧
    ((wMiss.pred 0 = true ∧ wMiss.psrNow Psr.ed = false ∧ wMiss.nat 3 = false)) ∧
    Quiet wMiss :=
  ⟨by decide +kernel, by decide +kernel, ⟨rfl, rfl⟩, accessible_physical (by decide +kernel) (by decide +kernel) (by decide +kernel) (by decide +kernel) (by decide +kernel), by decide +kernel, by decide +kernel, ⟨rfl, rfl⟩, rfl, faults_of (by decide +kernel), faults_of (by decide +kernel), by decide +kernel, ⟨rfl, rfl⟩⟩

theorem test_witness_Prefetches_illegal :
    lfetchForm (.memUpd 0 (.lfetch true false) 0 (.imm 8) 0) = some (0, true, false, 0, .imm 8) ∧
    ¬BaseOk 0 none (.imm 8) ∧
    wp.pred 0 = true :=
  ⟨rfl, fun h => h.elim (fun e => BaseUpd.noConfusion e) fun e => absurd rfl e.1, by decide +kernel⟩

theorem test_witness_Prefetches_update :
    lfetchForm (.memUpd 0 (.lfetch false true) 3 (.imm 8) 0) = some (0, false, true, 3, .imm 8) ∧
    BaseOk 3 none (.imm 8) :=
  ⟨rfl, .inr ⟨by decide, by decide⟩⟩

theorem test_witness_AccessibleReferences :
    Mapped wp wRef8 0x1000 .wbl ∧
    ¬Breakpoint wp wRef8 ∧
    ¬AlignmentStops wp wRef8 ∧
    ¬Unsupported .writeBackOnly .wbl :=
  ⟨.inl ⟨by decide +kernel, by decide +kernel, by decide +kernel, by decide +kernel⟩, fun h => absurd h.1 (by decide +kernel),
    fun h => absurd h.1 (by decide +kernel), fun h => absurd (show Attr.writeBack .wbl = false from h) (by decide)⟩

theorem test_witness_AccessibleReferences_virtual :
    Mapped wv { wRef8 with va := wv.val 3 } 0x8406340 .wb :=
  mapped_dataPage (by decide +kernel) (by decide +kernel) (by decide +kernel) (by decide +kernel) (by decide +kernel) (by decide +kernel)

/-- On a processor that performs it: an unaligned reference inside 16 bytes. -/
theorem test_witness_AccessibleReferences_unaligned (h : Config.ac0MisalignedFaults 0x1004 8 = false) :
    Mapped wOdd { wRef8 with va := wOdd.val 3 } 0x1004 .wbl ∧
    ¬AlignmentStops wOdd { wRef8 with va := wOdd.val 3 } :=
  ⟨.inl ⟨by decide +kernel, by decide +kernel, by decide +kernel, by decide +kernel⟩, fun hs => by
    rcases hs.2 with e | e | e | e
    · exact absurd e (by decide)
    · exact absurd e (by decide +kernel)
    · exact absurd e (by decide +kernel)
    · rw [show (wRef8.size) = 8 from rfl, show wOdd.val 3 = 0x1004 by decide +kernel, h] at e
      exact absurd e (by decide)⟩

theorem test_witness_DataFaults_load :
    intLoadForm (.ld8 0 4 5 0) = some { qp := 0, size := 8, flav := .plain, r1 := 4, r3 := 5, upd := .none } ∧
    wBad.pred 0 = true ∧
    BaseOk 5 (some 4) (.none) ∧
    wBad.nat 5 = true ∧
    ((LoadFlavour.plain.speculative = false ∧ LoadFlavour.plain.checks = false)) :=
  ⟨rfl, by decide +kernel, .inl rfl, by decide +kernel, by decide +kernel⟩

/-- GR0 as a target, the target as the base that is updated, GR0 as the base. -/
theorem test_witness_DataFaults_illegal :
    intLoadForm (.ld8S 0 0 5 0) = some { qp := 0, size := 8, flav := .s, r1 := 0, r3 := 5, upd := .none } ∧
    intLoadForm (.memUpd 0 (.load 3 .plain 5) 5 (.imm 8) 0) = some { qp := 0, size := 8, flav := .plain, r1 := 5, r3 := 5, upd := .imm 8 } ∧
    ¬BaseOk 5 (some 5) (.imm 8) ∧
    intStoreForm (.memUpd 0 (.store 3 false 2) 0 (.imm 8) 0) = some { qp := 0, size := 8, r2 := 2, r3 := 0, upd := .imm 8 } ∧
    ¬BaseOk 0 none (.imm 8) ∧
    fetchaddForm (.fetchadd8Acq 0 0 3 3 0) = some (0, 8, 0, 3, 3) ∧
    xchgForm (.xchg8 0 0 2 3 0) = some (SemForm.mk 0 8 0 2 3) ∧
    cmp8xchg16Form (.cmp8xchg16Acq 0 0 2 3 0) = some (SemForm.mk 0 8 0 2 3) ∧
    wp.pred 0 = true :=
  ⟨rfl, rfl, fun h => h.elim (fun e => BaseUpd.noConfusion e) fun e => absurd rfl e.2, rfl, fun h => h.elim (fun e => BaseUpd.noConfusion e) fun e => absurd rfl e.1, rfl, rfl, rfl, by decide +kernel⟩

theorem test_witness_DataFaults_nested :
    intLoadForm (.ld8 0 4 3 0) = some (LoadForm.mk 0 8 .plain 4 3 .none) ∧
    wMiss.pred 0 = true ∧
    wMiss.nat 3 = false ∧
    Settled wMiss ∧
    wMiss.psrNow Psr.ic = false ∧
    ivaBad wMiss (wMiss.sys.getCr 2 &&& 0xFFFFFFFFFFFF8000) = false ∧
    (∃ e, FaultsWith wMiss ((LoadForm.mk 0 8 .plain 4 3 .none).ref wMiss) .tlb e ∧ e.dataMiss = true) :=
  ⟨rfl, by decide +kernel, by decide +kernel, ⟨rfl, rfl⟩, by decide +kernel, by decide +kernel, missed_of (by decide +kernel) (by decide +kernel) (by decide +kernel) (by decide +kernel)⟩

theorem test_witness_DataFaults_store :
    intStoreForm (.st8 0 5 4 0) = some { qp := 0, size := 8, r3 := 4, r2 := 5, upd := .none } ∧
    wBad.pred 0 = true ∧
    BaseOk 4 none (.none) ∧
    wBad.nat 5 = true ∧
    (∃ c k e rest, checkRef wMiss 0 ((StoreForm.mk 0 8 2 3 .none).ref wMiss) = .ok c ∧ c.faults = (k, e) :: rest) ∧
    ((wMiss.nat 3 = false ∧ wMiss.nat 2 = false)) :=
  ⟨rfl, by decide +kernel, .inl rfl, by decide +kernel, faults_of (by decide +kernel), by decide +kernel⟩

theorem test_witness_DataFaults_miss :
    (wv.dataView 0).dt = true ∧
    unimplVa wv.vm (wv.val 2) = false ∧
    (wv.dataView 0).tlb.lookup .data (rrRid ((wv.dataView 0).rrOf (wv.val 2))) (wv.val 2) = [] ∧
    walkerEnabled (wv.dataView 100) .data (wv.val 2) = false :=
  ⟨by decide +kernel, by decide +kernel, by decide +kernel, by decide +kernel⟩

/-- An unaligned and an uncacheable address, a NaT, a miss. -/
theorem test_witness_DataFaults_semaphores :
    xchgForm (.xchg8 0 1 2 3 0) = some (SemForm.mk 0 8 1 2 3) ∧
    cmp8xchg16Form (.cmp8xchg16Acq 0 1 2 3 0) = some (SemForm.mk 0 8 1 2 3) ∧
    fetchaddForm (.fetchadd8Acq 0 1 3 3 0) = some (0, 8, 1, 3, 3) ∧
    (wOdd.pred 0 = true ∧ (wOdd.nat 3 = false ∧ wOdd.nat 2 = false) ∧ ((wOdd.dataView 0).dt = false ∧ (wOdd.dataView 0).db = false) ∧ unimplPa (wOdd.val 3) = false) ∧
    ((wOdd.val 3).toNat % 8 ≠ 0 ∧ wBad.nat 5 = true ∧ ((wUc.dataView 0).dt = false ∧ (wUc.dataView 0).db = false) ∧ (unimplPa (wUc.val 3) = false ∧ (wUc.val 3).toNat % 8 = 0 ∧ bit (wUc.val 3) 63 = true)) ∧
    Mapped wOdd (semRef wOdd 3 8 .writeBackOnly) 0x1004 .wbl ∧
    (∃ c k e rest, checkRef wMiss 0 (semRef wMiss 3 8 .writeBackOnly) = .ok c ∧ c.faults = (k, e) :: rest) ∧
    (∃ c k e rest, checkRef wMiss 0 (pairSemRef wMiss 3) = .ok c ∧ c.faults = (k, e) :: rest) ∧
    (∃ c k e rest, checkRef wMiss 0 (semRef wMiss 3 8 .fetchadd) = .ok c ∧ c.faults = (k, e) :: rest) :=
  ⟨rfl, rfl, rfl, by decide +kernel, by decide +kernel, .inl ⟨by decide +kernel, by decide +kernel, by decide +kernel, by decide +kernel⟩, faults_of (by decide +kernel), faults_of (by decide +kernel), faults_of (by decide +kernel)⟩

/-- PSR.ac = 1: an unaligned load and store, with PSR.dt = 0 and 1; PSR.ac = 0: one that crosses 16 bytes. -/
theorem test_witness_DataFaults_unaligned :
    ((wAc.pred 0 = true ∧ wAc.nat 3 = false ∧ wAc.nat 2 = false)) ∧
    (Mapped wAc ((LoadForm.mk 0 8 .plain 4 3 .none).ref wAc) 0x1001 .wbl ∧ Mapped wAc ((StoreForm.mk 0 8 2 3 .none).ref wAc) 0x1001 .wbl) ∧
    ((¬Breakpoint wAc ((LoadForm.mk 0 8 .plain 4 3 .none).ref wAc)) ∧ AlignmentStops wAc ((LoadForm.mk 0 8 .plain 4 3 .none).ref wAc)) ∧
    Mapped wAcV ((LoadForm.mk 0 8 .plain 4 3 .none).ref wAcV) 0x8406341 .wb ∧
    AlignmentStops wAcV ((LoadForm.mk 0 8 .plain 4 3 .none).ref wAcV) ∧
    AlignmentStops wCross ((LoadForm.mk 0 8 .plain 4 3 .none).ref wCross) :=
  ⟨by decide +kernel, ⟨.inl ⟨by decide +kernel, by decide +kernel, by decide +kernel, by decide +kernel⟩,
      .inl ⟨by decide +kernel, by decide +kernel, by decide +kernel, by decide +kernel⟩⟩,
    ⟨fun h => absurd h.1 (by decide +kernel), by decide +kernel, .inr (.inl (by decide +kernel))⟩,
    mapped_dataPage (by decide +kernel) (by decide +kernel) (by decide +kernel) (by decide +kernel) (by decide +kernel) (by decide +kernel),
    ⟨by decide +kernel, .inr (.inl (by decide +kernel))⟩, ⟨by decide +kernel, .inr (.inr (.inl (by decide +kernel)))⟩⟩

/-- 60 R494 and 20 R143: the same through exec. -/
theorem test_unaligned_ac :
    ends (exec (.ld8 0 4 3 0) { wAcV with sys := { wAcV.sys with cr := wr wAcV.sys.cr 2 0x100000 } }) (entered 0x5A00 0) = true := by
  decide +kernel

/-- A breakpoint that matches; a page that supports no semaphore. -/
theorem test_witness_PageFaults_late (h : Config.dataBreak (wDb.dataView 0).dbr 0x1000 8 true false 0 = true) :
    (Mapped wDb { wRef8 with va := 0x1000, pl := 0 } 0x1000 .wbl ∧ Breakpoint wDb { wRef8 with va := 0x1000, pl := 0 }) ∧
    Mapped wUc (semRef wUc 3 8 .writeBackOnly) 0x1000 .uc ∧
    Unsupported (semRef wUc 3 8 .writeBackOnly).sup .uc :=
  ⟨⟨.inl ⟨by decide +kernel, by decide +kernel, by decide +kernel, by decide +kernel⟩, by decide +kernel, by decide +kernel, h⟩,
    .inl ⟨by decide +kernel, by decide +kernel, by decide +kernel, by decide +kernel⟩, rfl⟩

/-- A page for each fault; a key that no register holds, one that disables reads and one that disables writes. -/
theorem test_witness_PageFaults :
    Settled wv ∧
    ((wv.dataView 0).dt = true ∧ unimplVa wv.vm (wv.val 3) = false ∧ (∀ e ∈ [{ dataPage with p := false }, { dataPage with ma := 7 }, { dataPage with key := 7 }, { dataPage with ar := 0 }, { dataPage with d := false }, { dataPage with a := false }, { dataPage with ma := 4 }],
      ((wPage e).dataView 0).tlb.lookup .data (rrRid (((wPage e).dataView 0).rrOf (wv.val 3))) (wv.val 3) = [e] ∧ ((wPage e).dataView 0).dt = true ∧
      ((wPage e).dataView 0).db = false) ∧ (({ dataPage with p := false } : TlbEntry).p = false ∧ dataPage.p = true ∧ dataPage.ma ≠ 7)) ∧
    ((((wKey 0x701).dataView 0).pk = true ∧ matchingPkrs ((wKey 0x701).dataView 0).pkr dataPage.key = [])) ∧
    (∃ w ∈ matchingPkrs ((wKey 0x5).dataView 0).pkr dataPage.key, pkrDisables w .r = true) ∧
    (∃ w ∈ matchingPkrs ((wKey 0x3).dataView 0).pkr dataPage.key, pkrDisables w .w = true) ∧
    (∀ ref, KeyAllows (wv.dataView 0) ref dataPage) ∧
    ((rights 0 0 0 .r = true ∧ rights 0 0 0 .w = false ∧ rights dataPage.ar dataPage.pl 3 .r = false) ∧ (rights dataPage.ar dataPage.pl 0 .r = true ∧ rights dataPage.ar dataPage.pl 0 .w = true) ∧ wv.psrNow Psr.da = false ∧ ((wv.val 3).toNat % 8 = 0 ∧ (attrOf 4).writeBack = false)) :=
  ⟨⟨rfl, rfl⟩, by decide +kernel, by decide +kernel, ⟨5, by decide +kernel, rfl⟩, ⟨3, by decide +kernel, rfl⟩, fun _ h => absurd h (by decide +kernel), by decide +kernel⟩

/-- On a processor with 51 address bits. -/
theorem test_witness_PageFaults_unimplemented (h : Config.hasPsrVm = false) (hm : Config.implVaMsbRaw % 11 = 0) (hp : Config.implPaMsbRaw % 32 = 31) :
    (if (wv.dataView 0).dt then unimplVa wv.vm 0x2004000000000000 else unimplPa 0x2004000000000000) = true ∧
    Config.implPaMsb = 62 ∧
    (wp.dataView 0).dt = false :=
  ⟨by
    rw [show wv.vm = false by simp only [State.vm, h, Bool.and_false], show (wv.dataView 0).dt = true from rfl]
    exact unimpl_of h hm, by simp only [Config.implPaMsb, hp], rfl⟩

/-- A page for each fault, and none. -/
theorem test_witness_InstructionFaults :
    Settled wFetch ∧
    Fetches wFetch ∧
    ((unimplInstr wFetch wFetch.ip = false ∧ wFetch.fetchesEarly = false ∧ wFetch.psrNow Psr.it = true) ∧ (wFetch.fetchView 0).tlb.lookup .instr (rrRid ((wFetch.fetchView 0).rrOf wFetch.ip)) wFetch.ip = [codePage] ∧ (∀ e ∈ [{ codePage with p := false }, { codePage with ma := 7 }, { codePage with a := false }, { codePage with ar := 0 }],
      ((wCode 0x1000000000 [e]).fetchView 0).tlb.lookup .instr (rrRid ((wFetch.fetchView 0).rrOf wFetch.ip)) wFetch.ip = [e])) ∧
    Fetches (wCode 0x1000000000 []) ∧
    (((wCode 0x1000000000 []).fetchView 0).tlb.lookup .instr (rrRid ((wFetch.fetchView 0).rrOf wFetch.ip)) wFetch.ip = [] ∧ walkerEnabled ((wCode 0x1000000000 []).fetchView 100) .instr wFetch.ip = false ∧ (({ codePage with p := false } : TlbEntry).p = false ∧ codePage.p = true ∧ codePage.ma ≠ 7) ∧ (((wCode 0x1000008000 [codePage]).fetchView 0).pk = true ∧ matchingPkrs ((wCode 0x1000008000 [codePage]).fetchView 0).pkr codePage.key = [])) ∧
    (∃ w ∈ matchingPkrs (wCodeKey.fetchView 0).pkr codePage.key, pkrDisables w .x = true) ∧
    ((wCodeKey.fetchView 0).pk = true ∧ (wFetch.fetchView 0).pk = false ∧ (rights 0 0 0 .x = false ∧ rights codePage.ar codePage.pl wFetch.cpl .x = true) ∧ wFetch.psrNow Psr.ia = false) :=
  ⟨⟨rfl, rfl⟩, ⟨.inl rfl, rfl, by decide +kernel, by decide +kernel⟩, by decide +kernel, ⟨.inl rfl, rfl, by decide +kernel, by decide +kernel⟩, by decide +kernel, ⟨9, by decide +kernel, rfl⟩, by decide +kernel⟩

/-- On a processor with 51 address bits. -/
theorem test_witness_InstructionFaults_unimplemented (h : Config.hasPsrVm = false) (hm : Config.implVaMsbRaw % 11 = 0) :
    Fetches wFar ∧
    unimplInstr wFar wFar.ip = true :=
  ⟨⟨.inl rfl, rfl, by decide +kernel, by decide +kernel⟩, by
    have e : wFar.vm = false := by simp only [State.vm, h, Bool.and_false]
    show unimplVa wFar.vm 0x2004000000000000 = true
    rw [e]; exact unimpl_of h hm⟩

/-- With a breakpoint that matches. -/
theorem test_witness_InstructionFaults_debug (h : Config.instrBreak (wCode 0x1001000000 [codePage]).sys.ibr.toList 0x2000000000010000 0 = true) :
    Fetches (wCode 0x1001000000 [codePage]) ∧
    Settled (wCode 0x1001000000 [codePage]) ∧
    (((wCode 0x1001000000 [codePage]).psrNow Psr.db = true ∧ (wCode 0x1001000000 [codePage]).psrNow Psr.id = false)) ∧
    Config.instrBreak (wCode 0x1001000000 [codePage]).sys.ibr.toList (wCode 0x1001000000 [codePage]).ip (wCode 0x1001000000 [codePage]).cpl = true :=
  ⟨⟨.inl rfl, rfl, by decide +kernel, by decide +kernel⟩, ⟨rfl, rfl⟩, by decide +kernel, h⟩

/-- A short-format table in memory, on a processor whose walker works. -/
theorem test_witness_WalkerInserts_short (hw : Config.hasVhptWalker = true) (hs : walkerSupports (rrPs 0x5531) = true)
    (ha : Config.freeBit .walkAbort 0 = false) :
    (((wWalk 0x3D [tablePage]).dataView 0).tlb.lookup .data (rrRid (((wWalk 0x3D [tablePage]).dataView 0).rrOf 0x2000000000022340)) 0x2000000000022340 = [] ∧ walkerEnabled ((wWalk 0x3D [tablePage]).dataView 100) .data 0x2000000000022340 = true ∧ ptaBase ((wWalk 0x3D [tablePage]).dataView 100).pta &&& BitVec.ofNat 64 (2 ^ ptaSize ((wWalk 0x3D [tablePage]).dataView 100).pta - 1) = 0 ∧ unimplVa ((wWalk 0x3D [tablePage]).dataView 100).vm (ptaBase ((wWalk 0x3D [tablePage]).dataView 100).pta) = false) ∧
    ((wWalk 0x3D [tablePage]).dataView 100).db = false ∧
    Config.hasVhptWalker = true ∧
    walkerSupports (rrPs 0x5531) = true ∧
    Config.freeBit .walkAbort 0 = false ∧
    (((wWalk 0x3D [tablePage]).tick = 0 ∧ ((wWalk 0x3D [tablePage]).dataView 100).rrOf 0x2000000000022340 = 0x5531) ∧ (vhptAddr 0x3D 0x5531 0x2000000000022340 = 0x2000000000000110 ∧ ((wWalk 0x3D [tablePage]).dataView 100).pta = 0x3D) ∧ unimplVa ((wWalk 0x3D [tablePage]).dataView 100).vm 0x2000000000000110 = false ∧ ((wWalk 0x3D [tablePage]).dataView 100).tlb.lookup .data 0x55 0x2000000000000110 = [tablePage]) ∧
    (walkBlocked ((wWalk 0x3D [tablePage]).dataView 100) tablePage = false ∧ unpopulated (wWalk 0x3D [tablePage]).holes (tablePage.pa 0x2000000000000110) 8 = false ∧ (wWalk 0x3D [tablePage]).aliased .wb (tablePage.pa 0x2000000000000110) 8 = false ∧ readBytes (bit ((wWalk 0x3D [tablePage]).dataView 100).dcr 1) (wWalk 0x3D [tablePage]).mem (tablePage.pa 0x2000000000000110) 8 = 0x8404461) ∧
    ((ptaVf 0x3D = false ∧ insertable (rrPs 0x5531) = true) ∧ (pteReserved 0x8404461 = false ∧ ppnUnimpl 0x8404461 = false ∧ platformSupports ((0x8404461#64).extractLsb' 2 3) = true) ∧ trOverlaps (wWalk 0x3D [tablePage]).sys.dtr 0x55 0x22000 12 = false) :=
  ⟨by decide +kernel, by decide +kernel, hw, hs, ha, by decide +kernel, by decide +kernel, by decide +kernel⟩

/-- The table is not mapped. -/
theorem test_witness_WalkerInserts_noTable (hw : Config.hasVhptWalker = true) (hs : walkerSupports (rrPs 0x5531) = true)
    (ha : Config.freeBit .walkAbort 0 = false) :
    ((wWalk 0x3D []).dataView 0).tlb.lookup .data (rrRid (((wWalk 0x3D []).dataView 0).rrOf 0x2000000000022340)) 0x2000000000022340 = [] ∧
    walkerEnabled ((wWalk 0x3D []).dataView 100) .data 0x2000000000022340 = true ∧
    ptaBase ((wWalk 0x3D []).dataView 100).pta &&& BitVec.ofNat 64 (2 ^ ptaSize ((wWalk 0x3D []).dataView 100).pta - 1) = 0 ∧
    unimplVa ((wWalk 0x3D []).dataView 100).vm (ptaBase ((wWalk 0x3D []).dataView 100).pta) = false ∧
    ((wWalk 0x3D []).dataView 100).db = false ∧
    Config.hasVhptWalker = true ∧
    walkerSupports (rrPs 0x5531) = true ∧
    Config.freeBit .walkAbort 0 = false ∧
    ((wWalk 0x3D []).dataView 100).tlb.lookup .data 0x55 0x2000000000000110 = [] :=
  ⟨by decide +kernel, by decide +kernel, by decide +kernel, by decide +kernel, by decide +kernel, hw, hs, ha, by decide +kernel⟩

/-- A long-format entry with its tag. -/
theorem test_witness_WalkerInserts_long (hw : Config.hasVhptWalker = true) (hs : walkerSupports (rrPs 0x5531) = true)
    (ha : Config.freeBit .walkAbort 0 = false) (hv : vhptAddr 0x13D 0x5531 0x2000000000022340 = 0x40)
    (ht : vhptTag 0x5531 0x2000000000022340 = 7) :
    (((wWalk 0x13D [longPage]).dataView 0).tlb.lookup .data (rrRid (((wWalk 0x13D [longPage]).dataView 0).rrOf 0x2000000000022340)) 0x2000000000022340 = [] ∧ walkerEnabled ((wWalk 0x13D [longPage]).dataView 100) .data 0x2000000000022340 = true ∧ ptaBase ((wWalk 0x13D [longPage]).dataView 100).pta &&& BitVec.ofNat 64 (2 ^ ptaSize ((wWalk 0x13D [longPage]).dataView 100).pta - 1) = 0 ∧ unimplVa ((wWalk 0x13D [longPage]).dataView 100).vm (ptaBase ((wWalk 0x13D [longPage]).dataView 100).pta) = false) ∧
    ((wWalk 0x13D [longPage]).dataView 100).db = false ∧
    Config.hasVhptWalker = true ∧
    walkerSupports (rrPs 0x5531) = true ∧
    Config.freeBit .walkAbort 0 = false ∧
    vhptAddr 0x13D 0x5531 0x2000000000022340 = 0x40 ∧
    vhptTag 0x5531 0x2000000000022340 = 7 ∧
    ((ptaVf 0x13D = true ∧ ((wWalk 0x13D [longPage]).dataView 100).pta = 0x13D) ∧ (((wWalk 0x13D [longPage]).dataView 100).tlb.lookup .data 0 0x40 = [longPage] ∧ walkBlocked ((wWalk 0x13D [longPage]).dataView 100) longPage = false) ∧ [readBytes false (wWalk 0x13D [longPage]).mem 0x10040 8, readBytes false (wWalk 0x13D [longPage]).mem 0x10048 8, readBytes false (wWalk 0x13D [longPage]).mem 0x10050 8] = [0x8404461, 0x5530, 7]) ∧
    (∀ r ∈ ((wWalk 0x13D [longPage]).dataView 100).rr.toList, rrRid r = rrRid 0x5531 → insertable (rrPs r) = true → rrPs r = rrPs 0x5531) ∧
    (((wWalk 0x13D [longPage]).aliased .wb 0x10040 32 = false ∧ unpopulated (wWalk 0x13D [longPage]).holes 0x10040 32 = false) ∧ (keyUnimpl 0x55 = false ∧ (0x5530#64) &&& 0xFFFFFFFF00000003 = 0)) :=
  ⟨by decide +kernel, by decide +kernel, hw, hs, ha, hv, ht, by decide +kernel, one_region (by decide +kernel), by decide +kernel⟩

/-- Two page sizes for one identifier, a misaligned table, a table page that is also mapped uncacheable. -/
theorem test_witness_WalkerInserts_refused :
    ((wTwo.dataView 0).tlb.lookup .data (rrRid ((wTwo.dataView 0).rrOf 0x2000000000022340)) 0x2000000000022340 = [] ∧ walkerEnabled (wTwo.dataView 100) .data 0x2000000000022340 = true ∧ ptaBase (wTwo.dataView 100).pta &&& BitVec.ofNat 64 (2 ^ ptaSize (wTwo.dataView 100).pta - 1) = 0 ∧ unimplVa (wTwo.dataView 100).vm (ptaBase (wTwo.dataView 100).pta) = false) ∧
    ((wTwo.dataView 100).db = false ∧ (((wTwo.dataView 100).rrOf 0x2000000000022340) = 0x5531 ∧ ptaVf (wTwo.dataView 100).pta = true)) ∧
    (∃ r ∈ (wTwo.dataView 100).rr.toList, rrRid r = rrRid 0x5531 ∧ rrPs r ≠ rrPs 0x5531 ∧ insertable (rrPs r) = true) ∧
    ((ptaBase 0x803D &&& BitVec.ofNat 64 (2 ^ ptaSize 0x8041 - 1) ≠ 0 ∧ ptaSize 0x8041 = 16) ∧ (((wWalk 0x8041 []).dataView 100).pta = 0x8041 ∧ walkerEnabled ((wWalk 0x8041 []).dataView 100) .data 0x2000000000022340 = true) ∧ (wWalk 0x3D [tablePage, { tablePage with base := 0x40000, ma := 4 }]).aliased .wb (tablePage.pa 0x2000000000000110) 8 = true) :=
  ⟨by decide +kernel, by decide +kernel, ⟨0x5539, by decide +kernel, rfl, by decide, by decide +kernel⟩, by decide +kernel⟩

/-- On a processor with 51 address bits. -/
theorem test_witness_WalkerInserts_base (h : Config.hasPsrVm = false) (hm : Config.implVaMsbRaw % 11 = 0) :
    ((wWalk 0x200400000000003D []).dataView 0).tlb.lookup .data (rrRid (((wWalk 0x200400000000003D []).dataView 0).rrOf 0x2000000000022340)) 0x2000000000022340 = [] ∧
    walkerEnabled ((wWalk 0x200400000000003D []).dataView 100) .data 0x2000000000022340 = true ∧
    ptaBase ((wWalk 0x200400000000003D []).dataView 100).pta &&& BitVec.ofNat 64 (2 ^ ptaSize ((wWalk 0x200400000000003D []).dataView 100).pta - 1) = 0 ∧
    unimplVa ((wWalk 0x200400000000003D []).dataView 100).vm (ptaBase ((wWalk 0x200400000000003D []).dataView 100).pta) = true :=
  ⟨by decide +kernel, by decide +kernel, by decide +kernel, by
    rw [show ((wWalk 0x200400000000003D []).dataView 100).vm = false by simp only [State.dataView, State.vm, h, Bool.and_false],
      show ptaBase ((wWalk 0x200400000000003D []).dataView 100).pta = 0x2004000000000000 by decide +kernel]
    exact unimpl_of h hm⟩

/-- A preferred page of 16K with an entry of 4K; another tag. -/
theorem test_witness_WalkerInserts_longRules :
    ((insertable (rrPs 0x5539) = true ∧ insertable 12 = true ∧ 12 < rrPs 0x5539)) ∧
    (6#64) ≠ 7 :=
  ⟨by decide +kernel, by decide +kernel⟩

/-- A timer that is about to match; a message to LID 0; a byte at XTP; a byte of INTA. -/
theorem test_witness_InterruptSources :
    Settled wTim ∧
    (∀ d, 0 < d → ∃ k, 0 < k ∧ k ≤ d ∧ wTim.sys.itc + BitVec.ofNat 64 k = wTim.sys.getCr 1) ∧
    bit (wTim.sys.getCr 72) 16 = false ∧
    intStoreForm (.st8 0 2 3 0) = some { qp := 0, size := 8, r3 := 3, r2 := 2, upd := .none } ∧
    wIpi.pred 0 = true ∧
    BaseOk 3 none (.none) ∧
    ((wIpi.nat 3 = false ∧ wIpi.nat 2 = false)) ∧
    Accessible wIpi ((StoreForm.mk 0 8 2 3 .none).ref wIpi) 0xFEE00000 .uc wIpi ∧
    ((wIpi.aliased .uc 0xFEE00000 8 = false ∧ (wPib 0x1E0008).aliased .uc 0xFEFE0008 1 = false ∧ (wPib 0x1E0000).aliased .uc 0xFEFE0000 1 = false)) ∧
    pibOffset .uc 0xFEE00000 = some 0 ∧
    Settled wIpi ∧
    Quiet wIpi ∧
    (((0 : Nat) / 4096 = ((wIpi.sys.getCr 64).extractLsb' 24 8).toNat ∧ 0 / 16 % 256 = ((wIpi.sys.getCr 64).extractLsb' 16 8).toNat)) ∧
    intStoreForm (.st1 0 2 3 0) = some { qp := 0, size := 1, r3 := 3, r2 := 2, upd := .none } ∧
    Accessible (wPib 0x1E0008) ((StoreForm.mk 0 1 2 3 .none).ref (wPib 0x1E0008)) 0xFEFE0008 .uc (wPib 0x1E0008) ∧
    ((pibOffset .uc 0xFEFE0008 = some 0x1E0008 ∧ pibOffset .uc 0xFEFFFFFF = some 0x1FFFFF)) ∧
    intLoadForm (.ld1 0 4 3 0) = some { qp := 0, size := 1, flav := .plain, r1 := 4, r3 := 3, upd := .none } ∧
    BaseOk 3 (some 4) (.none) ∧
    Accessible (wPib 0x1E0000) ((LoadForm.mk 0 1 .plain 4 3 .none).ref (wPib 0x1E0000)) 0xFEFE0000 .uc (wPib 0x1E0000) ∧
    pibOffset .uc 0xFEFE0000 = some 0x1E0000 :=
  ⟨⟨rfl, rfl⟩, fun d hd => ⟨1, by decide, hd, by decide +kernel⟩, by decide +kernel, rfl, by decide +kernel, .inl rfl, by decide +kernel, accessible_physical (by decide +kernel) (by decide +kernel) (by decide +kernel) (by decide +kernel) (by decide +kernel), by decide +kernel, by decide, ⟨rfl, rfl⟩, ⟨rfl, rfl⟩, by decide +kernel, rfl, accessible_physical (by decide +kernel) (by decide +kernel) (by decide +kernel) (by decide +kernel) (by decide +kernel), by decide +kernel, rfl, .inl rfl, accessible_physical (by decide +kernel) (by decide +kernel) (by decide +kernel) (by decide +kernel) (by decide +kernel), by decide +kernel⟩

theorem test_witness_IntegerLoads :
    intLoadForm (.ld8 0 4 3 0) = some (LoadForm.mk 0 8 .plain 4 3 .none) ∧
    wp.pred 0 = true ∧
    BaseOk 3 (some 4) (.none) ∧
    wp.nat 3 = false ∧
    Accessible wp ((LoadForm.mk 0 8 .plain 4 3 .none).ref wp) 0x1000 .wbl wp ∧
    Ordinary wp .wbl 0x1000 8 ∧
    Performs wp .plain false 4 .wbl ∧
    Quiet wp :=
  ⟨rfl, by decide +kernel, .inl rfl, by decide +kernel, accessible_physical (by decide +kernel) (by decide +kernel) (by decide +kernel) (by decide +kernel) (by decide +kernel), ⟨by decide +kernel, by decide +kernel, by decide +kernel⟩, ⟨by decide +kernel, by decide +kernel, by decide +kernel⟩, ⟨rfl, rfl⟩⟩

/-- A speculative advanced load with a base update, translated. -/
theorem test_witness_IntegerLoads_speculative :
    intLoadForm (.memUpd 0 (.load 3 .sa 4) 3 (.imm 8) 0) = some (LoadForm.mk 0 8 .sa 4 3 (.imm 8)) ∧
    wv.pred 0 = true ∧
    BaseOk 3 (some 4) (.imm 8) ∧
    wv.nat 3 = false ∧
    Accessible wv ((LoadForm.mk 0 8 .sa 4 3 (.imm 8)).ref wv) 0x8406340 .wb wv ∧
    Ordinary wv .wb 0x8406340 8 ∧
    Performs wv .sa false 4 .wb ∧
    Quiet wv :=
  ⟨rfl, by decide +kernel, .inr ⟨by decide, by decide⟩, by decide +kernel, accessible_virtual (e := dataPage) (by decide +kernel) (by decide +kernel) (by decide +kernel) (by decide +kernel) (by decide +kernel) (by decide +kernel), ⟨by decide +kernel, by decide +kernel, by decide +kernel⟩, ⟨by decide +kernel, by decide +kernel, by decide +kernel⟩, ⟨rfl, rfl⟩⟩

/-- A NaT address, PSR.ed = 1, a page without speculation, a miss with PSR.ic = 0, and one that DCR.dm defers with PSR.ic = 1. -/
theorem test_witness_LoadCompleters_deferred :
    intLoadForm (.ld8S 0 4 5 0) = some { qp := 0, size := 8, flav := .s, r1 := 4, r3 := 5, upd := .none } ∧
    wBad.pred 0 = true ∧
    BaseOk 5 (some 4) (.none) ∧
    Quiet wBad ∧
    LoadFlavour.s.speculative = true ∧
    Deferred wBad (wBad.nat 5) ((LoadForm.mk 0 8 .s 4 5 .none).ref wBad) ∧
    Deferred wEd false ((LoadForm.mk 0 8 .s 4 3 .none).ref wEd) ∧
    Quiet wEd ∧
    Deferred wp false ((LoadForm.mk 0 8 .s 4 3 .none).ref wp) ∧
    Deferred wMiss false ((LoadForm.mk 0 8 .s 4 3 .none).ref wMiss) ∧
    Deferred wMissEd false ((LoadForm.mk 0 8 .s 4 3 .none).ref wMissEd) ∧
    wMissEd.psrNow Psr.ic = true :=
  ⟨rfl, by decide +kernel, .inl rfl, ⟨rfl, rfl⟩, by decide +kernel, .inl (by decide +kernel), .inr (.inl (by decide +kernel)), ⟨rfl, rfl⟩, .inr (.inr (.inl ⟨0x1000, .wbl, wp, accessible_physical (by decide +kernel) (by decide +kernel) (by decide +kernel) (by decide +kernel) (by decide +kernel), rfl⟩)), .inr (.inr (.inr (deferred_of (by decide +kernel)))), .inr (.inr (.inr (deferred_of (by decide +kernel)))), by decide +kernel⟩

/-- A miss with PSR.ic = 1 that no DCR bit defers. -/
theorem test_witness_LoadCompleters_fault :
    ((wMissIc.psrNow Psr.ed = false ∧ wMissIc.nat 3 = false)) ∧
    (∃ c k e rest, checkRef wMissIc 0 ((LoadForm.mk 0 8 .s 4 3 .none).ref wMissIc) = .ok c ∧ c.faults = (k, e) :: rest ∧ ¬FaultDeferred wMissIc k) :=
  ⟨by decide +kernel, raised_of (by decide +kernel)⟩

theorem test_witness_LoadCompleters_advanced :
    wUc.nat 3 = false ∧
    Accessible wUc ((LoadForm.mk 0 8 .a 4 3 .none).ref wUc) 0x1000 .uc wUc ∧
    Attr.uc.nonSpeculative = true :=
  ⟨by decide +kernel, accessible_physical (by decide +kernel) (by decide +kernel) (by decide +kernel) (by decide +kernel) (by decide +kernel), by decide +kernel⟩

theorem test_witness_LoadCompleters_hit :
    LoadFlavour.cClr.checks = true ∧
    wAlat.alatHit false 4 = true ∧
    wAlat.nat 3 = false ∧
    Accessible wAlat ((LoadForm.mk 0 8 .cClr 4 3 .none).ref wAlat) 0x1000 .wbl wAlat :=
  ⟨by decide +kernel, by decide +kernel, by decide +kernel, accessible_physical (by decide +kernel) (by decide +kernel) (by decide +kernel) (by decide +kernel) (by decide +kernel)⟩

theorem test_witness_FillAndSpill :
    fillForm (.ld8Fill 0 4 3 0) = some { qp := 0, size := 8, r3 := 3, r2 := 4, upd := .none } ∧
    spillForm (.st8Spill 0 4 3 0) = some { qp := 0, size := 8, r3 := 3, r2 := 4, upd := .none } ∧
    wp.pred 0 = true ∧
    wp.nat 3 = false ∧
    Ordinary wp .wbl 0x1000 8 ∧
    Quiet wp ∧
    BaseOk 3 (some 4) (.none) ∧
    Accessible wp wRef8 0x1000 .wbl wp ∧
    Accessible wp ((StoreForm.mk 0 8 4 3 .none).ref wp) 0x1000 .wbl wp ∧
    BaseOk 3 none (.none) ∧
    MemoryOk wp ∧
    ((wp.nat 4 = false ∧ wBad.nat 5 = true)) :=
  ⟨rfl, rfl, by decide +kernel, by decide +kernel, ⟨by decide +kernel, by decide +kernel, by decide +kernel⟩, ⟨rfl, rfl⟩, .inl rfl, accessible_physical (by decide +kernel) (by decide +kernel) (by decide +kernel) (by decide +kernel) (by decide +kernel), accessible_physical (by decide +kernel) (by decide +kernel) (by decide +kernel) (by decide +kernel) (by decide +kernel), .inl rfl, wp_memoryOk, by decide +kernel⟩

/-- A NaT address (GR5); a miss. -/
theorem test_witness_FillAndSpill_faults :
    fillForm (.ld8Fill 0 4 5 0) = some { qp := 0, size := 8, r3 := 5, r2 := 4, upd := .none } ∧
    spillForm (.st8Spill 0 4 5 0) = some { qp := 0, size := 8, r3 := 5, r2 := 4, upd := .none } ∧
    BaseOk 5 (some 4) (.none) ∧
    BaseOk 5 none (.none) ∧
    wBad.pred 0 = true ∧
    wBad.nat 5 = true ∧
    wMiss.pred 0 = true ∧
    wMiss.nat 3 = false ∧
    BaseOk 3 (some 4) (.none) ∧
    BaseOk 3 none (.none) ∧
    (∃ c k e rest, checkRef wMiss 0 { va := wMiss.val 3, size := 8, align := 8, r := true, pl := wMiss.cpl } = .ok c ∧ c.faults = (k, e) :: rest) ∧
    (∃ c k e rest, checkRef wMiss 0 ((StoreForm.mk 0 8 4 3 .none).ref wMiss) = .ok c ∧ c.faults = (k, e) :: rest) :=
  ⟨rfl, rfl, .inl rfl, .inl rfl, by decide +kernel, by decide +kernel, by decide +kernel, by decide +kernel, .inl rfl, .inl rfl, faults_of (by decide +kernel), faults_of (by decide +kernel)⟩

theorem test_witness_FillAndSpill_illegal :
    fillForm (.memUpd 0 (.fill 4) 4 (.imm 8) 0) = some { qp := 0, size := 8, r3 := 4, r2 := 4, upd := .imm 8 } ∧
    ¬BaseOk 4 (some 4) (.imm 8) ∧
    spillForm (.memUpd 0 (.spill 4) 0 (.imm 8) 0) = some { qp := 0, size := 8, r3 := 0, r2 := 4, upd := .imm 8 } ∧
    ¬BaseOk 0 none (.imm 8) ∧
    fillForm (.ld8Fill 0 0 3 0) = some { qp := 0, size := 8, r3 := 3, r2 := 0, upd := .none } ∧
    wp.pred 0 = true :=
  ⟨rfl, fun h => h.elim (fun e => BaseUpd.noConfusion e) fun e => absurd rfl e.2, rfl, fun h => h.elim (fun e => BaseUpd.noConfusion e) fun e => absurd rfl e.1, rfl, by decide +kernel⟩

theorem test_witness_SixteenBytes :
    load16Form (.ld16 0 0 3 0) = some (0, 0, 3) ∧
    load16Form (.ld16 0 4 3 0) = some (0, 4, 3) ∧
    store16Form (.st16 0 4 3 0) = some (0, 4, 3) ∧
    wp.pred 0 = true ∧
    wp.nat 3 = false ∧
    Ordinary wp .wbl 0x1000 16 ∧
    Quiet wp ∧
    Accessible wp wRef16 0x1000 .wbl wp ∧
    wp.nat 4 = false ∧
    MemoryOk wp ∧
    Accessible wp wRef16w 0x1000 .wbl wp ∧
    ((wp.dpsr Psr.be = false ∧ wp.dpsr Psr.be 1 = false)) ∧
    (∃ c k e rest, checkRef wUc 0 { wRef16 with va := wUc.val 3 } = .ok c ∧ c.faults = (k, e) :: rest) ∧
    (∃ c k e rest, checkRef wUc 0 { wRef16w with va := wUc.val 3 } = .ok c ∧ c.faults = (k, e) :: rest) :=
  ⟨rfl, rfl, rfl, by decide +kernel, by decide +kernel, ⟨by decide +kernel, by decide +kernel, by decide +kernel⟩, ⟨rfl, rfl⟩, accessible_physical (by decide +kernel) (by decide +kernel) (by decide +kernel) (by decide +kernel) (by decide +kernel), by decide +kernel, wp_memoryOk, accessible_physical (by decide +kernel) (by decide +kernel) (by decide +kernel) (by decide +kernel) (by decide +kernel), by decide +kernel, faults_of (by decide +kernel), faults_of (by decide +kernel)⟩

/-- A NaT address and a NaT datum (GR5). -/
theorem test_witness_SixteenBytes_nat :
    load16Form (.ld16 0 4 5 0) = some (0, 4, 5) ∧
    store16Form (.st16 0 4 5 0) = some (0, 4, 5) ∧
    store16Form (.st16 0 5 3 0) = some (0, 5, 3) ∧
    wBad.pred 0 = true ∧
    wBad.nat 5 = true ∧
    wBad.nat 3 = false :=
  ⟨rfl, rfl, rfl, by decide +kernel, by decide +kernel, by decide +kernel⟩

theorem test_witness_IntegerStores :
    intStoreForm (.st8 0 2 3 0) = some { qp := 0, size := 8, r3 := 3, r2 := 2, upd := .none } ∧
    wp.pred 0 = true ∧
    BaseOk 3 none (.none) ∧
    wp.nat 3 = false ∧
    wp.nat 2 = false ∧
    Accessible wp ((StoreForm.mk 0 8 2 3 .none).ref wp) 0x1000 .wbl wp ∧
    Ordinary wp .wbl 0x1000 8 ∧
    MemoryOk wp ∧
    Quiet wp :=
  ⟨rfl, by decide +kernel, .inl rfl, by decide +kernel, by decide +kernel, accessible_physical (by decide +kernel) (by decide +kernel) (by decide +kernel) (by decide +kernel) (by decide +kernel), ⟨by decide +kernel, by decide +kernel, by decide +kernel⟩, wp_memoryOk, ⟨rfl, rfl⟩⟩

/-- The comparison equal, and not, of one and of two words. -/
theorem test_witness_Exchanges :
    xchgForm (.xchg8 0 1 2 3 0) = some { qp := 0, size := 8, r1 := 1, r2 := 2, r3 := 3 } ∧
    cmpxchgForm (.cmpxchg8Acq 0 1 2 3 0) = some { qp := 0, size := 8, r1 := 1, r2 := 2, r3 := 3 } ∧
    (wp.pred 0 = true ∧ wp.nat 3 = false ∧ wp.nat 2 = false) ∧
    Accessible wp (semRef wp 3 8 .writeBackOnly) 0x1000 .wbl wp ∧
    Ordinary wp .wbl 0x1000 8 ∧
    Attr.wbl.writeBack = true ∧
    MemoryOk wp ∧
    Quiet wp ∧
    (readBytes (wp.dpsr Psr.be) wp.mem 0x1000 8 = (wp.getAr 32).toNat % 256 ^ 8 ∧ readBytes (wAr.dpsr Psr.be) wAr.mem 0x1000 8 ≠ (wAr.getAr 32).toNat % 256 ^ 8) ∧
    Accessible wAr (semRef wAr 3 8 .writeBackOnly) 0x1000 .wbl wAr ∧
    cmp8xchg16Form (.cmp8xchg16Acq 0 1 2 3 0) = some { qp := 0, size := 8, r1 := 1, r2 := 2, r3 := 3 } ∧
    Accessible wp (pairSemRef wp 3) 0x1000 .wbl wp ∧
    Ordinary wp .wbl (0x1000 / 16 * 16) 16 ∧
    readBytes (wp.dpsr Psr.be) wp.mem 0x1000 8 = (wp.getAr 32).toNat ∧
    Accessible wAr (pairSemRef wAr 3) 0x1000 .wbl wAr ∧
    readBytes (wAr.dpsr Psr.be) wAr.mem 0x1000 8 ≠ (wAr.getAr 32).toNat :=
  ⟨rfl, rfl, by decide +kernel, accessible_physical (by decide +kernel) (by decide +kernel) (by decide +kernel) (by decide +kernel) (by decide +kernel), ⟨by decide +kernel, by decide +kernel, by decide +kernel⟩, by decide +kernel, wp_memoryOk, ⟨rfl, rfl⟩, by decide +kernel, accessible_physical (by decide +kernel) (by decide +kernel) (by decide +kernel) (by decide +kernel) (by decide +kernel), rfl, accessible_physical (by decide +kernel) (by decide +kernel) (by decide +kernel) (by decide +kernel) (by decide +kernel), ⟨by decide +kernel, by decide +kernel, by decide +kernel⟩, by decide +kernel, accessible_physical (by decide +kernel) (by decide +kernel) (by decide +kernel) (by decide +kernel) (by decide +kernel), by decide +kernel⟩

theorem test_witness_FetchAndAdds :
    fetchaddForm (.fetchadd8Acq 0 1 3 3 0) = some (0, 8, 1, 3, 3) ∧
    wp.pred 0 = true ∧
    wp.nat 3 = false ∧
    Accessible wp (semRef wp 3 8 .fetchadd) 0x1000 .wbl wp ∧
    MemoryOk wp ∧
    Quiet wp ∧
    Attr.wbl.writeBack = true ∧
    Ordinary wp .wbl 0x1000 8 :=
  ⟨rfl, by decide +kernel, by decide +kernel, accessible_physical (by decide +kernel) (by decide +kernel) (by decide +kernel) (by decide +kernel) (by decide +kernel), wp_memoryOk, ⟨rfl, rfl⟩, by decide +kernel, ⟨by decide +kernel, by decide +kernel, by decide +kernel⟩⟩

/-- On a processor that exports fetchadd. -/
theorem test_witness_FetchAndAdds_exported (h : Config.supportsUce = true) :
    wUce.pred 0 = true ∧
    wUce.nat 3 = false ∧
    Accessible wUce (semRef wUce 3 8 .fetchadd) 0x8406340 .uce wUce ∧
    Ordinary wUce .uce 0x8406340 8 ∧
    MemoryOk wUce ∧
    Quiet wUce ∧
    Attr.uce.writeBack = false :=
  ⟨by decide +kernel, by decide +kernel, accessible_virtual (e := ucePage) (by decide +kernel) (by decide +kernel) (by decide +kernel) (by decide +kernel)
    (by decide +kernel) (by unfold lateFaults; rw [h]; decide +kernel), ⟨by decide +kernel, by decide +kernel, by decide +kernel⟩, by unfold MemoryOk; decide +kernel, ⟨rfl, rfl⟩, by decide +kernel⟩

/-- FR1 as the target, GR0 as the base, both sets disabled, a NaT address. -/
theorem test_witness_FloatLoads_stops :
    wDf.pred 0 = true ∧
    fpLoadForm (.ldfd 0 1 3 0) = some (fpFormOf 0 .double .plain 1 3 .none) ∧
    fpLoadForm (.memUpd 0 (.fpLoad .double .plain 8) 0 (.imm 8) 0) = some (fpFormOf 0 .double .plain 8 0 (.imm 8)) ∧
    ¬BaseOk 0 none (.imm 8) ∧
    ((wDf.dpsr Psr.dfl = true ∧ wDf.dpsr Psr.dfh = true)) ∧
    wBad.pred 0 = true ∧
    wBad.nat 5 = true ∧
    FpEnabled wBad 8 :=
  ⟨by decide +kernel, rfl, rfl, fun h => h.elim (fun e => BaseUpd.noConfusion e) fun e => absurd rfl e.1, by decide +kernel, by decide +kernel, by decide +kernel, ⟨by decide +kernel, by decide +kernel⟩⟩

/-- Performed, deferred, hitting, failed and faulting. -/
theorem test_witness_FloatLoads :
    wp.pred 0 = true ∧
    FpEnabled wp 8 ∧
    BaseOk 3 none (.none) ∧
    Quiet wp ∧
    wp.nat 3 = false ∧
    fpLoadForm (.ldfd 0 8 3 0) = some wLdfd ∧
    Accessible wp (wLdfd.loadRef wp) 0x1000 .wbl wp ∧
    Ordinary wp .wbl 0x1000 8 ∧
    Performs wp .plain true 8 .wbl ∧
    fpLoadForm (.ldfFlav 0 .double .s 8 5 0) = some (fpFormOf 0 .double .s 8 5 .none) ∧
    Deferred wBad (wBad.nat 5) ((fpFormOf 0 .double .s 8 5 .none).loadRef wBad) ∧
    Deferred wMissEd false ((fpFormOf 0 .double .s 8 3 .none).loadRef wMissEd) ∧
    FpEnabled wBad 8 ∧
    fpLoadForm (.ldfFlav 0 .double .cClr 4 3 0) = some wLdfC ∧
    Accessible wAlat (wLdfC.loadRef wAlat) 0x1000 .wbl wAlat ∧
    wAlat.alatHit true 4 = true ∧
    FpEnabled wAlat 4 ∧
    fpLoadForm (.ldfFlav 0 .double .a 8 3 0) = some (fpFormOf 0 .double .a 8 3 .none) ∧
    Accessible wUc ((fpFormOf 0 .double .a 8 3 .none).loadRef wUc) 0x1000 .uc wUc ∧
    (∃ c k e rest, checkRef wMiss 0 (wLdfd.loadRef wMiss) = .ok c ∧ c.faults = (k, e) :: rest) ∧
    (∃ c k e rest, checkRef wMissIc 0 ((fpFormOf 0 .double .s 8 3 .none).loadRef wMissIc) = .ok c ∧ c.faults = (k, e) :: rest ∧ ¬FaultDeferred wMissIc k) ∧
    wMissIc.psrNow Psr.ed = false :=
  ⟨by decide +kernel, ⟨by decide +kernel, by decide +kernel⟩, .inl rfl, ⟨rfl, rfl⟩, by decide +kernel, rfl, accessible_physical (by decide +kernel) (by decide +kernel) (by decide +kernel) (by decide +kernel) (by decide +kernel), ⟨by decide +kernel, by decide +kernel, by decide +kernel⟩, ⟨by decide +kernel, by decide +kernel, by decide +kernel⟩, rfl, .inl (by decide +kernel), .inr (.inr (.inr (deferred_of (by decide +kernel)))), ⟨by decide +kernel, by decide +kernel⟩, rfl, accessible_physical (by decide +kernel) (by decide +kernel) (by decide +kernel) (by decide +kernel) (by decide +kernel), by decide +kernel, ⟨by decide +kernel, by decide +kernel⟩, rfl, accessible_physical (by decide +kernel) (by decide +kernel) (by decide +kernel) (by decide +kernel) (by decide +kernel), faults_of (by decide +kernel), raised_of (by decide +kernel), by decide +kernel⟩

/-- FR1 as the target, GR0 as the base, both sets disabled, a NaT address. -/
theorem test_witness_FloatPairLoads_stops :
    wDf.pred 0 = true ∧
    fpPairForm (.ldfp 0 .double .plain 1 9 3 0) = some (PairForm.mk 0 .double .plain 1 9 3 .none) ∧
    fpPairForm (.memUpd 0 (.fpPair .double .plain 8 9) 0 .size 0) = some (PairForm.mk 0 .double .plain 8 9 0 ((UpdOp.fpPair .double .plain 8 9).baseUpd .size)) ∧
    fpPairForm (.ldfp 0 .double .plain 9 9 3 0) = some (PairForm.mk 0 .double .plain 9 9 3 .none) ∧
    ((wDf.dpsr Psr.dfl = true ∧ wDf.dpsr Psr.dfh = true)) ∧
    wBad.pred 0 = true ∧
    wBad.nat 5 = true ∧
    FpEnabled wBad 8 :=
  ⟨by decide +kernel, rfl, rfl, rfl, by decide +kernel, by decide +kernel, by decide +kernel, ⟨by decide +kernel, by decide +kernel⟩⟩

/-- Performed, deferred, failed, hitting and faulting. -/
theorem test_witness_FloatPairLoads :
    wp.pred 0 = true ∧
    FpEnabled wp 8 ∧
    FpEnabled wp 9 ∧
    BaseOk 3 none (.none) ∧
    wp.nat 3 = false ∧
    fpPairForm (.ldfp 0 .double .plain 8 9 3 0) = some wPair ∧
    Accessible wp (wPair.ref wp) 0x1000 .wbl wp ∧
    Ordinary wp .wbl 0x1000 (2 * 8) ∧
    Performs wp .plain true 8 .wbl ∧
    Quiet wp ∧
    fpPairForm (.ldfp 0 .double .s 8 9 5 0) = some (PairForm.mk 0 .double .s 8 9 5 .none) ∧
    Deferred wBad (wBad.nat 5) ((PairForm.mk 0 .double .s 8 9 5 .none).ref wBad) ∧
    fpPairForm (.ldfp 0 .double .a 8 9 3 0) = some (PairForm.mk 0 .double .a 8 9 3 .none) ∧
    Accessible wUc ((PairForm.mk 0 .double .a 8 9 3 .none).ref wUc) 0x1000 .uc wUc ∧
    fpPairForm (.ldfp 0 .double .cClr 4 9 3 0) = some (PairForm.mk 0 .double .cClr 4 9 3 .none) ∧
    Accessible wAlat ((PairForm.mk 0 .double .cClr 4 9 3 .none).ref wAlat) 0x1000 .wbl wAlat ∧
    wAlat.alatHit true 4 = true ∧
    (∃ c k e rest, checkRef wMiss 0 (wPair.ref wMiss) = .ok c ∧ c.faults = (k, e) :: rest) :=
  ⟨by decide +kernel, ⟨by decide +kernel, by decide +kernel⟩, ⟨by decide +kernel, by decide +kernel⟩, .inl rfl, by decide +kernel, rfl, accessible_physical (by decide +kernel) (by decide +kernel) (by decide +kernel) (by decide +kernel) (by decide +kernel), ⟨by decide +kernel, by decide +kernel, by decide +kernel⟩, ⟨by decide +kernel, by decide +kernel, by decide +kernel⟩, ⟨rfl, rfl⟩, rfl, .inl (by decide +kernel), rfl, accessible_physical (by decide +kernel) (by decide +kernel) (by decide +kernel) (by decide +kernel) (by decide +kernel), rfl, accessible_physical (by decide +kernel) (by decide +kernel) (by decide +kernel) (by decide +kernel) (by decide +kernel), by decide +kernel, faults_of (by decide +kernel)⟩

/-- FR1 as the target, GR0 as the base, both sets disabled, a NaT address. -/
theorem test_witness_FloatStores_stops :
    wDf.pred 0 = true ∧
    fpStoreForm (.memUpd 0 (.fpStore .double 8) 0 (.imm 8) 0) = some (fpFormOf 0 .double .plain 8 0 (.imm 8)) ∧
    ¬BaseOk 0 none (.imm 8) ∧
    ((wDf.dpsr Psr.dfl = true ∧ wDf.dpsr Psr.dfh = true)) ∧
    wBad.pred 0 = true ∧
    wBad.nat 5 = true ∧
    FpEnabled wBad 8 :=
  ⟨by decide +kernel, rfl, fun h => h.elim (fun e => BaseUpd.noConfusion e) fun e => absurd rfl e.1, by decide +kernel, by decide +kernel, by decide +kernel, ⟨by decide +kernel, by decide +kernel⟩⟩

/-- Enabled, and each set disabled (FR2, FR31, FR32, FR127). -/
theorem test_witness_FloatStores :
    wp.pred 0 = true ∧
    FpEnabled wp 8 ∧
    BaseOk 3 none (.none) ∧
    wp.nat 3 = false ∧
    fpStoreForm (.stfd 0 8 3 0) = some wLdfd ∧
    Accessible wp (wLdfd.storeRef wp) 0x1000 .wbl wp ∧
    Ordinary wp .wbl 0x1000 8 ∧
    MemoryOk wp ∧
    Quiet wp ∧
    (∃ c k e rest, checkRef wMiss 0 (wLdfd.storeRef wMiss) = .ok c ∧ c.faults = (k, e) :: rest) ∧
    ((wDf.dpsr Psr.dfl = true ∧ wDf.dpsr Psr.dfh = true)) :=
  ⟨by decide +kernel, ⟨by decide +kernel, by decide +kernel⟩, .inl rfl, by decide +kernel, rfl, accessible_physical (by decide +kernel) (by decide +kernel) (by decide +kernel) (by decide +kernel) (by decide +kernel), ⟨by decide +kernel, by decide +kernel, by decide +kernel⟩, wp_memoryOk, ⟨rfl, rfl⟩, faults_of (by decide +kernel), by decide +kernel⟩


end Sys2Proof.Tests
end

section
/-!
SUPPORT. The traps that follow an instruction, in the terms of the statements: what completing an instruction and completing a
taken branch end in (60_exceptions.md R497, R505; 10_state.md R31).
-/
namespace Sys2Proof
namespace Machine

/-- ISR.code of the traps of one delivery, bit by bit. -/
theorem trapCode_eq (lp tb ss uia : Bool) :
    trapCode lp tb ss uia = (if lp then 2 else 0) ||| (if tb then 4 else 0) ||| (if ss then 8 else 0) ||| (if uia then 16 else 0) := by
  cases lp <;> cases tb <;> cases ss <;> cases uia <;> rfl

/-- Each trap has a code bit: the code is 0 where none applies. -/
theorem trapCode_eq_zero_iff (lp tb ss uia : Bool) : trapCode lp tb ss uia = 0 ↔ (lp || tb || uia || ss) = false := by
  revert lp tb ss uia; decide

/-- The traps after an instruction are decided by their code. -/
theorem withTraps_eq (s0 s : State) (lp tb uia : Bool) :
    withTraps s0 s lp tb uia =
      if trapCode lp tb (s0.psrNow Psr.ss) uia = 0 then .next s
      else deliver s (excTrap lp tb (s0.psrNow Psr.ss) uia) (if uia then uiaIip s s.ip else s.ip) s.slot (trapSlot s0) := by
  simp only [withTraps, trapCode_eq_zero_iff]
  cases lp || tb || uia || s0.psrNow Psr.ss <;> rfl

/-- Shifting bit 63 out is taking the address without it. -/
theorem shiftLeft_one_eq_zero_iff (ip : Word) : ip <<< 1 = 0 ↔ ip.toNat % 2 ^ 63 = 0 := by
  rw [← BitVec.toNat_inj, BitVec.toNat_shiftLeft, Nat.shiftLeft_eq]
  simp only [BitVec.ofNat_eq_ofNat, BitVec.toNat_ofNat]
  omega

/-- The address past the last bundle, by the mode of translation. -/
theorem pastTop_eq (s : State) (ip : Word) : pastTop s ip = decide ((if s.psrNow Psr.it then ip else ip <<< 1) = 0) := by
  unfold pastTop
  split <;> simp only [shiftLeft_one_eq_zero_iff]

/-- Completing an instruction leaves PSR.it. -/
@[simp] theorem advanced_psrNow_it (s0 s : State) : (advanced s0 s).psrNow Psr.it = s.psrNow Psr.it := by
  simp [State.psrNow]

/-- The trap of sequential flow, into an unimplemented address or past the top. -/
theorem seqUia_eq (s0 s : State) :
    seqUia s0 s = ((lastSlot s0 && unimplInstr s s.ip && Config.uiaAsTrap) ||
      (lastSlot s0 && pastTop s s.ip && (Config.uiaAsTrap || s0.psrNow Psr.ss))) := by
  simp only [seqUia, Bool.and_or_distrib_left, Bool.and_assoc]

/-- What completing an instruction that does not branch ends in. -/
theorem finish_eq (s u : State) :
    finish s u =
      if (lastSlot s && pastTop (advanced s u) (advanced s u).ip) = true ∧ seqUia s (advanced s u) = false then
        deliver { advanced s u with ctx := Ctx.none } excUnimplInstr (uiaIip (advanced s u) (advanced s u).ip)
          (advanced s u).slot (advanced s u).slot
      else withTraps s (advanced s u) false false (seqUia s (advanced s u)) := by
  simp only [finish, Bool.and_eq_true, Bool.not_eq_eq_eq_not, Bool.not_true]

/-- The Single Step and the unimplemented address trap of sequential flow, one or both, or none. -/
theorem withTraps_sequential (s0 s : State) (uia : Bool) :
    withTraps s0 s false false uia =
      if s0.psrNow Psr.ss = false ∧ uia = false then .next s
      else deliver s { off := if uia then 0x5E00 else 0x6000
                       code := (if s0.psrNow Psr.ss then 8 else 0) ||| (if uia then 16 else 0) }
        (if uia then uiaIip s s.ip else s.ip) s.slot (if s0.ctx.mlx then 2 else s0.slot) := by
  rw [withTraps_eq, excTrap, trapCode_eq]
  cases s0.psrNow Psr.ss <;> cases uia <;> rfl

end Machine
end Sys2Proof
end

section
/-!
SUPPORT. Which instructions run the shared completions: taken branches, instructions that raise nothing, those turned off by
their predicate; and what the completions end in.
-/
namespace Sys2Proof
namespace Machine

/-- A check that branches when it fails goes to its target. -/
theorem checkFails_branches {s : State} {code : BitVec 16} {imm : BitVec 21} (h : Config.chkBranches = true) :
    checkFails code imm s = finishBranch s s (s.ip + (imm.signExtend 64 <<< 4)) false := if_pos h

theorem checkAlat_miss {s : State} {fp : Bool} {r : BitVec 7} {clear : Bool} {imm : BitVec 21}
    (hb : Config.chkBranches = true) (h : s.alatHit fp r = false) :
    checkAlat fp r clear imm s = finishBranch s s (s.ip + (imm.signExtend 64 <<< 4)) false := by
  rw [checkAlat, h, if_neg Bool.false_ne_true, checkFails_branches hb]

/-- An enabled floating-point register passes the Disabled Floating-Point Register check. -/
theorem chkFp_of_enabled {s : State} {f : BitVec 7} (h : FpEnabled s f) : (chkFp s [f]).1 = false := by
  obtain ⟨hlow, hhigh⟩ := h
  simp only [chkFp, List.any_cons, List.any_nil, Bool.or_false, Bool.or_eq_false_iff, Bool.and_eq_false_imp,
    Bool.and_eq_true, decide_eq_false_iff_not, decide_eq_true_eq, not_le, not_lt]
  refine ⟨fun hd hf => ?_, fun hd => ?_⟩
  · by_contra hc
    exact absurd hd (by simp [hlow hf (by omega)])
  · by_contra hc
    exact absurd hd (by simp [hhigh (by omega)])

/-- A taken branch runs the completion of taken branches. -/
theorem exec_of_takenTo {i : Instr} {s u : State} {target : Word} {lowered : Bool} (h : TakenTo s i u target lowered) :
    exec i s = finishBranch s u target lowered := by
  cases h with
  | cond _ _ _ _ _ hp | ret _ _ _ _ _ hp | rel _ _ _ _ _ hp => exact predicated_true hp
  | loop _ _ _ _ hlc => exact if_neg hlc
  | chkANcR _ _ _ hp hb ha | chkAClrR _ _ _ hp hb ha | chkANcF _ _ _ hp hb ha | chkAClrF _ _ _ hp hb ha =>
    exact (predicated_true hp).trans (checkAlat_miss hb ha)
  | chkSM _ _ _ hp hb hn => exact (predicated_true hp).trans ((if_pos hn).trans (checkFails_branches hb))
  | chkSF _ _ _ hp hb hf h2 hn =>
    refine (predicated_true hp).trans ((guarded_pass ?_).trans ((if_pos ⟨h2, hn⟩).trans (checkFails_branches hb)))
    simpa using chkFp_of_enabled hf

/-- AR[CCV] is a plain application register: nothing stops a move. -/
theorem arWriteChecks_ccv (s : State) : ∀ p ∈ arWriteChecks s Ar.ccv false, p.1 = false := by
  simp [arWriteChecks, chkIllegal, arNamed, isKr, Ar.ccv]

theorem arReadChecks_ccv {s : State} {r1 : BitVec 7} (h : r1 ≠ 0) : ∀ p ∈ arReadChecks s r1 Ar.ccv, p.1 = false := by
  simpa [arReadChecks, chkTarget, chkIllegal, arNamed] using h

/-- A target other than GR0 passes its check. -/
theorem guarded_chkTarget {s : State} {r1 : BitVec 7} {k : Out} (h : r1 ≠ 0) : guarded s [chkTarget r1] k = k :=
  guarded_pass (by simpa [chkTarget] using h)

/-- An instruction that does not branch and raises nothing completes with its effects. -/
theorem exec_of_completesTo {i : Instr} {s u : State} (h : CompletesTo s i u) : exec i s = finish s u := by
  cases h with
  | plain _ _ _ hp hi =>
    simp only [List.mem_cons, List.not_mem_nil, or_false] at hi
    rcases hi with rfl | rfl | rfl | rfl | rfl | rfl | rfl | rfl | rfl <;> exact predicated_true hp
  | brp => rfl
  | invala _ hp => exact predicated_true hp
  | addp4 _ _ _ _ hp hr | addp4Imm _ _ _ _ hp hr | shladdp4 _ _ _ _ _ hp hr =>
    exact (predicated_true hp).trans (guarded_chkTarget hr)
  | toCcv _ _ hp hn =>
    exact (predicated_true hp).trans (guarded_pass (by rw [hn]; exact arWriteChecks_ccv s))
  | fromCcv _ _ hp hr => exact (predicated_true hp).trans (guarded_pass (arReadChecks_ccv hr))

/-- Such an instruction changes no serializable resource. -/
theorem CompletesTo.sys_eq {i : Instr} {s u : State} (h : CompletesTo s i u) : u.sys = s.sys := by
  cases h with
  | addp4 | addp4Imm | shladdp4 => exact State.setGr_sys ..
  | fromCcv => exact State.setVal_sys ..
  | _ => rfl

/-- An instruction turned off by its predicate completes; those that take none have PR0. -/
theorem exec_of_pred_false {i : Instr} {s : State} (h : s.pred (qpOf i) = false) : exec i s = finish s s := by
  have pr0 : s.pred 0 ≠ false := by simp [State.pred]
  cases i
  case memUpd qp op r3 upd hint => cases op <;> exact predicated_false h
  case brRel form =>
    cases form
    case cloop | cexit | ctop | brp => exact absurd h pr0
    all_goals exact predicated_false h
  case loadrs | flushrs | alloc | cover | clrrrb | clrrrbPr | rfi | bsw0 | bsw1 | epc | vmsw0 | vmsw1 | brIa =>
    exact absurd h pr0
  all_goals exact predicated_false h

/-- The fault of a fetch from an unimplemented address, in the terms of the statements. -/
theorem excUnimplInstr_eq : excUnimplInstr = fetchFault 0x5E00 0x10 none none := rfl

/-- What an instruction that does not branch ends in, in the terms of the statements: the fault of the fetch past the top, the
next state, or the traps of sequential flow. -/
theorem finish_sequential {s u v : State} {uia top : Bool} (hit : u.psrNow Psr.it = s.psrNow Psr.it) (hv : v = advanced s u)
    (htop : top = (lastSlot s && decide ((if s.psrNow Psr.it then v.ip else v.ip <<< 1) = 0)))
    (huia : uia = ((lastSlot s && unimplInstr v v.ip && Config.uiaAsTrap) || (top && (Config.uiaAsTrap || s.psrNow Psr.ss)))) :
    finish s u =
      if top = true ∧ uia = false then
        deliver { v with ctx := Ctx.none } (fetchFault 0x5E00 0x10 none none) (uiaIip v v.ip) v.slot v.slot
      else if s.psrNow Psr.ss = false ∧ uia = false then .next v
      else deliver v { off := if uia then 0x5E00 else 0x6000
                       code := (if s.psrNow Psr.ss then 8 else 0) ||| (if uia then 16 else 0) }
        (if uia then uiaIip v v.ip else v.ip) v.slot (if s.ctx.mlx then 2 else s.slot) := by
  have htop' : top = (lastSlot s && pastTop v v.ip) := by
    rw [htop, pastTop_eq, hv, advanced_psrNow_it, hit]
  have huia' : uia = seqUia s v := by rw [huia, htop', seqUia_eq]
  rw [finish_eq, ← hv, ← htop', ← huia', withTraps_sequential, excUnimplInstr_eq]

/-- A taken branch takes the traps that its code names. -/
theorem finishBranch_eq {s u v : State} {target : Word} {lowered uia : Bool} {code : BitVec 16} (hv : v = branched s u target)
    (huia : uia = unimplInstr v v.ip)
    (hcode : code = (if s.dpsr Psr.lp && lowered then 2 else 0) ||| (if s.dpsr Psr.tb then 4 else 0) |||
      (if s.psrNow Psr.ss then 8 else 0) ||| (if uia then 16 else 0)) :
    finishBranch s u target lowered =
      if code = 0 then .next v
      else deliver v
        { off := if uia || (s.dpsr Psr.lp && lowered) then 0x5E00 else if s.dpsr Psr.tb then 0x5F00 else 0x6000, code := code }
        (if uia then uiaIip v v.ip else v.ip) 0 (if s.ctx.mlx then 2 else s.slot) := by
  have hslot : v.slot = 0 := by rw [hv, branched_slot]
  have htraps : finishBranch s u target lowered = withTraps s v (s.dpsr Psr.lp && lowered) (s.dpsr Psr.tb) uia := by
    rw [huia, hv]; rfl
  rw [htraps, withTraps_eq, excTrap, trapCode_eq, ← hcode, hslot, trapSlot]

end Machine
end Sys2Proof
end

section
/-!
The traps after an instruction (BranchTraps), with the entry to IA-32 code (40_psr_instructions.md R348).
-/
namespace Sys2Proof
namespace Machine

/-- A change of PSR bits of the footprint after an instruction has completed. -/
theorem SysFrame.onPsr {f : Footprint} {y z : Sys} (h : SysFrame f y z) {g : Word → Word}
    (hg : g z.psr &&& ~~~f.psr = z.psr &&& ~~~f.psr) : SysFrame f y (z.onPsr g) :=
  { h with psr := hg.trans h.psr }

/-- The same in every view, for bits other than PSR.ic, where nothing is put in flight. -/
theorem Frame.onPsr {f : Footprint} {s t : State} (h : Frame f s t) {g : Word → Word}
    (hg : ∀ p, g p &&& ~~~f.psr = p &&& ~~~f.psr) (hic : ∀ p, bit (g p) Psr.ic = bit p Psr.ic)
    (hd : f.data = false := by rfl) (hf : f.fetch = false := by rfl) : Frame f s (t.mapSys (Sys.onPsr g)) := by
  have views {l k : List Sys} (hv : List.Forall₂ (SysFrame f.views) l k) :
      List.Forall₂ (SysFrame f.views) l (k.map (Sys.onPsr g)) :=
    List.forall₂_map_right_iff.mpr (hv.imp fun _ _ hab => hab.onPsr (by rw [f.views_of hd hf]; exact hg _))
  exact
    { h with
      sys := h.sys.onPsr (hg _)
      dataOld := fun hs => views (h.dataOld hs)
      fetchOld := fun hs => views (h.fetchOld hs)
      lastTc := fun ht => by simpa [hic] using h.lastTc ht }

/-- A jump's frame does not say where it goes. -/
theorem Frame.withIp {f : Footprint} {s t : State} (h : Frame f s t) (ip : Word) (hj : f.jump = true := by rfl) :
    Frame f s { t with ip := ip } := { h with next := by simp [hj] }

/-- The state in which br.ia enters IA-32 code. -/
def ia32Entered (s : State) (b2 : BitVec 3) : State :=
  { (branched s s 0).mapSys (Sys.onPsr fun p => setBit p Psr.is true) with ip := ((s.getBr b2).setWidth 32).setWidth 64 }

theorem bit_setBit_self (p : Word) {n : Nat} (h : n < 64) : bit (setBit p n true) n = true := by
  simp [bit, setBit, bitMask, h]

theorem bit_setBit_ne (p : Word) {n m : Nat} (b : Bool) (h : m ≠ n) : bit (setBit p n b) m = bit p m := by
  unfold bit setBit bitMask
  by_cases hm : m < 64
  · cases b
    · simp [hm]; omega
    · simp [hm]; omega
  · rw [BitVec.getLsbD_of_ge _ _ (Nat.not_lt.mp hm), BitVec.getLsbD_of_ge _ _ (Nat.not_lt.mp hm)]

/-- Writing a bit leaves the bits outside it. -/
theorem setBit_outside (p : Word) (n : Nat) (b : Bool) : setBit p n b &&& ~~~bitMask n = p &&& ~~~bitMask n := by
  unfold setBit
  ext i hi
  cases b <;> simp [Bool.and_or_distrib_right]

theorem ia32Entered_slot (s : State) (b2 : BitVec 3) : (ia32Entered s b2).slot = 0 := branched_slot ..

/-- IA-32 code begins at the low 32 bits of the target. -/
theorem ia32Entered_ip (s : State) (b2 : BitVec 3) :
    (ia32Entered s b2).ip = 0#32 ++ (s.getBr b2).extractLsb' 0 32 := by
  have hlow : (s.getBr b2).toNat % 2 ^ 32 < 2 ^ 32 := Nat.mod_lt _ (by decide)
  apply BitVec.eq_of_toNat_eq
  simp only [ia32Entered, BitVec.toNat_setWidth, BitVec.toNat_append, BitVec.extractLsb'_toNat, BitVec.toNat_ofNat,
    Nat.zero_mod, Nat.zero_shiftLeft, Nat.zero_or, Nat.shiftRight_zero]
  omega

/-- br.ia with PSR.di = 0 in a state from which IA-32 code may be entered: the traps after the entry. -/
theorem exec_brIa (b2 : BitVec 3) (p : BitVec 1) (wh : BitVec 2) (d : BitVec 1) {s : State} (hdi : s.dpsr Psr.di = false)
    (hentry : iaUndefined s = false) :
    exec (.brIa b2 p wh d) s = withTraps s (ia32Entered s b2) false (s.dpsr Psr.tb) false := by
  show guarded s [(s.dpsr Psr.di, excDisabledIsa)] _ = _
  rw [guarded_cons, hdi, hentry]
  rfl

theorem ia32Entered_is (s : State) (b2 : BitVec 3) : bit (ia32Entered s b2).sys.psr Psr.is = true :=
  bit_setBit_self _ (by decide)

/-- Entering IA-32 code changes PSR.is and jumps. -/
theorem ia32Entered_frame (s : State) (b2 : BitVec 3) :
    Frame { psr := 1#64 <<< 34, jump := true } s (ia32Entered s b2) :=
  (((Touch.refl _ s).frame_branched 0).onPsr (fun p => setBit_outside p Psr.is true)
    fun p => bit_setBit_ne p true (by decide)).withIp _

/-- Settles O28: taken branches, instructions turned off and instructions that complete go through the shared completions, whose
traps are said once. -/
theorem branchTraps : Obligations.BranchTraps := by
  unfold Obligations.BranchTraps
  refine ⟨?_, ?_, ?_, ?_⟩
  · intro i s u v target lowered uia code hbr hv huia hcode
    exact ⟨by rw [hv, branched_ip], (exec_of_takenTo hbr).trans (finishBranch_eq hv huia hcode)⟩
  · intro i s v uia top hoff hv htop huia
    exact (exec_of_pred_false hoff).trans (finish_sequential rfl hv htop huia)
  · intro i s u v uia top hdone hv htop huia
    have hlast : (2 ≤ s.slot.toNat ∨ s.ctx.mlx = true) ↔ lastSlot s = true := by simp [lastSlot]
    refine ⟨?_, ?_, ?_⟩
    · simp only [hlast, hv, advanced_ip]
    · simp only [hlast, hv, advanced_slot]
    · have hit : u.psrNow Psr.it = s.psrNow Psr.it := by rw [State.psrNow, hdone.sys_eq, State.psrNow]
      exact (exec_of_completesTo hdone).trans (finish_sequential hit hv htop huia)
  · intro b2 p wh d s hdi hic hdt hit hmc htrap
    refine ⟨ia32Entered s b2, ia32Entered_is s b2, ia32Entered_frame s b2, ?_⟩
    have hentry : iaUndefined s = false := by simp [iaUndefined, hic, hdt, hit, hmc]
    have hcode : trapCode false (s.dpsr Psr.tb) (s.psrNow Psr.ss) false ≠ 0 := by
      rw [ne_eq, trapCode_eq_zero_iff]
      rcases htrap with h | h <;> simp [h]
    rw [exec_brIa b2 p wh d hdi hentry, withTraps_eq, if_neg hcode, ← ia32Entered_ip, ia32Entered_slot,
      excTrap, trapCode_eq, trapSlot]
    simp

end Machine
end Sys2Proof
end

section
/-!
The fetch of an instruction, and the step that runs what it decodes to (10_state.md R31; 21_memory_translation.md R280, R284;
70_reset_and_hazards.md R560).
-/
namespace Sys2Proof
namespace Machine

/-- Nothing owed, no IA-32 code, no pending interrupt: what comes next is the fetch. -/
theorem withBoundary_of_fetches {s : State} (h : Fetches s) (k : State → Out) : withBoundary s k = k s := by
  obtain ⟨hmc, hpal, his, hirq⟩ := h
  have howed : (s.mcOwed && !s.psrNow Psr.mc) = false := by
    rcases hmc with h | h <;> simp [h]
  simp only [withBoundary, howed, hpal, his, hirq, Bool.false_and, Bool.false_eq_true, if_false]

theorem step_of_fetches {s : State} (h : Fetches s) : step s = ticked (withFetched s exec) :=
  congrArg ticked (withBoundary_of_fetches h _)

/-- A search for a translation keeps the slot. -/
theorem Walked.slot {s t : State} (h : Walked s t) : t.slot = s.slot := by
  obtain ⟨b, c, rfl | ⟨n, side, e, rfl⟩⟩ := h <;> rfl

/-- Where no older value of a byte is left, the fetch sees memory. -/
theorem fetchByte_of_fresh {s : State} {a : Nat} (h : staleValues s.stale a = []) : s.fetchByte a = readByte s.mem a := by
  simp only [State.fetchByte, h, pick]

theorem fetchBytes_of_fresh {s : State} {n : Nat} : ∀ {a : Nat}, (∀ x, inBytes a n x = true → staleValues s.stale x = []) →
    s.fetchBytes a n = readList s.mem a n := by
  induction n with
  | zero => intros; rfl
  | succ n ih =>
    intro a h
    have hhead : inBytes a (n + 1) a = true := by simp [inBytes]
    have htail : ∀ x, inBytes (a + 1) n x = true → staleValues s.stale x = [] := fun x hx => h x <| by
      simp only [inBytes, Bool.and_eq_true, decide_eq_true_eq] at hx ⊢
      omega
    rw [State.fetchBytes, readList, fetchByte_of_fresh (h a hhead), ih htail]

/-- The bundle at populated addresses of which no older value is left. -/
theorem fetchBundle_of_fresh {s : State} {pa : Nat} (hpop : unpopulated s.holes pa 16 = false)
    (h : ∀ x, inBytes pa 16 x = true → staleValues s.stale x = []) :
    s.fetchBundle pa = BitVec.ofNat 128 (leVal (readList s.mem pa 16)) := by
  simp only [State.fetchBundle, hpop, Bool.false_eq_true, if_false, fetchBytes_of_fresh h]

/-- A fetch that depends on what its own group's srlz.i is to serialize is refused. -/
theorem withInstrAddress_early {s : State} (k : Nat → Attr → State → Out) (hu : unimplInstr s s.ip = false)
    (he : s.fetchesEarly = true) : withInstrAddress s k = .refused .dependencyViolation := by
  simp only [withInstrAddress, hu, he, Bool.false_eq_true, if_false, if_true]

/-- No instruction breakpoint fires while PSR.db is 0. -/
theorem instrDebug_off {s : State} {v : TransView} (h : v.db = false) : (instrDebug s v).1 = false := by
  simp only [instrDebug, h, Bool.false_and]

/-- With translation off the fetch goes to the address itself. -/
theorem withInstrAddress_physical {s : State} (k : Nat → Attr → State → Out) (hu : unimplInstr s s.ip = false)
    (he : s.fetchesEarly = false) (hdb : (s.fetchView 0).db = false) (hit : s.psrNow Psr.it = false) :
    withInstrAddress s k =
      k (s.ip.toNat % 2 ^ 63) (if bit s.ip 63 then .uc else .wbl) { s with ctx := Ctx.none } := by
  simp only [withInstrAddress, hu, he, hit, Bool.false_eq_true, if_false, Bool.not_false, if_true]
  exact guarded_pass (by simpa using instrDebug_off hdb)

/-- A usable translation of the instruction address takes the fetch to its page. -/
theorem withInstrAddress_virtual {s u : State} {e : TlbEntry} (k : Nat → Attr → State → Out) (hu : unimplInstr s s.ip = false)
    (he : s.fetchesEarly = false) (hdb : (s.fetchView 0).db = false) (hit : s.psrNow Psr.it = true)
    (hfound : searchTlb { s with ctx := Ctx.none } (s.fetchView 0) (s.fetchView 100) .instr s.ip = .found e u)
    (hpass : ∀ c ∈ instrFaults s (s.fetchView 0) e, c.1 = false) :
    withInstrAddress s k =
      k (e.pa s.ip) (attrOf e.ma)
        { u with ctx := { Ctx.none with translated := true, ed := e.ed, ar := e.ar, pl := e.pl } } := by
  simp only [withInstrAddress, hu, he, hit, hfound, Bool.false_eq_true, if_false, Bool.not_true]
  rw [guarded_append hpass]
  exact guarded_pass (by simpa using instrDebug_off hdb)

/-- An instruction that keeps the rules of its group runs, and with a true predicate its writes count for the group. -/
theorem withGroup_keeps {i : Instr} {qp : BitVec 6} {s : State} (k : State → Out)
    (hend : i.mustEndGroup = true → s.ctx.stopAfter = true) (hrule : s.pred qp = true → i.breaksGroup s = false) :
    withGroup i qp s k = k (if s.pred qp then { s with groupRegs := i.tagsWritten s ++ s.groupRegs } else s) := by
  have hlast : (i.mustEndGroup && !s.ctx.stopAfter) = false := by
    cases hm : i.mustEndGroup
    · rfl
    · simp [hend hm]
  unfold withGroup
  rw [hlast, if_neg Bool.false_ne_true]
  cases hp : s.pred qp
  · rfl
  · simp [hrule hp]

/-- A slot that decodes to an instruction hands it on to the rules of its group. -/
theorem withDecoded_instr {b : Bundle} {s : State} {info : SlotInfo} {i : Instr} (k : Instr → State → Out)
    (hdec : decodeBundleSlot b s.slot.toNat = some info) (hres : info.result = .ok i) (htail : info.mlxTail = false) :
    withDecoded b s k =
      withGroup i info.qp { s with ctx := { s.ctx with mlx := info.mlx, stopAfter := info.stop } }
        (k i) := by
  simp only [withDecoded, hdec, hres, htail, Bool.false_eq_true, if_false]

/-- Settles O8: the fetch, in either mode of translation, arrives at the bundle in memory, and the decoded slot runs under the rules
of its group. -/
theorem stepRunsDecoded : Obligations.StepRunsDecoded := by
  unfold Obligations.StepRunsDecoded
  refine ⟨?_, ?_⟩
  · intro s hf hu he
    rw [step_of_fetches hf, withFetched, withInstrAddress_early _ hu he]
    rfl
  · intro s u v pa attr info i hf hu he hdb haddr hslot hord hfresh hdec hres htail hend hv hrule
    obtain ⟨hpop, hpib, hcoherent⟩ := hord
    -- The two kinds of fetch arrive at the same place, with the memory and the slot of before.
    have harrive : (∀ k, withInstrAddress s k = k pa attr u) ∧ u.mem = s.mem ∧ u.slot = s.slot := by
      rcases haddr with ⟨hit, rfl, rfl, rfl⟩ | ⟨hit, e, u', hfound, hpass, rfl, rfl, rfl⟩
      · exact ⟨fun k => withInstrAddress_physical k hu he hdb hit, rfl, rfl⟩
      · have hw := searchTlb_found hfound
        obtain ⟨-, -, -, hmem, -⟩ := hw.same
        exact ⟨fun k => withInstrAddress_virtual k hu he hdb hit hfound hpass, hmem, hw.slot⟩
    obtain ⟨hgo, hmem, hsl⟩ := harrive
    rw [step_of_fetches hf, withFetched, hgo]
    simp only [hsl, hslot, hcoherent, hpib, hpop, Option.isSome_none, Bool.false_eq_true, if_false]
    rw [fetchBundle_of_fresh hpop hfresh, hmem, withDecoded_instr exec (by simpa [hsl] using hdec) hres htail]
    subst hv
    exact congrArg ticked (withGroup_keeps (exec i) hend hrule)

end Machine
end Sys2Proof
end

section
/-!
The state after reset (10_state.md R68).
-/
namespace Sys2Proof
namespace Machine

/-- Every register of a file filled with its default reads the default. -/
theorem rd_replicate {α : Type} (n i : Nat) (d : α) : rd (Vector.replicate n d) i d = d := by
  unfold rd
  rw [Vector.getElem?_replicate]
  split <;> rfl

/-- PSR.vm is reserved where it is not implemented: a PSR of 0 has no reserved bit set either way. -/
theorem psrReservedSet_zero : psrReservedSet 0 = false := by
  simp [psrReservedSet, bit]

/-- Unique keys hold where no key is valid. -/
theorem PkrUnique.of_none_valid {s : State} (h : ∀ i, pkrValid (rd s.sys.pkr i 0) = false) : PkrUnique s := by
  intro i j _ _ hv
  rw [h i] at hv
  cases hv

theorem memoryOk_reset : MemoryOk State.reset := rfl

theorem psrClean_reset : PsrClean State.reset := psrReservedSet_zero

theorem pkrUnique_reset : PkrUnique State.reset :=
  .of_none_valid fun i => by
    rw [show State.reset.sys.pkr = Vector.replicate 256 0 from rfl, rd_replicate]
    rfl

/-- Settles O1: the reset values, read off; a file filled with one value reads it everywhere. -/
theorem resetState : Obligations.ResetState := by
  unfold Obligations.ResetState
  have htrs : ∀ i, i < 256 → rd State.reset.sys.itr i none = none ∧ rd State.reset.sys.dtr i none = none :=
    fun i _ => ⟨rd_replicate 256 i none, rd_replicate 256 i none⟩
  exact ⟨rfl, rfl, rfl, rfl, rfl, rfl, rfl, rfl, rfl, rfl, rfl, htrs, rfl, rfl, rfl,
    memoryOk_reset, psrClean_reset, pkrUnique_reset⟩

end Machine
end Sys2Proof
end

section
/-!
SUPPORT. The interval timer, and what the machine does by itself after it has counted: nothing that is pending is lost
(11_state_control_registers.md R97; 60_exceptions.md R514; log entry 21).
-/
namespace Sys2Proof
namespace Machine

/-- With nothing in flight every consumer sees the values written last. -/
theorem Settled.dview_eq {s : State} (h : Settled s) (c : Config.Site) : s.dview c = s.sys := by
  rw [State.dview, h.1, pick]

theorem Settled.dcr_eq {s : State} (h : Settled s) (n u : Nat) : s.dcr n u = s.sys.getCr n := by
  rw [State.dcr, h.dview_eq]

/-! A local source. -/

theorem postLocal_irr (s : State) (vec : Word) :
    (s.postLocal vec).irr = if bit vec 16 then s.irr else s.irr ||| (1#256 <<< (vec.extractLsb' 0 8).toNat) :=
  apply_ite State.irr ..

/-- A local source loses no pending interrupt. -/
theorem postLocal_pending {s : State} {n : Nat} (vec : Word) (h : s.irr.getLsbD n = true) :
    (s.postLocal vec).irr.getLsbD n = true := by
  rw [postLocal_irr]
  split
  · exact h
  · rw [BitVec.getLsbD_or, h, Bool.true_or]

/-- A source that is not masked makes its vector pending. -/
theorem postLocal_pending_self (s : State) {vec : Word} (h : bit vec 16 = false) :
    (s.postLocal vec).irr.getLsbD (vec.extractLsb' 0 8).toNat = true := by
  have hv : (vec.extractLsb' 0 8).toNat < 256 := (vec.extractLsb' 0 8).isLt
  rw [postLocal_irr, h, if_neg Bool.false_ne_true, BitVec.getLsbD_or, BitVec.getLsbD_shiftLeft]
  simp only [hv, lt_irrefl, Nat.sub_self, decide_true, decide_false, Bool.not_false, Bool.true_and]
  exact Bool.or_true _

/-! The count. -/

/-- How far the interval timer counts in a step. -/
def timerStep (s : State) : Nat := 1 + Config.freeNat .itcStep s.tick % 2 ^ 32

theorem timerStep_pos (s : State) : 0 < timerStep s := by
  unfold timerStep; omega

theorem timerStep_le (s : State) : timerStep s ≤ 2 ^ 32 := by
  unfold timerStep; omega

theorem advanceTimer_itc (s : State) : s.advanceTimer.sys.itc = s.sys.itc + BitVec.ofNat 64 (timerStep s) := rfl

theorem advanceTimer_irr {s : State} (h : Settled s) :
    s.advanceTimer.irr = if timerHits s.sys.itc (s.sys.getCr 1) (timerStep s) then (s.postLocal (s.sys.getCr 72)).irr else s.irr := by
  simp only [State.advanceTimer, h.dview_eq, h.dcr_eq, postLocal_irr, State.mapSys_irr, timerStep]

/-- A match value that is k counts ahead is passed by d counts or more. -/
theorem timerHits_of_ahead {itc itm : Word} {k d : Nat} (hk : 0 < k) (hkd : k ≤ d) (hd : d ≤ 2 ^ 32)
    (h : itc + BitVec.ofNat 64 k = itm) : timerHits itc itm d = true := by
  have hdist : (itm - itc).toNat = k := by
    rw [← h, BitVec.add_comm, BitVec.add_sub_cancel, BitVec.toNat_ofNat]
    exact Nat.mod_eq_of_lt (by omega)
  simp [timerHits, hdist, hk, hkd]

/-! After the count. -/

/-- The count stays, and what is pending stays pending. -/
def KeepsPending (s t : State) : Prop :=
  t.sys.itc = s.sys.itc ∧ ∀ n, s.irr.getLsbD n = true → t.irr.getLsbD n = true

theorem KeepsPending.of_eq {s t : State} (hc : t.sys.itc = s.sys.itc) (hi : t.irr = s.irr) : KeepsPending s t :=
  ⟨hc, fun n h => by rwa [hi]⟩

theorem KeepsPending.trans {s t u : State} (h : KeepsPending s t) (k : KeepsPending t u) : KeepsPending s u :=
  ⟨k.1.trans h.1, fun n hn => k.2 n (h.2 n hn)⟩

theorem freeInterruptionCrs_itc (tick : Nat) (y : Sys) : (freeInterruptionCrs tick y).itc = y.itc := by
  simp [freeInterruptionCrs]

theorem keepsPending_volatile (s : State) : KeepsPending s s.volatile := by
  unfold State.volatile
  split
  · exact .of_eq (by simp [freeInterruptionCrs_itc]) (by simp)
  · exact .of_eq rfl rfl

theorem keepsPending_evict (s : State) : KeepsPending s s.evict := .of_eq rfl rfl

/-- A search for a translation changes neither the count nor anything of the interrupts. -/
theorem Walked.interrupts {s t : State} (h : Walked s t) :
    t.sys.itc = s.sys.itc ∧ t.irr = s.irr ∧ t.xtp = s.xtp ∧ t.palOwed = s.palOwed ∧ t.sys.inService = s.sys.inService := by
  obtain ⟨b, c, rfl | ⟨n, side, e, rfl⟩⟩ := h
  · exact ⟨rfl, rfl, rfl, rfl, rfl⟩
  · obtain ⟨x, y, hy⟩ := Sys.insertTc_tc n side e s.sys
    simp [hy]

theorem Walked.keepsPending {s t : State} (h : Walked s t) : KeepsPending s t := by
  obtain ⟨hitc, hirr, -⟩ := h.interrupts
  exact .of_eq hitc hirr

theorem keepsPending_countLoss {s t : State} (h : KeepsPending s t) : KeepsPending s (s.countLoss t) := by
  unfold State.countLoss
  split
  · split
    · exact .of_eq rfl rfl
    · exact h
  · exact h

/-- A walk by itself inserts a translation or leaves the lines it read. -/
theorem keepsPending_selfWalk (s : State) : KeepsPending s s.selfWalk := by
  unfold State.selfWalk
  extract_lets va side v
  split
  · split
    · next e t hfound =>
      have hends := walk_ends s v side va
      rw [hfound] at hends
      exact keepsPending_countLoss (Walked.keepsPending hends)
    · exact .of_eq rfl rfl
    · exact .of_eq rfl rfl
  · exact .of_eq rfl rfl

/-- A source that signals or not, at a free choice. -/
theorem keepsPending_signal (s : State) (c : Bool) (vec : Word) :
    KeepsPending s { s with irr := if c then (s.postLocal vec).irr else s.irr } := by
  refine ⟨rfl, fun n h => ?_⟩
  cases c
  · exact h
  · exact postLocal_pending vec h

theorem keepsPending_monitors (s : State) : KeepsPending s s.monitors := by
  unfold State.monitors
  split
  · exact keepsPending_signal s _ _
  · exact .of_eq rfl rfl

theorem keepsPending_corrected (s : State) : KeepsPending s s.corrected := keepsPending_signal s _ _

/-- What follows the count in a step. -/
theorem keepsPending_tickOver (s : State) : KeepsPending s.advanceTimer (tickOver s) :=
  (keepsPending_volatile _).trans <| (keepsPending_evict _).trans <| (keepsPending_selfWalk _).trans <|
    (keepsPending_monitors _).trans <| (keepsPending_corrected _).trans (.of_eq rfl rfl)

/-- The count loses no pending interrupt. -/
theorem advanceTimer_pending {s : State} (h : Settled s) {n : Nat} (hn : s.irr.getLsbD n = true) :
    s.advanceTimer.irr.getLsbD n = true := by
  rw [advanceTimer_irr h]
  split
  · exact postLocal_pending _ hn
  · exact hn

/-- Passing ITM makes the vector of ITV pending, unless ITV masks it. -/
theorem advanceTimer_pending_itv {s : State} (h : Settled s) {k : Nat} (hk : 0 < k) (hkd : k ≤ timerStep s)
    (hitm : s.sys.itc + BitVec.ofNat 64 k = s.sys.getCr 1) (hmask : bit (s.sys.getCr 72) 16 = false) :
    s.advanceTimer.irr.getLsbD ((s.sys.getCr 72).extractLsb' 0 8).toNat = true := by
  rw [advanceTimer_irr h, if_pos (timerHits_of_ahead hk hkd (timerStep_le s) hitm)]
  exact postLocal_pending_self s hmask

end Machine
end Sys2Proof
end

section
/-!
SUPPORT. The Processor Interrupt Block: what a store to it signals, and the integer stores and loads that reach it
(60_exceptions.md R513; 10_state.md R65; log entry 22).
-/
namespace Sys2Proof
namespace Machine

/-! The block. -/

/-- Only the interrupt state differs: the pending interrupts, the external task priority, the owed PAL interruption. -/
def Signalled (s t : State) : Prop := ∃ i x p, t = { s with irr := i, xtp := x, palOwed := p }

/-- A message by its delivery mode. -/
theorem postMessage_eq (s : State) (v : Nat) :
    postMessage s v =
      { s with
        irr := if v / 256 % 8 = 0 then s.irr ||| (1#256 <<< (v % 256))
          else if v / 256 % 8 = 4 then s.irr ||| 4#256 else if v / 256 % 8 = 7 then s.irr ||| 1#256 else s.irr
        palOwed := s.palOwed || (v / 256 % 8 == 2 || v / 256 % 8 == 5) } := by
  have hmode : v / 256 % 8 < 8 := Nat.mod_lt _ (by decide)
  unfold postMessage
  generalize v / 256 % 8 = mode at hmode ⊢
  interval_cases mode <;> simp

@[simp] theorem postMessage_irr (s : State) (v : Nat) :
    (postMessage s v).irr =
      if v / 256 % 8 = 0 then s.irr ||| (1#256 <<< (v % 256))
      else if v / 256 % 8 = 4 then s.irr ||| 4#256 else if v / 256 % 8 = 7 then s.irr ||| 1#256 else s.irr := by
  rw [postMessage_eq]

@[simp] theorem postMessage_xtp (s : State) (v : Nat) : (postMessage s v).xtp = s.xtp := by rw [postMessage_eq]

@[simp] theorem postMessage_palOwed (s : State) (v : Nat) :
    (postMessage s v).palOwed = (s.palOwed || (v / 256 % 8 == 2 || v / 256 % 8 == 5)) := by rw [postMessage_eq]

/-- An address of the interrupt region belongs to the processor of a LID. -/
abbrev NamesLid (lid : Word) (o : Nat) : Prop :=
  o / 4096 = (lid.extractLsb' 24 8).toNat ∧ o / 16 % 256 = (lid.extractLsb' 16 8).toNat

/-- A store of 8 bytes to the interrupt region for this processor is a message to it. -/
theorem pibStore_own {s : State} {o n : Nat} (v : Nat) (hn : n = 8) (ho : o < 0x100000) (ha : o % 8 = 0)
    (hlid : NamesLid (s.dcr 64 4) o) : pibStore s o n v = .ok (postMessage s v) := by
  rw [pibStore, if_pos ho, if_pos ⟨hn, ha⟩]
  exact if_pos hlid

/-- A message to another processor does nothing here. -/
theorem pibStore_other {s : State} {o n : Nat} (v : Nat) (hn : n = 8) (ho : o < 0x100000) (ha : o % 8 = 0)
    (hlid : ¬NamesLid (s.dcr 64 4) o) : pibStore s o n v = .ok s := by
  rw [pibStore, if_pos ho, if_pos ⟨hn, ha⟩]
  exact if_neg hlid

/-- A store of a byte to XTP sets it. -/
theorem pibStore_xtp (s : State) {o n : Nat} (v : Nat) (hn : n = 1) (ho : o = 0x1E0008) :
    pibStore s o n v = .ok { s with xtp := BitVec.ofNat 8 v } := by
  subst hn ho
  rfl

/-- Any other store is undefined. -/
theorem pibStore_undefined (s : State) {o n : Nat} (v : Nat) (hm : n ≠ 8 ∨ o % 8 ≠ 0 ∨ 0x100000 ≤ o)
    (hx : n ≠ 1 ∨ o ≠ 0x1E0008) : pibStore s o n v = .error .pibUndefined := by
  unfold pibStore
  split
  · rw [if_neg (by omega)]
  · rw [if_neg (by omega)]

theorem Signalled.refl (s : State) : Signalled s s := ⟨_, _, _, rfl⟩

theorem signalled_postMessage (s : State) (v : Nat) : Signalled s (postMessage s v) :=
  ⟨_, s.xtp, _, postMessage_eq s v⟩

theorem Touch.signalled {f : Footprint} {s t u : State} (h : Touch f s t) (hi : f.irq = true) (ht : Signalled t u) :
    Touch f s u := by
  obtain ⟨i, x, p, rfl⟩ := ht
  exact { h with irq := by simp [hi] }

/-! The instructions that reach it. -/

/-- A search for a translation puts nothing in flight, and leaves the control registers. -/
theorem Walked.dcr_eq {s t : State} (h : Walked s t) (hs : Settled s) (n u : Nat) : t.dcr n u = s.sys.getCr n := by
  obtain ⟨hd, hf⟩ := hs
  obtain ⟨b, c, rfl | ⟨m, side, e, rfl⟩⟩ := h
  · exact Settled.dcr_eq ⟨hd, hf⟩ n u
  · obtain ⟨x, y, hy⟩ := Sys.insertTc_tc m side e s.sys
    rw [Settled.dcr_eq ⟨by simp [hd], by simp [hf]⟩, State.mapSys_sys, hy]
    rfl

theorem memStore_pib {s : State} {attr : Attr} {pa n o v : Nat} {be : Bool} (ho : pibOffset attr pa = some o)
    (ha : s.aliased attr pa n = false) : s.memStore attr pa n be v = pibStore (s.storeNowhere pa n) o n v := by
  simp only [State.memStore, ha, ho, Bool.false_eq_true, if_false]

theorem memLoad_pib {s : State} {attr : Attr} {pa n o : Nat} (ho : pibOffset attr pa = some o)
    (ha : s.aliased attr pa n = false) :
    s.memLoad attr pa n =
      if o = 0x1E0000 ∧ n = 1 then .ok ([(Config.freeWord .inta s.tick).setWidth 8], s) else .error .pibUndefined := by
  simp only [State.memLoad, ha, ho, Bool.false_eq_true, if_false]

/-- An integer store that nothing stops comes to its access. -/
theorem exec_intStore_accessible {i : Instr} {f : StoreForm} {s w : State} {pa : Nat} {attr : Attr}
    (hf : intStoreForm i = some f) (hp : s.pred f.qp = true) (hb : BaseOk f.r3 none f.upd) (h3 : s.nat f.r3 = false)
    (h2 : s.nat f.r2 = false) (ha : Accessible s (f.ref s) pa attr w) :
    exec i s = orRefuse (w.memStore attr pa f.size (s.dpsr Psr.be) (lowBytes f.size (s.val f.r2)))
      fun x => finish s (s.updBase f.r3 f.upd x) := by
  rw [exec_intStoreForm hf, intStore, predicated_true hp, guarded_pass, storeOp]
  · exact withRef_accessible ha
  · simp [chkIllegal, updIllegal_ok hb, h3, h2]

/-- A plain integer load that nothing stops comes to its access. -/
theorem exec_intLoad_accessible {i : Instr} {f : LoadForm} {s w : State} {pa : Nat} {attr : Attr}
    (hf : intLoadForm i = some f) (hp : s.pred f.qp = true) (h1 : f.r1 ≠ 0) (hb : BaseOk f.r3 (some f.r1) f.upd)
    (h3 : s.nat f.r3 = false) (hflav : f.flav = .plain) (ha : Accessible s (f.ref s) pa attr w) :
    exec i s = orRefuse (w.memLoad attr pa f.size) fun d =>
      finish s (s.updBase f.r3 f.upd (d.2.setVal f.r1 (BitVec.ofNat 64 (bytesVal (s.dpsr Psr.be) d.1)))) := by
  have hchecks : ∀ p ∈ [chkIllegal (decide (f.r1 = 0) || updIllegal f.r3 (some f.r1) f.upd)], p.1 = false := by
    simpa [chkIllegal, updIllegal_ok hb] using h1
  have href : checkRef s 0 ((intSpec f.size f.flav f.r1).ref s f.r3) = .ok { faults := [], pa := pa, attr := attr, st := w } := ha
  rw [exec_intLoadForm hf, intLoad, predicated_true hp, guarded_spChecks hchecks, loadOp, loadRef, href, h3]
  simp only [hflav]
  rfl

/-- An access that kept what its search left, and the completion after it, leave it too. -/
theorem Left.of_completed {s w x : State} {r3 : BitVec 7} {u : BaseUpd} (hsys : x.sys = w.sys) (hm : x.mcOwed = w.mcOwed)
    (hl : x.lines = w.lines) : Left w (advanced s (s.updBase r3 u x)) := by
  simp [Left, Searched, hsys, hm, hl]

/-- What an instruction that stores to the block changes: its base register, what a search may change, the ALAT and the interrupt
state. -/
abbrev pibFootprint (r3 : BitVec 7) (u : BaseUpd) : Footprint :=
  { gr := baseGr r3 u, tc := true, owed := true, alat := true, lines := true, irq := true }

/-- An integer store that nothing stops before its access to the block. -/
structure StoresToPib (i : Instr) (f : StoreForm) (s w : State) (pa o : Nat) (attr : Attr) : Prop where
  form : intStoreForm i = some f
  pred : s.pred f.qp = true
  base : BaseOk f.r3 none f.upd
  baseNat : s.nat f.r3 = false
  dataNat : s.nat f.r2 = false
  access : Accessible s (f.ref s) pa attr w
  offset : pibOffset attr pa = some o
  unaliased : w.aliased attr pa f.size = false
  quiet : Quiet s

/-- What the access makes of such a store. -/
theorem StoresToPib.exec_eq {i : Instr} {f : StoreForm} {s w : State} {pa o : Nat} {attr : Attr}
    (h : StoresToPib i f s w pa o attr) :
    exec i s = orRefuse (pibStore (w.storeNowhere pa f.size) o f.size (lowBytes f.size (s.val f.r2)))
      fun x => finish s (s.updBase f.r3 f.upd x) := by
  rw [exec_intStore_accessible h.form h.pred h.base h.baseNat h.dataNat h.access, memStore_pib h.offset h.unaliased]

/-- A store to the block completes with what it signals. -/
theorem StoresToPib.completes {i : Instr} {f : StoreForm} {s w x : State} {pa o : Nat} {attr : Attr}
    (h : StoresToPib i f s w pa o attr)
    (hx : pibStore (w.storeNowhere pa f.size) o f.size (lowBytes f.size (s.val f.r2)) = .ok x)
    (hsig : Signalled (w.storeNowhere pa f.size) x) :
    ∃ t, exec i s = .next t ∧ NewBase s t f.r3 f.upd ∧ Left w t ∧ t.irr = x.irr ∧ t.xtp = x.xtp ∧ t.palOwed = x.palOwed ∧
      t.sys.inService = s.sys.inService ∧ t.alat = (s.alat.filter fun a => !rangesOverlap a.pa a.size pa f.size) ∧
      Frame (pibFootprint f.r3 f.upd) s t := by
  have hw := h.access.walked
  obtain ⟨-, -, -, -, hserv⟩ := hw.interrupts
  obtain ⟨-, -, -, -, halat, -⟩ := hw.same
  have htouch : Touch (pibFootprint f.r3 f.upd) s (s.updBase f.r3 f.upd x) :=
    (((hw.touch rfl rfl rfl).alatTo _ rfl).signalled rfl hsig).updBase _ _ (fun _ hr => hr) bn_zero
  rw [h.exec_eq, hx, orRefuse, htouch.completes h.quiet it_zero vm_zero]
  obtain ⟨j, y, p, rfl⟩ := hsig
  exact ⟨_, rfl, newBase_updBase h.base, .of_completed rfl rfl rfl, by simp, by simp, by simp, by simp [hserv],
    by simp [halat, alatWithout], htouch.frame⟩

/-- One byte is its own value, in either byte order. -/
theorem bytesVal_singleton (be : Bool) (b : Byte) : bytesVal be [b] = b.toNat := by
  cases be <;> simp [bytesVal, leVal]

/-- What an integer load changes that allocates no ALAT entry. -/
abbrev loadFootprint (r1 r3 : BitVec 7) (u : BaseUpd) : Footprint :=
  { gr := r1 :: baseGr r3 u, tc := true, owed := true, lines := true }

/-- A load whose access changes nothing completes with its value in the target. -/
theorem Walked.loads {s w : State} {r1 r3 : BitVec 7} {u : BaseUpd} (hw : Walked s w) (h1 : r1 ≠ 0)
    (hb : BaseOk r3 (some r1) u) (hq : Quiet s) (v : Word) :
    ∃ t, finish s (s.updBase r3 u (w.setVal r1 v)) = .next t ∧ t.getGr r1 = { val := v, nat := false } ∧ NewBase s t r3 u ∧
      Left w t ∧ Frame (loadFootprint r1 r3 u) s t := by
  have hsearched : Touch (loadFootprint r1 r3 u) s w := hw.touch rfl rfl rfl
  have htouch : Touch (loadFootprint r1 r3 u) s (s.updBase r3 u (w.setVal r1 v)) :=
    (hsearched.setVal v List.mem_cons_self bn_zero).updBase _ _ (fun _ hr => List.mem_cons_of_mem _ hr) bn_zero
  refine ⟨_, htouch.completes hq it_zero vm_zero, ?_, newBase_updBase hb,
    .of_completed (State.setVal_sys ..) (State.setVal_mcOwed ..) (State.setVal_lines ..), htouch.frame⟩
  rw [advanced_getGr, getGr_updBase hb]
  exact getGr_setGr_self h1

end Machine
end Sys2Proof
end

section
/-!
The sources of external interrupts (InterruptSources).
-/
namespace Sys2Proof
namespace Machine

/-- The interval timer: the count moves on, and only adds to what is pending (11_state_control_registers.md R97). -/
theorem tickOver_timer {s : State} (h : Settled s) :
    ∃ d, 0 < d ∧ d ≤ 2 ^ 32 ∧ (tickOver s).sys.itc = s.sys.itc + BitVec.ofNat 64 d ∧
      (∀ n, s.irr.getLsbD n = true → (tickOver s).irr.getLsbD n = true) ∧
      ((∃ k, 0 < k ∧ k ≤ d ∧ s.sys.itc + BitVec.ofNat 64 k = s.sys.getCr 1) → bit (s.sys.getCr 72) 16 = false →
        (tickOver s).irr.getLsbD ((s.sys.getCr 72).extractLsb' 0 8).toNat = true) := by
  obtain ⟨hcount, hpending⟩ := keepsPending_tickOver s
  refine ⟨timerStep s, timerStep_pos s, timerStep_le s, hcount.trans (advanceTimer_itc s),
    fun n hn => hpending n (advanceTimer_pending h hn), ?_⟩
  rintro ⟨k, hk, hkd, hitm⟩ hmask
  exact hpending _ (advanceTimer_pending_itv h hk hkd hitm hmask)

/-- Settles O49: the timer by what each part of a step keeps; a store to the block by what it signals; a load by its one byte. -/
theorem interruptSources : Obligations.InterruptSources := by
  unfold Obligations.InterruptSources
  refine ⟨fun s h => tickOver_timer h, ?_, ?_⟩
  · intro i f s w pa o v attr hf hp hb h3 h2 ha ho hal hv hs hq
    have hstore : StoresToPib i f s w pa o attr := ⟨hf, hp, hb, h3, h2, ha, ho, hal, hq⟩
    obtain ⟨-, hirr, hxtp, hpal, -⟩ := ha.walked.interrupts
    refine ⟨?_, ?_, ?_⟩
    · intro hsize hregion haligned
      have hdata : lowBytes f.size (s.val f.r2) = v := by
        rw [hv, hsize]; exact Nat.mod_eq_of_lt (s.val f.r2).isLt
      have hlid : (w.storeNowhere pa f.size).dcr 64 4 = s.sys.getCr 64 := ha.walked.dcr_eq hs 64 4
      by_cases hown : NamesLid (s.sys.getCr 64) o
      · obtain ⟨t, hnext, hbase, hleft, hti, htx, htp, hserv, halat, hframe⟩ := hstore.completes
          (pibStore_own _ hsize hregion haligned (by rwa [hlid])) (signalled_postMessage _ _)
        refine ⟨t, hnext, hbase, hleft, by simp [htx, hxtp], hserv, halat, hframe, ?_⟩
        rw [if_pos hown, hti, htp, postMessage_irr, postMessage_palOwed, hdata]
        simp only [State.storeNowhere_irr, State.storeNowhere_palOwed, hirr, hpal, and_self]
      · obtain ⟨t, hnext, hbase, hleft, hti, htx, htp, hserv, halat, hframe⟩ := hstore.completes
          (pibStore_other _ hsize hregion haligned (by rwa [hlid])) (.refl _)
        refine ⟨t, hnext, hbase, hleft, htx.trans hxtp, hserv, halat, hframe, ?_⟩
        rw [if_neg hown]
        exact ⟨hti.trans hirr, htp.trans hpal⟩
    · intro hsize hoff
      obtain ⟨t, hnext, hbase, hleft, hti, htx, htp, hserv, halat, hframe⟩ :=
        hstore.completes (pibStore_xtp _ _ hsize hoff) ⟨_, _, _, rfl⟩
      have hbyte : t.xtp.toNat = v % 256 := by simp [htx, hv, hsize, lowBytes]
      exact ⟨t, hnext, hbase, hleft, hbyte, hti.trans hirr, htp.trans hpal, hserv, halat, hframe⟩
    · intro hmessage hbyte
      rw [hstore.exec_eq, pibStore_undefined _ _ hmessage hbyte]
      rfl
  · intro i f s w pa o attr hf hp h1 hb h3 hflav ha ho hal hq
    rw [exec_intLoad_accessible hf hp h1 hb h3 hflav ha, memLoad_pib ho hal]
    by_cases hinta : f.size = 1 ∧ o = 0x1E0000
    · rw [if_pos hinta, if_pos hinta.symm]
      obtain ⟨t, hnext, htarget, hbase, hleft, hframe⟩ := ha.walked.loads h1 hb hq
        (BitVec.ofNat 64 (bytesVal (s.dpsr Psr.be) [(Config.freeWord .inta w.tick).setWidth 8]))
      refine ⟨t, hnext, by rw [State.nat, htarget], ?_, hbase, hleft, hframe⟩
      rw [State.val, htarget, bytesVal_singleton]
      simp only [BitVec.toNat_ofNat]
      have := ((Config.freeWord .inta w.tick).setWidth 8).isLt
      omega
    · rw [if_neg hinta, if_neg fun h => hinta h.symm]
      rfl

end Machine
end Sys2Proof
end

section
/-!
Memory (StoreReadsBack).
-/
namespace Sys2Proof
namespace Machine

/-- A byte outside a range lies before or after it. -/
theorem inBytes_eq_false_iff {a n x : Nat} : inBytes a n x = false ↔ x < a ∨ a + n ≤ x := by
  simp only [inBytes, Bool.and_eq_false_iff, decide_eq_false_iff_not, not_le, not_lt]

/-- Settles O7: the bytes of a datum read back as they were written, and mean the datum in the byte order they were written in. -/
theorem storeReadsBack : Obligations.StoreReadsBack := by
  unfold Obligations.StoreReadsBack
  intro be m a n v hm
  refine ⟨readBytes_stored hm, fun x hx => readByte_writeList_out ?_⟩
  rw [valBytes_length]
  exact inBytes_eq_false_iff.mp hx

end Machine
end Sys2Proof
end

section
/-!
SUPPORT. Properties of the state that every step keeps: what of the machine is the same for all of them, said once. A property that
speaks of the memory and the serializable resources only, and that is durable, is kept by the completions, the interruptions, the
fetch and the data references; what is left to show of it is what the instructions that write system registers do, and what happens
by itself between two steps.
-/
namespace Sys2Proof
namespace Machine

/-- Where an outcome is a next state, that state has the property. -/
def EndsIn (P : State → Prop) : Out → Prop
  | .next t => P t
  | _ => True

/-- A property of the memory and the serializable resources that their shared updates keep: the one-instruction bits cleared, the marks
of the floating-point registers set, the caches of translations replaced, an interruption collected, bytes stored. -/
structure Durable (P : State → Prop) : Prop where
  congr : ∀ {s t : State}, P s → t.mem = s.mem → t.sys = s.sys → P t
  cleared : ∀ {s : State}, P s → P { s with sys := s.sys.onPsr clearOneShot }
  marked : ∀ {s : State} (f : BitVec 7), P s → P { s with sys := s.sys.onPsr (markFpWritten f) }
  cached : ∀ {s : State} (a b : List TlbEntry), P s → P { s with sys := { s.sys with itcTlb := a, dtcTlb := b } }
  interrupted : ∀ {s : State} (e : Exc) (iip : Word) (ri ei : BitVec 2) (nested : Bool), P s →
    P { s with sys := interruptSys s e iip ri ei nested }
  stored : ∀ {s : State} (pa : Nat) (bs : List Byte), P s → P { s with mem := writeList s.mem pa bs }

/-- The instructions that write a serializable resource: the PSR, a control register, the interval time counter, a translation, an
indirect register, the interrupts in service. -/
def writesSys : Instr → Bool
  | .sum .. | .rum .. | .ssm .. | .rsm .. | .movToUm .. | .movToPsrL .. | .bsw0 | .bsw1 | .vmsw0 | .vmsw1 | .epc | .rfi | .brRet ..
  | .brIa .. | .cover | .movToCr .. | .movFromCr .. | .movToAr .. | .movArImm .. | .movI .. | .movToRr .. | .movToDbr ..
  | .movToIbr .. | .movToPkr .. | .movToPmc .. | .movToPmd .. | .itcD .. | .itcI .. | .itrD .. | .itrI .. | .ptcL .. | .ptcG ..
  | .ptcGa .. | .ptcE .. | .ptrD .. | .ptrI .. => true
  | _ => false

/-! Outcomes. -/

section
variable {P : State → Prop}

theorem EndsIn.next {t : State} (h : P t) : EndsIn P (.next t) := h

theorem EndsIn.refused (r : Refusal) : EndsIn P (.refused r) := trivial

theorem EndsIn.fault (f : Fault) : EndsIn P (.fault f) := trivial

theorem EndsIn.of_next {o : Out} {t : State} (h : EndsIn P o) (ho : o = .next t) : P t := by
  subst ho
  exact h

theorem EndsIn.ite {c : Prop} [Decidable c] {o p : Out} (ho : EndsIn P o) (hp : EndsIn P p) :
    EndsIn P (if c then o else p) := by
  split
  · exact ho
  · exact hp

theorem EndsIn.orRefuse {α : Type} {x : Except Refusal α} {k : α → Out} (h : ∀ a, x = .ok a → EndsIn P (k a)) :
    EndsIn P (orRefuse x k) := by
  cases x with
  | error r => exact .refused r
  | ok a => exact h a rfl

namespace Durable
variable {s t : State}

/-! Interruptions and completions. -/

theorem deliver (hP : Durable P) (h : P s) (e : Exc) (iip : Word) (ri ei : BitVec 2) :
    EndsIn P (deliver s e iip ri ei) :=
  .ite (.refused _) (.next (hP.congr (hP.interrupted e iip ri ei (isNested s e) h) rfl rfl))

theorem raise (hP : Durable P) (h : P s) (e : Exc) : EndsIn P (raise s e) := hP.deliver h ..

theorem withTraps (hP : Durable P) (h : P t) (s0 : State) (lp tb uia : Bool) : EndsIn P (withTraps s0 t lp tb uia) :=
  .ite (hP.deliver h ..) (.next h)

theorem advanced (hP : Durable P) (h : P t) (s0 : State) : P (advanced s0 t) :=
  hP.congr (hP.cleared h) (by simp) (by simp)

theorem branched (hP : Durable P) (h : P t) (s0 : State) (target : Word) : P (branched s0 t target) :=
  hP.congr (hP.cleared h) (by simp) (by simp)

theorem finish (hP : Durable P) (h : P t) (s0 : State) : EndsIn P (finish s0 t) := by
  have ht : P (Machine.advanced s0 t) := hP.advanced h s0
  have hfetch : P { Machine.advanced s0 t with ctx := Ctx.none } := hP.congr ht rfl rfl
  exact .ite (hP.deliver hfetch ..) (hP.withTraps ht ..)

theorem finishBranch (hP : Durable P) (h : P t) (s0 : State) (target : Word) (lowered : Bool) :
    EndsIn P (finishBranch s0 t target lowered) := hP.withTraps (hP.branched h s0 target) ..

theorem predicated (hP : Durable P) (h : P s) {qp : BitVec 6} {k : Out} (hk : EndsIn P k) : EndsIn P (predicated qp s k) :=
  .ite hk (hP.finish h s)

theorem guarded (hP : Durable P) (h : P s) {k : Out} (hk : EndsIn P k) : ∀ l : List Check, EndsIn P (guarded s l k)
  | [] => hk
  | (_, e) :: l => .ite (hP.raise h e) (guarded hP h hk l)

/-- An instruction that its predicate or a check may stop. -/
theorem checked (hP : Durable P) (h : P s) {qp : BitVec 6} {l : List Check} {k : Out} (hk : EndsIn P k) :
    EndsIn P (Machine.predicated qp s (Machine.guarded s l k)) := hP.predicated h (hP.guarded h hk l)

/-! References. -/

theorem walked (hP : Durable P) (h : P s) (hw : Walked s t) : P t := by
  obtain ⟨b, c, rfl | ⟨n, side, e, rfl⟩⟩ := hw
  · exact hP.congr h rfl rfl
  · obtain ⟨x, y, hxy⟩ := Sys.insertTc_tc n side e s.sys
    exact hP.congr (hP.cached x y h) rfl hxy

theorem withRef (hP : Durable P) (h : P s) {n : Nat} {ref : Ref} {k : Checked → Out} (hk : ∀ c, P c.st → EndsIn P (k c)) :
    EndsIn P (withRef s n ref k) := by
  refine .orRefuse fun c hc => ?_
  have hst : P c.st := hP.walked h (checkRef_walked hc)
  split
  · exact hk c hst
  · exact hP.raise hst _

/-- A load changes the used lines or the owed machine check at most. -/
theorem memLoad (hP : Durable P) (h : P s) {attr : Attr} {pa n : Nat} {d : List Byte × State}
    (hd : s.memLoad attr pa n = .ok d) : P d.2 := by
  unfold State.memLoad at hd
  split at hd
  · cases hd
  · split at hd
    · split at hd <;> cases hd
      exact h
    · split at hd <;> cases hd <;> exact hP.congr h rfl rfl

theorem storeBytes (hP : Durable P) (h : P s) (pa : Nat) (bs : List Byte) : P (s.storeBytes pa bs) :=
  hP.congr (hP.stored pa bs h) rfl rfl

theorem touch (hP : Durable P) (h : P s) (attr : Attr) (pa n : Nat) : P (s.touch attr pa n) := hP.congr h rfl rfl

theorem storeNowhere (hP : Durable P) (h : P s) (pa n : Nat) : P (s.storeNowhere pa n) := hP.congr h rfl rfl

theorem signalled (hP : Durable P) (h : P s) (hs : Signalled s t) : P t := by
  obtain ⟨i, x, p, rfl⟩ := hs
  exact hP.congr h rfl rfl

/-- A store to the Processor Interrupt Block changes the interrupt state only. -/
theorem pibStore (hP : Durable P) (h : P s) {o n v : Nat} (ht : pibStore s o n v = .ok t) : P t := by
  unfold Machine.pibStore at ht
  dsimp only at ht
  split at ht
  · split at ht
    · split at ht <;> cases ht
      · exact hP.signalled h (signalled_postMessage s v)
      · exact h
    · cases ht
  · split at ht <;> cases ht
    exact hP.congr h rfl rfl

theorem memStore (hP : Durable P) (h : P s) {attr : Attr} {pa n v : Nat} {be : Bool}
    (ht : s.memStore attr pa n be v = .ok t) : P t := by
  unfold State.memStore at ht
  split at ht
  · cases ht
  · split at ht
    · exact hP.pibStore (hP.storeNowhere h pa n) ht
    · split at ht <;> cases ht
      · exact hP.congr h rfl rfl
      · exact hP.touch (hP.storeBytes h pa _) attr pa n

/-! Loads. -/

theorem updBase (hP : Durable P) (h : P t) (r3 : BitVec 7) (u : BaseUpd) : P (s.updBase r3 u t) :=
  hP.congr h (by simp) (by simp)

theorem setGr (hP : Durable P) (h : P s) (r : BitVec 7) (g : GReg) : P (s.setGr r g) := hP.congr h (by simp) (by simp)

theorem setVal (hP : Durable P) (h : P s) (r : BitVec 7) (v : Word) : P (s.setVal r v) := hP.setGr h r _

theorem setAr (hP : Durable P) (h : P s) {n : Nat} (v : Word) (hn : n ≠ Ar.itc) : P (s.setAr n v) :=
  hP.congr h (by simp [State.setAr, hn]) (by simp [State.setAr, hn])

/-- The mark of a floating-point register, in every view. -/
theorem markFp (hP : Durable P) (h : P s) (f : BitVec 7) : P (s.mapSys (Sys.onPsr (markFpWritten f))) :=
  hP.congr (hP.marked f h) rfl rfl

theorem setFr (hP : Durable P) (h : P s) (f : BitVec 7) (v : FWord) : P (s.setFr f v) := by
  unfold State.setFr
  split
  · exact h
  · refine hP.markFp ?_ f
    exact hP.congr h rfl rfl

end Durable

/-- What a load does to its target keeps the property. -/
structure LoadSpec.KeptBy (p : LoadSpec) (P : State → Prop) : Prop where
  put : ∀ be bs {s}, P s → P (p.put be bs s)
  putNat : ∀ {s}, P s → P (p.putNat s)
  putZero : ∀ {s}, P s → P (p.putZero s)
  onHit : ∀ {s}, P s → P (p.onHit s)

namespace Durable
variable {s t : State}

theorem intSpec (hP : Durable P) (n : Nat) (flav : LoadFlavour) (r1 : BitVec 7) : (intSpec n flav r1).KeptBy P where
  put _ _ _ h := hP.setVal h ..
  putNat h := hP.setGr h ..
  putZero h := hP.setVal h ..
  onHit h := h

theorem fpSpec (hP : Durable P) (n align : Nat) (sup : Support) (fmt : Config.FpFormat) (flav : LoadFlavour) (f1 : BitVec 7) :
    (fpSpec n align sup fmt flav f1).KeptBy P where
  put _ _ _ h := hP.setFr h ..
  putNat h := hP.setFr h ..
  putZero h := hP.setFr h ..
  onHit h := hP.markFp h _

theorem pairSpec (hP : Durable P) (fmt : PairFmt) (flav : LoadFlavour) (f1 f2 : BitVec 7) :
    (pairSpec fmt flav f1 f2).KeptBy P where
  put _ _ _ h := hP.setFr (hP.setFr h ..) ..
  putNat h := hP.setFr (hP.setFr h ..) ..
  putZero h := hP.setFr (hP.setFr h ..) ..
  onHit h := hP.markFp (hP.markFp h _) _

theorem alatTo (hP : Durable P) (h : P s) (l : List AlatEntry) : P { s with alat := l } := hP.congr h rfl rfl

theorem loadAlat (hP : Durable P) (h : P s) (p : LoadSpec) (attr : Attr) (pa : Nat) : P (loadAlat p attr pa s) := by
  unfold Machine.loadAlat
  split
  · exact hP.alatTo h _
  · exact h

theorem loadDefer (hP : Durable P) {p : LoadSpec} (hp : p.KeptBy P) (h : P t) (r3 : BitVec 7) (u : BaseUpd) :
    EndsIn P (loadDefer p r3 u s t) := by
  refine hP.finish (hP.updBase (hp.putNat ?_) r3 u) s
  split
  · exact hP.alatTo h _
  · exact h

theorem loadChecked (hP : Durable P) {p : LoadSpec} (hp : p.KeptBy P) {c : Checked} (h : P c.st) (r3 : BitVec 7)
    (u : BaseUpd) : EndsIn P (loadChecked p r3 u s c) := by
  refine .ite (hP.loadDefer hp h r3 u) (.ite ?_ ?_)
  · exact hP.finish (hP.updBase (hp.putZero (hP.alatTo h _)) r3 u) s
  · refine .orRefuse fun d hd => ?_
    exact hP.finish (hP.updBase (hp.put _ _ (hP.loadAlat (hP.memLoad h hd) p _ _)) r3 u) s

theorem loadRef (hP : Durable P) {p : LoadSpec} (hp : p.KeptBy P) (h : P s) (r3 : BitVec 7) (u : BaseUpd) :
    EndsIn P (loadRef p r3 u s) := by
  have hdefer : EndsIn P (Machine.loadDefer p r3 u s s) := hP.loadDefer hp h r3 u
  refine .ite (.ite hdefer (hP.raise h _)) (.ite hdefer (.orRefuse fun c hc => ?_))
  have hst : P c.st := hP.walked h (checkRef_walked hc)
  refine .ite ?_ ?_
  · split
    · exact hP.loadChecked hp hst r3 u
    · exact hP.loadDefer hp hst r3 u
    · exact hP.raise hst _
  · split
    · exact hP.loadChecked hp hst r3 u
    · exact hP.raise hst _

theorem loadHit (hP : Durable P) {p : LoadSpec} (hp : p.KeptBy P) (h : P t) (r3 : BitVec 7) (u : BaseUpd) :
    EndsIn P (loadHit p r3 u s t) := by
  refine hP.finish (hP.updBase (hp.onHit ?_) r3 u) s
  split
  · exact hP.alatTo h _
  · exact h

theorem loadOp (hP : Durable P) {p : LoadSpec} (h : P s) (hp : p.KeptBy P) (r3 : BitVec 7) (u : BaseUpd) :
    EndsIn P (loadOp p r3 u s) := by
  refine .ite (.ite (.ite (hP.raise h _) (hP.withRef h fun c hc => ?_)) ?_) (hP.loadRef hp h r3 u)
  · exact hP.loadHit hp hc r3 u
  · exact hP.loadHit hp h r3 u

theorem intLoad (hP : Durable P) (h : P s) (qp : BitVec 6) (n : Nat) (flav : LoadFlavour) (r1 r3 : BitVec 7) (u : BaseUpd) :
    EndsIn P (intLoad qp n flav r1 r3 u s) := hP.checked h (hP.loadOp h (hP.intSpec ..) r3 u)

theorem fillLoad (hP : Durable P) (h : P s) (qp : BitVec 6) (r1 r3 : BitVec 7) (u : BaseUpd) :
    EndsIn P (fillLoad qp r1 r3 u s) :=
  hP.checked h <| hP.loadOp h
    ⟨fun _ _ _ ht => hP.setGr ht .., fun ht => hP.setGr ht .., fun ht => hP.setVal ht .., id⟩ r3 u

theorem load16 (hP : Durable P) (h : P s) (qp : BitVec 6) (r1 r3 : BitVec 7) : EndsIn P (load16 qp r1 r3 s) := by
  have hput {t : State} (ht : P t) (v w : Word) : P ((t.setVal r1 v).setAr Ar.csd w) :=
    hP.setAr (hP.setVal ht r1 v) w (by decide)
  refine hP.checked h <| hP.loadOp h
    ⟨fun be bs t ht => ?_, fun ht => hP.setGr ht .., fun ht => hP.setVal ht .., id⟩ r3 .none
  dsimp only
  split
  · exact hput ht ..
  · exact hput ht ..

theorem fpLoad (hP : Durable P) (h : P s) (qp : BitVec 6) (fmt : FpFmt) (flav : FpFlavour) (f1 r3 : BitVec 7) (u : BaseUpd) :
    EndsIn P (fpLoad qp fmt flav f1 r3 u s) := hP.checked h (hP.loadOp h (hP.fpSpec ..) r3 u)

theorem fpFill (hP : Durable P) (h : P s) (qp : BitVec 6) (f1 r3 : BitVec 7) (u : BaseUpd) :
    EndsIn P (fpFill qp f1 r3 u s) := hP.checked h (hP.loadOp h (hP.fpSpec ..) r3 u)

theorem fpPairLoad (hP : Durable P) (h : P s) (qp : BitVec 6) (fmt : PairFmt) (flav : FpFlavour) (f1 f2 r3 : BitVec 7)
    (u : BaseUpd) : EndsIn P (fpPairLoad qp fmt flav f1 f2 r3 u s) := hP.checked h (hP.loadOp h (hP.pairSpec ..) r3 u)

/-! Stores and semaphores. -/

theorem storeOp (hP : Durable P) (h : P s) {n align v : Nat} {strict : Bool} {sup : Support} {r3 : BitVec 7} {u : BaseUpd}
    {extra : State → State} (hx : ∀ {t}, P t → P (extra t)) : EndsIn P (storeOp n align strict sup v r3 u extra s) :=
  hP.withRef h fun _ hc => .orRefuse fun _ ht => hP.finish (hP.updBase (hx (hP.memStore hc ht)) r3 u) s

theorem intStore (hP : Durable P) (h : P s) (qp : BitVec 6) (n : Nat) (r2 r3 : BitVec 7) (u : BaseUpd) :
    EndsIn P (intStore qp n r2 r3 u s) := hP.checked h (hP.storeOp h id)

theorem spillStore (hP : Durable P) (h : P s) (qp : BitVec 6) (r2 r3 : BitVec 7) (u : BaseUpd) :
    EndsIn P (spillStore qp r2 r3 u s) := hP.checked h (hP.storeOp h fun ht => hP.setAr ht _ (by decide))

theorem store16 (hP : Durable P) (h : P s) (qp : BitVec 6) (r2 r3 : BitVec 7) : EndsIn P (store16 qp r2 r3 s) :=
  hP.checked h (hP.storeOp h id)

theorem fpStore (hP : Durable P) (h : P s) (qp : BitVec 6) (fmt : FpFmt) (f2 r3 : BitVec 7) (u : BaseUpd) :
    EndsIn P (fpStore qp fmt f2 r3 u s) := hP.checked h (hP.storeOp h id)

theorem fpSpill (hP : Durable P) (h : P s) (qp : BitVec 6) (f2 r3 : BitVec 7) (u : BaseUpd) :
    EndsIn P (fpSpill qp f2 r3 u s) := hP.checked h (hP.storeOp h id)

theorem uceExport (hP : Durable P) {c : Checked} (h : P c.st) (n : Nat) (r1 : BitVec 7) : EndsIn P (uceExport n r1 s c) := by
  refine .ite (.refused _) (.ite (.refused _) (.ite ?_ ?_))
  · refine hP.finish (hP.setVal ?_ ..) s
    exact hP.congr h rfl rfl
  · exact hP.finish (hP.setVal (hP.touch (hP.storeBytes h c.pa _) ..) ..) s

theorem semOp (hP : Durable P) (h : P s) (n : Nat) (sup : Support) (r1 r3 : BitVec 7) (new : Nat → Option Nat) :
    EndsIn P (semOp n sup r1 r3 new s) := by
  refine hP.withRef h fun c hc => .ite (.orRefuse fun d hd => ?_) (hP.uceExport hc n r1)
  have hloaded : P d.2 := hP.memLoad hc hd
  dsimp only
  split
  · exact hP.finish (hP.setVal hloaded ..) s
  · exact .orRefuse fun t ht => hP.finish (hP.setVal (hP.memStore hloaded ht) ..) s

theorem cmpxchgOp (hP : Durable P) (h : P s) (qp : BitVec 6) (n : Nat) (r1 r2 r3 : BitVec 7) :
    EndsIn P (cmpxchgOp qp n r1 r2 r3 s) := hP.checked h (hP.semOp h ..)

theorem xchgOp (hP : Durable P) (h : P s) (qp : BitVec 6) (n : Nat) (r1 r2 r3 : BitVec 7) :
    EndsIn P (xchgOp qp n r1 r2 r3 s) := hP.checked h (hP.semOp h ..)

theorem fetchaddOp (hP : Durable P) (h : P s) (qp : BitVec 6) (n : Nat) (r1 : BitVec 7) (inc : BitVec 3) (r3 : BitVec 7) :
    EndsIn P (fetchaddOp qp n r1 inc r3 s) := hP.checked h (hP.semOp h ..)

theorem cmp8xchg16Op (hP : Durable P) (h : P s) (qp : BitVec 6) (r1 r2 r3 : BitVec 7) :
    EndsIn P (cmp8xchg16Op qp r1 r2 r3 s) := by
  refine hP.checked h (hP.withRef h fun c hc => .orRefuse fun d hd => ?_)
  have hloaded : P d.2 := hP.memLoad hc hd
  refine .ite (.orRefuse fun t ht => ?_) ?_
  · exact hP.finish (hP.setVal (hP.memStore hloaded ht) ..) s
  · exact hP.finish (hP.setVal hloaded ..) s

/-! Prefetches, flushes, queries, checks. -/

theorem lfetchOp (hP : Durable P) (h : P s) (qp : BitVec 6) (fault excl : Bool) (r3 : BitVec 7) (u : BaseUpd) :
    EndsIn P (lfetchOp qp fault excl r3 u s) := by
  refine hP.checked h (.ite (hP.guarded h (hP.withRef h fun c hc => .ite ?_ (.ite (.refused _) ?_)) _) ?_)
  · exact hP.finish (hP.updBase hc r3 u) s
  · exact hP.finish (hP.updBase (hP.touch hc ..) r3 u) s
  · exact hP.finish (hP.updBase h r3 u) s

theorem dropLine (hP : Durable P) (h : P s) (pa : Nat) : P (dropLine pa s) := hP.congr h rfl rfl

theorem flushOp (hP : Durable P) (h : P s) (qp : BitVec 6) (r3 : BitVec 7) {after : Nat → State → State}
    (ha : ∀ pa {t}, P t → P (after pa t)) : EndsIn P (flushOp qp r3 after s) := by
  refine hP.checked h (hP.withRef h fun c hc => hP.finish (ha c.pa ?_) s)
  exact hP.congr hc rfl rfl

theorem withTranslation (hP : Durable P) (h : P s) {ref : Ref} {keep : DFault → Bool} {k : TlbEntry → State → Out}
    (hk : ∀ e t, P t → EndsIn P (k e t)) : EndsIn P (withTranslation s ref keep k) := by
  have hends := searchTlb_ends s (s.dataView 0) (s.dataView 100) .data ref.va
  unfold Machine.withTranslation
  dsimp only
  generalize searchTlb s (s.dataView 0) (s.dataView 100) .data ref.va = found at hends ⊢
  cases found with
  | refuse r => exact .refused r
  | alternate => exact hP.raise h _
  | vhptFault a => exact hP.raise h _
  | miss t => exact hP.raise (hP.walked h hends) _
  | found e t =>
    have ht : P t := hP.walked h hends
    dsimp only
    split
    · exact hk e t ht
    · exact hP.raise ht _

theorem probeOp (hP : Durable P) (h : P s) (r1 : BitVec 7) (va : Word) (pl : BitVec 2) (k : Acc) :
    EndsIn P (probeOp r1 va pl k s) := by
  refine .ite (.refused _) (.ite ?_ (hP.withTranslation h fun e t ht => ?_))
  · exact hP.finish (hP.setVal h ..) s
  · exact hP.finish (hP.setVal ht ..) s

theorem probeFaultOp (hP : Durable P) (h : P s) (qp : BitVec 6) (r3 : BitVec 7) (pl : BitVec 2) (r w : Bool) :
    EndsIn P (probeFaultOp qp r3 pl r w s) :=
  hP.checked h (.ite (.refused _) (hP.withRef h fun _ hc => hP.finish hc s))

theorem tpaOp (hP : Durable P) (h : P s) (r1 : BitVec 7) (va : Word) : EndsIn P (tpaOp r1 va s) :=
  .ite (.refused _) (hP.withTranslation h fun _ _ ht => hP.finish (hP.setVal ht ..) s)

theorem takOp (hP : Durable P) (h : P s) (r1 : BitVec 7) (va : Word) : EndsIn P (takOp r1 va s) := by
  have hset (v : Word) : EndsIn P (Machine.finish s (s.setVal r1 v)) := hP.finish (hP.setVal h r1 v) s
  refine .ite (.refused _) (.ite (hset _) ?_)
  split
  · exact hset _
  · exact hset _
  · exact .refused _

theorem hashOp (hP : Durable P) (h : P s) (r1 r3 : BitVec 7) (f : Word → Word → Word) : EndsIn P (hashOp r1 r3 f s) :=
  .ite (hP.finish (hP.setGr h ..) s) (hP.finish (hP.setVal h ..) s)

theorem checkFails (hP : Durable P) (h : P s) (code : BitVec 16) (imm : BitVec 21) : EndsIn P (checkFails code imm s) :=
  .ite (hP.finishBranch h ..) (hP.raise h _)

theorem checkAlat (hP : Durable P) (h : P s) (fp : Bool) (r : BitVec 7) (clear : Bool) (imm : BitVec 21) :
    EndsIn P (checkAlat fp r clear imm s) := by
  refine .ite (hP.finish ?_ s) (hP.checkFails h _ _)
  split
  · exact hP.alatTo h _
  · exact h

/-! The fetch. -/

theorem withInstrAddress (hP : Durable P) (h : P s) {k : Nat → Attr → State → Out}
    (hk : ∀ pa attr t, P t → EndsIn P (k pa attr t)) : EndsIn P (withInstrAddress s k) := by
  have h0 : P { s with ctx := Ctx.none } := hP.congr h rfl rfl
  refine .ite (hP.deliver h0 ..) (.ite (.refused _) (.ite (hP.guarded h0 (hk _ _ _ h0) _) ?_))
  have hends := searchTlb_ends { s with ctx := Ctx.none } (s.fetchView 0) (s.fetchView 100) .instr s.ip
  dsimp only
  generalize searchTlb { s with ctx := Ctx.none } (s.fetchView 0) (s.fetchView 100) .instr s.ip = found at hends ⊢
  cases found with
  | refuse r => exact .refused r
  | alternate => exact hP.raise h0 _
  | vhptFault a => exact hP.raise h0 _
  | miss t => exact hP.raise (hP.walked h0 hends) _
  | found e t =>
    have h1 : P { t with ctx := { Ctx.none with translated := true, ed := e.ed, ar := e.ar, pl := e.pl } } :=
      hP.congr (hP.walked h0 hends) rfl rfl
    exact hP.guarded h1 (hk _ _ _ h1) _

theorem withGroup (hP : Durable P) (h : P s) {i : Instr} {qp : BitVec 6} {k : State → Out}
    (hk : ∀ t, P t → EndsIn P (k t)) : EndsIn P (withGroup i qp s k) :=
  .ite (.refused _) (.ite (.ite (.refused _) (hk _ (hP.congr h rfl rfl))) (hk s h))

theorem withDecoded (hP : Durable P) (h : P s) {b : Bundle} {k : Instr → State → Out}
    (hk : ∀ i t, P t → EndsIn P (k i t)) : EndsIn P (withDecoded b s k) := by
  unfold Machine.withDecoded
  split
  · exact hP.raise h _
  next info _ =>
    have h1 : P { s with ctx := { s.ctx with mlx := info.mlx, stopAfter := info.stop } } := hP.congr h rfl rfl
    refine .ite (hP.raise h1 _) ?_
    split
    next i _ => exact hP.withGroup h1 (hk i)
    next => exact .ite (hP.raise h1 _) (hP.finish h1 _)
    next => exact .ite (.refused _) (hP.finish h1 _)

theorem withFetched (hP : Durable P) (h : P s) {k : Instr → State → Out} (hk : ∀ i t, P t → EndsIn P (k i t)) :
    EndsIn P (withFetched s k) := by
  refine hP.withInstrAddress h fun pa attr t ht => ?_
  refine .ite (.refused _) (.ite (.refused _) (.ite (.refused _) (hP.withDecoded ?_ hk)))
  split
  · exact hP.congr ht rfl rfl
  · exact hP.congr ht rfl rfl

theorem withBoundary (hP : Durable P) (h : P s) {k : State → Out} (hk : EndsIn P (k s)) : EndsIn P (withBoundary s k) :=
  have h0 : P { s with ctx := Ctx.none } := hP.congr h rfl rfl
  .ite (.fault _) (.ite (.fault _) (.ite (.refused _) (.ite (hP.deliver h0 ..) hk)))

/-- A durable property that every instruction keeps, and what happens by itself after it, is kept by every step. -/
theorem step (hP : Durable P) (hexec : ∀ i t, P t → EndsIn P (exec i t)) (htick : ∀ t, P t → P (tickOver t)) (h : P s) :
    EndsIn P (step s) := by
  have hout : EndsIn P (Machine.withBoundary s fun t => Machine.withFetched t exec) :=
    hP.withBoundary h (hP.withFetched h hexec)
  unfold Machine.step
  cases ho : Machine.withBoundary s fun t => Machine.withFetched t exec with
  | next u => exact htick u (hout.of_next ho)
  | fault f => exact .fault f
  | refused r => exact .refused r

/-! The instructions. -/

theorem finishWith (hP : Durable P) (h : P s) (hm : t.mem = s.mem) (hs : t.sys = s.sys) : EndsIn P (Machine.finish s t) :=
  hP.finish (hP.congr h hm hs) s

/-- An instruction that writes no serializable resource keeps the property. -/
theorem exec (hP : Durable P) (h : P s) {i : Instr} (hi : writesSys i = false) : EndsIn P (exec i s) := by
  cases i
  case breakM | breakI | breakB | breakFX => exact hP.predicated h (hP.raise h _)
  case nopM | hintM | nopI | hintI | nopB | hintB | mf | mfA | fwb => exact hP.predicated h (hP.finish h s)
  case invala | invalaER | invalaEF => exact hP.predicated h (hP.finish (hP.alatTo h _) s)
  case srlzD | srlzI | syncI => exact hP.predicated h (hP.finishWith h rfl rfl)
  case clrrrb | clrrrbPr => exact hP.finishWith h rfl rfl
  case loadrs | flushrs | alloc => exact .refused _
  case chkANcR | chkAClrR | chkANcF | chkAClrF => exact hP.predicated h (hP.checkAlat h ..)
  case chkSM => exact hP.predicated h (.ite (hP.checkFails h ..) (hP.finish h s))
  case chkSF => exact hP.checked h (.ite (hP.checkFails h ..) (hP.finish h s))
  case brCond => exact hP.predicated h (hP.finishBranch h ..)
  case brRel form =>
    cases form
    case cond => exact hP.predicated h (hP.finishBranch h ..)
    case wexit | wtop | call => exact hP.predicated h (.refused _)
    case cexit | ctop => exact .refused _
    case brp => exact hP.finish h s
    case cloop => exact .ite (hP.finish h s) (hP.finishBranch (hP.setAr h _ (by decide)) ..)
  case movFromRr | movFromDbr | movFromIbr | movFromPkr | movFromPmc | movFromPmd | movFromCpuid | movFromUm | movFromAr |
      movFromPsr => exact hP.checked h (hP.finish (hP.setVal h ..) s)
  case addp4 | addp4Imm | shladdp4 => exact hP.checked h (hP.finish (hP.setGr h ..) s)
  case thash | ttag => exact hP.checked h (hP.hashOp h ..)
  case tpa => exact hP.checked h (hP.tpaOp h ..)
  case tak => exact hP.checked h (hP.takOp h ..)
  case probeRImm | probeWImm | probeR | probeW => exact hP.checked h (hP.probeOp h ..)
  case probeRwFault | probeRFault | probeWFault => exact hP.probeFaultOp h ..
  case fc qp r3 => exact hP.flushOp h qp r3 fun pa _ ht => hP.dropLine ht pa
  case fcI qp r3 => exact hP.flushOp (after := fun _ t => t) h qp r3 fun _ _ ht => ht
  case lfetch | lfetchExcl | lfetchFault | lfetchFaultExcl => exact hP.lfetchOp h ..
  case ld1 | ld2 | ld4 | ld8 | ld1S | ld2S | ld4S | ld8S | ld1A | ld2A | ld4A | ld8A | ld1Sa | ld2Sa | ld4Sa | ld8Sa | ld1Bias |
      ld2Bias | ld4Bias | ld8Bias | ld1Acq | ld2Acq | ld4Acq | ld8Acq | ld1CClr | ld2CClr | ld4CClr | ld8CClr | ld1CNc | ld2CNc |
      ld4CNc | ld8CNc | ld1CClrAcq | ld2CClrAcq | ld4CClrAcq | ld8CClrAcq => exact hP.intLoad h ..
  case ld8Fill => exact hP.fillLoad h ..
  case ld16 | ld16Acq => exact hP.load16 h ..
  case st1 | st2 | st4 | st8 | st1Rel | st2Rel | st4Rel | st8Rel => exact hP.intStore h ..
  case st8Spill => exact hP.spillStore h ..
  case st16 | st16Rel => exact hP.store16 h ..
  case cmpxchg1Acq | cmpxchg2Acq | cmpxchg4Acq | cmpxchg8Acq | cmpxchg1Rel | cmpxchg2Rel | cmpxchg4Rel | cmpxchg8Rel =>
    exact hP.cmpxchgOp h ..
  case xchg1 | xchg2 | xchg4 | xchg8 => exact hP.xchgOp h ..
  case fetchadd4Acq | fetchadd8Acq | fetchadd4Rel | fetchadd8Rel => exact hP.fetchaddOp h ..
  case cmp8xchg16Acq | cmp8xchg16Rel => exact hP.cmp8xchg16Op h ..
  case ldfs | ldfd | ldf8 | ldfe | ldfFlav => exact hP.fpLoad h ..
  case ldfFill => exact hP.fpFill h ..
  case ldfp => exact hP.fpPairLoad h ..
  case stfs | stfd | stf8 | stfe => exact hP.fpStore h ..
  case stfSpill => exact hP.fpSpill h ..
  case memUpd qp op r3 upd hint =>
    cases op with
    | load => exact hP.intLoad h ..
    | fill => exact hP.fillLoad h ..
    | store => exact hP.intStore h ..
    | spill => exact hP.spillStore h ..
    | lfetch => exact hP.lfetchOp h ..
    | fpLoad => exact hP.fpLoad h ..
    | fpFill => exact hP.fpFill h ..
    | fpStore => exact hP.fpStore h ..
    | fpSpill => exact hP.fpSpill h ..
    | fpPair => exact hP.fpPairLoad h ..
  all_goals exact absurd hi (Bool.noConfusion ·)

end Durable
end

end Machine
end Sys2Proof
end

section
/-!
The canonical form of the memory (MemoryOkKept).
-/
namespace Sys2Proof
namespace Machine

/-- The canonical form speaks of the memory only, and stored bytes keep it. -/
theorem durable_memoryOk : Durable MemoryOk where
  congr h hm _ := by
    unfold MemoryOk
    rwa [hm]
  cleared h := h
  marked _ h := h
  cached _ _ h := h
  interrupted _ _ _ _ _ h := h
  stored _ _ h := writeList_wf h

theorem MemoryOk.of_mem_eq {s t : State} (h : MemoryOk s) (hm : t.mem = s.mem) : MemoryOk t := by
  unfold MemoryOk
  rwa [hm]

/-! What leaves the memory alone. -/

@[simp] theorem rsmSys_mem (imm : Word) (s : State) : (rsmSys imm s).mem = s.mem := by
  unfold rsmSys
  dsimp only
  split <;> rfl

@[simp] theorem epcPromote_mem (s : State) : (epcPromote s).mem = s.mem := by
  simp only [epcPromote, apply_ite State.mem, State.pushSys_mem, ite_self]

@[simp] theorem retState_mem (s : State) : (retState s).mem = s.mem := by
  simp [retState, apply_ite State.mem]

@[simp] theorem coverSave_mem (s : State) : (coverSave s).mem = s.mem := by
  simp only [coverSave, apply_ite State.mem, State.mapSys_mem, ite_self]

@[simp] theorem State.writeCr_mem (s : State) (n : Nat) (v : Word) : (s.writeCr n v).mem = s.mem := by
  simp [State.writeCr, State.writeEoi, apply_ite State.mem]

@[simp] theorem State.readIvr_mem (s : State) : s.readIvr.2.mem = s.mem := by
  unfold State.readIvr
  split <;> rfl

@[simp] theorem State.readCr_mem (s : State) (n : Nat) : (s.readCr n).2.mem = s.mem := by
  simp only [State.readCr, apply_ite Prod.snd, apply_ite State.mem, State.readIvr_mem, ite_self]

@[simp] theorem State.writePmd_mem (s : State) (i : Nat) (v : Word) : (s.writePmd i v).mem = s.mem := rfl

@[simp] theorem State.insertCache_mem (s : State) (side : Side) (e : TlbEntry) : (s.insertCache side e).mem = s.mem := by
  unfold State.insertCache
  split <;> rfl

@[simp] theorem State.insertReg_mem (s : State) (side : Side) (n : Nat) (e : TlbEntry) : (s.insertReg side n e).mem = s.mem := by
  unfold State.insertReg
  split <;> rfl

@[simp] theorem State.oweForSize_mem (s : State) (p : PurgeRange) : (s.oweForSize p).mem = s.mem := by
  simp only [State.oweForSize, apply_ite State.mem, ite_self]

@[simp] theorem State.purgeCaches_mem (s : State) (p : PurgeRange) : (s.purgeCaches p).mem = s.mem := by
  simp [State.purgeCaches]

@[simp] theorem State.purgeAlat_mem (s : State) (p : PurgeRange) : (s.purgeAlat p).mem = s.mem := rfl

@[simp] theorem State.purgeRegs_mem (s : State) (side : Side) (p : PurgeRange) : (s.purgeRegs side p).mem = s.mem := by
  simp [State.purgeRegs]

@[simp] theorem returned_mem (s : State) : (returned s).mem = s.mem := rfl

/-! The instructions that write a serializable resource. -/

/-- Effects that leave the memory alone, and the completion. -/
theorem finish_memoryOk {s t : State} (h : MemoryOk s) (hm : t.mem = s.mem) : EndsIn MemoryOk (finish s t) :=
  durable_memoryOk.finish (h.of_mem_eq hm) s

/-- The same behind a predicate and checks. -/
theorem checked_memoryOk {qp : BitVec 6} {l : List Check} {s t : State} (h : MemoryOk s) (hm : t.mem = s.mem) :
    EndsIn MemoryOk (predicated qp s (guarded s l (finish s t))) :=
  durable_memoryOk.checked h (finish_memoryOk h hm)

/-- The same behind checks only. -/
theorem guarded_memoryOk {l : List Check} {s t : State} (h : MemoryOk s) (hm : t.mem = s.mem) :
    EndsIn MemoryOk (guarded s l (finish s t)) := durable_memoryOk.guarded h (finish_memoryOk h hm) l

theorem withPlatform_memoryOk {pte : Word} {k : Out} (hk : EndsIn MemoryOk k) : EndsIn MemoryOk (withPlatform pte k) :=
  .ite (.refused _) hk

theorem returnFromInterruption_memoryOk {s : State} (h : MemoryOk s) : EndsIn MemoryOk (returnFromInterruption s) := by
  have ht : MemoryOk (returned s) := h.of_mem_eq (returned_mem s)
  exact .ite (durable_memoryOk.deliver ht ..) (.next ht)

/-- The entry to IA-32 code. -/
theorem ia32Entry_memoryOk {s : State} (h : MemoryOk s) (b2 : BitVec 3) :
    EndsIn MemoryOk (withTraps s (ia32Entered s b2) false (s.dpsr Psr.tb) false) := by
  have ht : MemoryOk (ia32Entered s b2) := h.of_mem_eq (branched_mem s s 0)
  exact durable_memoryOk.withTraps ht ..

/-- No instruction writes memory but by storing bytes. -/
theorem exec_memoryOk {i : Instr} {s : State} (h : MemoryOk s) : EndsIn MemoryOk (exec i s) := by
  by_cases hi : writesSys i = false
  · exact durable_memoryOk.exec h hi
  cases i
  case sum | rum | ssm | rsm | movToUm | movToCr | movToAr | movArImm | movToRr | movToDbr | movToIbr | movToPkr | movToPmc |
      movToPmd | movFromCr | ptcL | ptcG | ptcGa | ptcE | ptrD | ptrI => exact checked_memoryOk h (by simp)
  case bsw0 | bsw1 | vmsw0 | epc | cover => exact guarded_memoryOk h (by simp)
  case movI qp form =>
    cases form <;> exact checked_memoryOk h (by simp)
  case movToPsrL => exact durable_memoryOk.checked h (.ite (.refused _) (finish_memoryOk h (by simp)))
  case vmsw1 => exact durable_memoryOk.guarded h (.ite (.refused _) (finish_memoryOk h (by simp))) _
  case itcD | itcI => exact durable_memoryOk.checked h (withPlatform_memoryOk (finish_memoryOk h (by simp)))
  case itrD | itrI =>
    exact durable_memoryOk.checked h (.ite (.refused _) (withPlatform_memoryOk (finish_memoryOk h (by simp))))
  case rfi =>
    exact durable_memoryOk.guarded h
      (.ite (.refused _) (.ite (.refused _) (.ite (.refused _) (returnFromInterruption_memoryOk h)))) _
  case brRet =>
    exact durable_memoryOk.predicated h (durable_memoryOk.finishBranch (h.of_mem_eq (retState_mem s)) ..)
  case brIa b2 _ _ _ => exact durable_memoryOk.guarded h (.ite (.refused _) (ia32Entry_memoryOk h b2)) _
  all_goals exact absurd rfl hi

/-! What happens by itself. -/

@[simp] theorem State.advanceTimer_mem (s : State) : s.advanceTimer.mem = s.mem := rfl

@[simp] theorem State.volatile_mem (s : State) : s.volatile.mem = s.mem := by
  simp only [State.volatile, apply_ite State.mem, State.mapSys_mem, ite_self]

@[simp] theorem State.evict_mem (s : State) : s.evict.mem = s.mem := rfl

theorem State.countLoss_mem (s t : State) (h : t.mem = s.mem) : (s.countLoss t).mem = s.mem := by
  simp [State.countLoss, apply_ite State.mem, h]

@[simp] theorem State.selfWalk_mem (s : State) : s.selfWalk.mem = s.mem := by
  unfold State.selfWalk
  extract_lets va side v
  have hends := walk_ends s v side va
  split
  · generalize walk s v side va = found at hends ⊢
    cases found with
    | found e t => exact s.countLoss_mem t hends.same.2.2.2.1
    | miss t => rfl
    | alternate => rfl
    | vhptFault a => rfl
    | refuse r => rfl
  · rfl

@[simp] theorem State.monitors_mem (s : State) : s.monitors.mem = s.mem := by
  simp only [State.monitors, apply_ite State.mem, ite_self]

theorem tickOver_mem (s : State) : (tickOver s).mem = s.mem :=
  calc (tickOver s).mem = s.advanceTimer.volatile.evict.selfWalk.monitors.mem := rfl
    _ = s.mem := by simp

/-- Settles O2: the canonical form is durable; instructions that write serializable resources leave the memory alone, and so does
what happens by itself. -/
theorem memoryOkKept : Obligations.MemoryOkKept := by
  unfold Obligations.MemoryOkKept
  intro s t h ht
  have hstep : EndsIn MemoryOk (step s) :=
    durable_memoryOk.step (fun _ _ => exec_memoryOk) (fun u hu => hu.of_mem_eq (tickOver_mem u)) h
  exact hstep.of_next ht

end Machine
end Sys2Proof
end

section
/-!
Prefetches (Prefetches).
-/
namespace Sys2Proof
namespace Machine

/-- An illegal base update does not pass its check. -/
theorem updIllegal_of_not_baseOk {r3 : BitVec 7} {target : Option (BitVec 7)} {u : BaseUpd} (h : ¬BaseOk r3 target u) :
    updIllegal r3 target u = true := by
  simp only [BaseOk, not_or, not_and, not_not] at h
  obtain ⟨hupd, hbase⟩ := h
  have hfails : (decide (r3 = 0) || decide (target = some r3)) = true := by
    by_cases h0 : r3 = 0
    · simp [h0]
    · simp [hbase h0]
  cases u with
  | none => exact absurd rfl hupd
  | reg r2 => exact hfails
  | imm i => exact hfails

/-- What a prefetch changes: its base register, and what its reference may. -/
abbrev lfetchFootprint (r3 : BitVec 7) (u : BaseUpd) : Footprint :=
  { gr := baseGr r3 u, tc := true, owed := true, lines := true }

section
variable {qp : BitVec 6} {fault excl : Bool} {r3 : BitVec 7} {upd : BaseUpd} {s u : State} {pa : Nat} {attr : Attr}

/-- A prefetch whose base update is legal goes on. -/
theorem lfetchOp_passes (hp : s.pred qp = true) (hb : BaseOk r3 none upd) :
    lfetchOp qp fault excl r3 upd s =
      if fault && !s.psrNow Psr.ed then
        guarded s [(s.nat r3, excRegNat false true true)] <| withRef s 0 (naRef s r3 true excl true s.cpl) fun c =>
          if !c.attr.cacheable then finish s (s.updBase r3 upd c.st)
          else if c.st.aliased c.attr c.pa 1 then .refused .attributeAliasing
          else finish s (s.updBase r3 upd (c.st.touch c.attr c.pa 1))
      else finish s (s.updBase r3 upd s) := by
  have hlegal : ∀ p ∈ naChecks [chkIllegal (updIllegal r3 none upd)], p.1 = false := by
    simpa [naChecks, chkIllegal] using updIllegal_ok hb
  exact (predicated_true hp).trans (guarded_pass hlegal)

theorem lfetchOp_illegal (hp : s.pred qp = true) (hb : ¬BaseOk r3 none upd) :
    lfetchOp qp fault excl r3 upd s = raise s excIllegalOperation.nonAccess := by
  have hfails : naChecks [chkIllegal (updIllegal r3 none upd)] = [(true, excIllegalOperation.nonAccess)] := by
    rw [updIllegal_of_not_baseOk hb]
    rfl
  refine (predicated_true hp).trans ?_
  rw [hfails]
  exact guarded_first (l := []) (by simp)

/-- A prefetch without a reference changes its base only. -/
theorem lfetchOp_unreferenced (hp : s.pred qp = true) (hb : BaseOk r3 none upd) (hq : Quiet s)
    (h : fault = false ∨ s.psrNow Psr.ed = true) :
    ∃ t, lfetchOp qp fault excl r3 upd s = .next t ∧ NewBase s t r3 upd ∧ Frame { gr := baseGr r3 upd } s t := by
  have hskips : ¬(fault && !s.psrNow Psr.ed) = true := by
    rcases h with h | h <;> simp [h]
  have htouch : Touch { gr := baseGr r3 upd } s (s.updBase r3 upd s) :=
    (Touch.refl _ s).updBase r3 upd (fun _ hr => hr) bn_zero
  rw [lfetchOp_passes hp hb, if_neg hskips]
  exact ⟨_, htouch.completes hq it_zero vm_zero, newBase_updBase hb, htouch.frame⟩

variable (hp : s.pred qp = true) (hb : BaseOk r3 none upd) (hed : s.psrNow Psr.ed = false)
include hp hb hed

/-- A faulting prefetch makes its reference. -/
theorem lfetchOp_references :
    lfetchOp qp true excl r3 upd s =
      guarded s [(s.nat r3, excRegNat false true true)] (withRef s 0 (naRef s r3 true excl true s.cpl) fun c =>
        if !c.attr.cacheable then finish s (s.updBase r3 upd c.st)
        else if c.st.aliased c.attr c.pa 1 then .refused .attributeAliasing
        else finish s (s.updBase r3 upd (c.st.touch c.attr c.pa 1))) := by
  rw [lfetchOp_passes hp hb, if_pos (by simp [hed])]

theorem lfetchOp_nat (hn : s.nat r3 = true) :
    lfetchOp qp true excl r3 upd s =
      raise s { off := 0x5600, code := 0x10, r := true, na := true, codeFree := 0xF } := by
  rw [lfetchOp_references hp hb hed, hn]
  exact guarded_first (l := []) (by simp)

theorem lfetchOp_fault (hn : s.nat r3 = false) {c : Checked} {f : DFault} {e : Exc} {rest : List (DFault × Exc)}
    (hc : checkRef s 0 (naRef s r3 true excl true s.cpl) = .ok c) (hf : c.faults = (f, e) :: rest) :
    lfetchOp qp true excl r3 upd s = raise c.st e := by
  rw [lfetchOp_references hp hb hed, hn]
  exact withRef_fault hc hf

theorem lfetchOp_accessible (hn : s.nat r3 = false) (ha : Accessible s (naRef s r3 true excl true s.cpl) pa attr u) :
    lfetchOp qp true excl r3 upd s =
      if !attr.cacheable then finish s (s.updBase r3 upd u)
      else if u.aliased attr pa 1 then .refused .attributeAliasing
      else finish s (s.updBase r3 upd (u.touch attr pa 1)) := by
  rw [lfetchOp_references hp hb hed, hn]
  exact withRef_accessible ha

/-- An accessible prefetch: of a page that is not cacheable it makes no access, else it uses its line, where that is defined. -/
theorem lfetchOp_completes (hq : Quiet s) (hn : s.nat r3 = false)
    (ha : Accessible s (naRef s r3 true excl true s.cpl) pa attr u) :
    if attr.cacheable = true ∧ u.aliased attr pa 1 = true then
      lfetchOp qp true excl r3 upd s = .refused .attributeAliasing
    else
      ∃ t, lfetchOp qp true excl r3 upd s = .next t ∧ NewBase s t r3 upd ∧
        (if attr.cacheable then Reached u t attr pa 1 else Left u t) ∧ Frame (lfetchFootprint r3 upd) s t := by
  have hwalk : Touch (lfetchFootprint r3 upd) s u := ha.walked.touch rfl rfl rfl
  rw [lfetchOp_accessible hp hb hed hn ha]
  cases hcache : attr.cacheable with
  | false =>
    have htouch : Touch (lfetchFootprint r3 upd) s (s.updBase r3 upd u) := hwalk.updBase r3 upd (fun _ hr => hr) bn_zero
    rw [if_neg (by simp)]
    exact ⟨_, htouch.completes hq it_zero vm_zero, newBase_updBase hb, .of_completed rfl rfl rfl, htouch.frame⟩
  | true =>
    cases halias : u.aliased attr pa 1 with
    | true => rfl
    | false =>
      have htouch : Touch (lfetchFootprint r3 upd) s (s.updBase r3 upd (u.touch attr pa 1)) :=
        (hwalk.touch attr pa 1 rfl).updBase r3 upd (fun _ hr => hr) bn_zero
      have hreached : Reached u (advanced s (s.updBase r3 upd (u.touch attr pa 1))) attr pa 1 := by
        simp [Reached, Searched]
      exact ⟨_, htouch.completes hq it_zero vm_zero, newBase_updBase hb, hreached, htouch.frame⟩

end

/-- Settles O43: a prefetch with an illegal base update faults, one without a reference completes, and a faulting one makes its
reference, which stops it or lets it complete. -/
theorem prefetches : Obligations.Prefetches := by
  unfold Obligations.Prefetches
  intro i qp fault excl r3 upd s u pa attr hform hp
  rw [exec_lfetchForm hform s]
  refine ⟨lfetchOp_illegal hp, fun hb hq => ⟨?_, ?_, lfetchOp_unreferenced hp hb hq⟩⟩
  · rintro rfl hed hn ha
    exact lfetchOp_completes hp hb hed hq hn ha
  · rintro rfl hed
    exact ⟨lfetchOp_nat hp hb hed, fun hn c f e rest hc hf => lfetchOp_fault hp hb hed hn hc hf⟩

end Machine
end Sys2Proof
end

section
/-!
Probes (Probes).
-/
namespace Sys2Proof
namespace Machine

/-! Faults of a reference and of a query. -/

theorem mem_failing {l : List (DFault × Bool × Exc)} {p : DFault × Exc} : p ∈ failing l ↔ (p.1, true, p.2) ∈ l := by
  obtain ⟨f, e⟩ := p
  simp [failing]

/-- The checks of a page report no miss. -/
theorem pageFault_ne_tlb {s : State} {v : TransView} {ref : Ref} {e : TlbEntry} {p : DFault × Exc}
    (h : p ∈ failing (pageFaults s v ref e)) : p.1 ≠ .tlb := by
  intro htlb
  rw [mem_failing, htlb] at h
  simp [pageFaults] at h

/-- A fault that a reference reports says whether the instruction accesses its operand; one of a non-access instruction leaves
ISR.code{3:0} open. -/
def SaysNonAccess (ref : Ref) (e : Exc) : Prop := e.na = ref.na ∧ e.codeFree = if ref.na then 0xF else 0

theorem pageFault_saysNonAccess {s : State} {v : TransView} {ref : Ref} {e : TlbEntry} {p : DFault × Bool × Exc}
    (h : p ∈ pageFaults s v ref e) : SaysNonAccess ref p.2.2 := by
  simp only [pageFaults, List.mem_cons, List.not_mem_nil, or_false] at h
  rcases h with rfl | rfl | rfl | rfl | rfl | rfl | rfl <;> exact ⟨rfl, rfl⟩

theorem lateFault_saysNonAccess {s : State} {v : TransView} {ref : Ref} {attr : Attr} {p : DFault × Bool × Exc}
    (h : p ∈ lateFaults s v ref attr) : SaysNonAccess ref p.2.2 := by
  simp only [lateFaults, List.mem_cons, List.not_mem_nil, or_false] at h
  rcases h with rfl | rfl | rfl <;> exact ⟨rfl, rfl⟩

theorem late_saysNonAccess {s : State} {v : TransView} {ref : Ref} {attr : Attr} {p : DFault × Bool × Exc}
    (h : p ∈ ref.late s v attr) : SaysNonAccess ref p.2.2 := by
  unfold Ref.late at h
  split at h
  · exact lateFault_saysNonAccess h
  · cases h

theorem noTranslation_saysNonAccess {s : State} {v : TransView} {ref : Ref} {k : DFault} {e : Exc}
    (he : SaysNonAccess ref e) : ∀ p ∈ (noTranslation s v ref k e).faults, SaysNonAccess ref p.2 := by
  intro p hp
  rcases List.mem_cons.mp hp with rfl | hp
  · exact he
  · exact lateFault_saysNonAccess (mem_failing.mp (List.mem_filter.mp hp).1)

theorem afterSearch_saysNonAccess {s : State} {v : TransView} {ref : Ref} {c : Checked} :
    ∀ x : Search, afterSearch s v ref x = .ok c → ∀ p ∈ c.faults, SaysNonAccess ref p.2
  | .alternate, h | .vhptFault _, h | .miss _, h => Except.ok.inj h ▸ noTranslation_saysNonAccess ⟨rfl, rfl⟩
  | .found _ _, h => Except.ok.inj h ▸ fun _ hp =>
    (List.mem_append.mp (mem_failing.mp hp)).elim pageFault_saysNonAccess late_saysNonAccess

theorem unsearched_saysNonAccess {s : State} {v : TransView} {ref : Ref} :
    ∀ p ∈ (unsearched s v ref).faults, SaysNonAccess ref p.2 := by
  intro p hp
  unfold unsearched at hp
  dsimp only at hp
  split at hp
  · rw [List.mem_singleton.mp hp]
    exact ⟨rfl, rfl⟩
  · exact late_saysNonAccess (mem_failing.mp hp)

theorem checkRef_saysNonAccess {s : State} {n : Nat} {ref : Ref} {c : Checked} (h : checkRef s n ref = .ok c) :
    ∀ p ∈ c.faults, SaysNonAccess ref p.2 := by
  rcases checkRef_cases h with rfl | ⟨x, -, hx⟩
  · exact unsearched_saysNonAccess
  · exact afterSearch_saysNonAccess x hx

/-- The first fault of a non-access reference. -/
theorem firstFault_nonAccess {s : State} {n : Nat} {ref : Ref} {c : Checked} {f : DFault} {e : Exc}
    {rest : List (DFault × Exc)} (h : checkRef s n ref = .ok c) (hf : c.faults = (f, e) :: rest) (hna : ref.na = true) :
    e.na = true ∧ e.codeFree = 0xF := by
  have he : SaysNonAccess ref e := checkRef_saysNonAccess h (f, e) (hf ▸ List.mem_cons_self)
  simpa [SaysNonAccess, hna] using he

/-- A reference to an implemented address goes by a search when PSR.dt is 1. -/
theorem checkRef_searched {s : State} {ref : Ref} (hdt : (s.dataView 0).dt = true) (hva : unimplVa s.vm ref.va = false) :
    checkRef s 0 ref = afterSearch s (s.dataView 0) ref (searchTlb s (s.dataView 0) (s.dataView 100) .data ref.va) :=
  if_pos (by rw [hdt, show (s.dataView 0).vm = s.vm from rfl, hva]; rfl)

section
variable {s : State} {ref : Ref} {keep : DFault → Bool} {k : TlbEntry → State → Out}

/-- A query of a page of which it takes no fault goes on. -/
theorem withTranslation_found {e : TlbEntry} {u : State}
    (h : searchTlb s (s.dataView 0) (s.dataView 100) .data ref.va = .found e u)
    (hnone : ∀ p ∈ failing (pageFaults s (s.dataView 0) ref e), keep p.1 = false) :
    withTranslation s ref keep k = k e u := by
  have hfilter : (failing (pageFaults s (s.dataView 0) ref e)).filter (fun p => keep p.1) = [] := by
    simpa [List.filter_eq_nil_iff] using hnone
  simp only [withTranslation, h, hfilter]

/-- A query takes the first fault of its reference, where that is a miss or one it takes. -/
theorem withTranslation_fault {c : Checked} {f : DFault} {x : Exc} {rest : List (DFault × Exc)}
    (hdt : (s.dataView 0).dt = true) (hva : unimplVa s.vm ref.va = false) (hchk : ref.chk = false)
    (hc : checkRef s 0 ref = .ok c) (hf : c.faults = (f, x) :: rest) (hkeep : f ≠ .tlb → keep f = true) :
    withTranslation s ref keep k = raise c.st x := by
  rw [checkRef_searched hdt hva] at hc
  unfold withTranslation
  dsimp only
  generalize searchTlb s (s.dataView 0) (s.dataView 100) .data ref.va = found at hc ⊢
  cases found with
  | refuse r => cases hc
  | alternate | vhptFault a | miss t =>
    cases hc
    cases hf
    rfl
  | found e u =>
    cases hc
    have hpage : failing (pageFaults s (s.dataView 0) ref e) = (f, x) :: rest := by
      simpa [Ref.late, hchk] using hf
    have htakes : keep f = true :=
      hkeep (pageFault_ne_tlb (p := (f, x)) (hpage ▸ List.mem_cons_self))
    simp only [hpage, List.filter_cons, htakes, if_true]

end

/-! The probes. -/

/-- Of a present page that is no NaTPage and whose key is held a regular probe takes no fault. -/
theorem probeTakes_eq_false {s : State} {v : TransView} {ref : Ref} {e : TlbEntry} (hp : e.p = true) (hma : e.ma ≠ 7)
    (hkey : v.pk = true → matchingPkrs v.pkr e.key ≠ []) :
    ∀ p ∈ failing (pageFaults s v ref e), probeTakes p.1 = false := by
  intro p h
  obtain ⟨f, x⟩ := p
  rw [mem_failing] at h
  cases f with
  | notPresent => simp [pageFaults, hp] at h
  | natPage =>
    have hpage : ¬e.ma = 7#3 := hma
    simp [pageFaults, hpage] at h
  | keyMiss =>
    simp only [pageFaults, List.mem_cons, Prod.mk.injEq, reduceCtorEq, false_and, false_or, or_false, List.not_mem_nil,
      Bool.true_eq, Bool.and_eq_true, List.isEmpty_iff, true_and] at h
    obtain ⟨⟨hpk, hmiss⟩, -⟩ := h
    exact absurd hmiss (hkey hpk)
  | _ => rfl

theorem probeTakes_of_mem :
    ∀ f ∈ [DFault.tlb, .notPresent, .natPage, .keyMiss], f ≠ .tlb → probeTakes f = true := by decide

/-- The answer of a probe in words: access rights at the level, and no matching key register that denies the access. -/
theorem probeAnswer_iff {v : TransView} {e : TlbEntry} {pl : BitVec 2} {k : Acc} :
    probeAnswer v e pl k = true ↔
      rights e.ar e.pl pl k = true ∧ (v.pk = true → ∀ w ∈ matchingPkrs v.pkr e.key, pkrDisables w k = false) := by
  cases hpk : v.pk <;> simp [probeAnswer, hpk]

/-- A regular probe: its predicate, its target, its sources, and the question. -/
def regularProbe (qp : BitVec 6) (r1 r3 : BitVec 7) (nat : Bool) (pl : BitVec 2) (k : Acc) (s : State) : Out :=
  predicated qp s <| guarded s (naChecks [chkTarget r1, (nat, excRegNat (k == .w) (k == .r) true)]) <|
    probeOp r1 (s.val r3) pl k s

section
variable (qp : BitVec 6) (r1 r2 r3 : BitVec 7) (imm : BitVec 2) (s : State)

theorem exec_probeRImm : exec (.probeRImm qp r1 r3 imm) s = regularProbe qp r1 r3 (s.nat r3) imm .r s := rfl

theorem exec_probeWImm : exec (.probeWImm qp r1 r3 imm) s = regularProbe qp r1 r3 (s.nat r3) imm .w s := rfl

theorem exec_probeR :
    exec (.probeR qp r1 r3 r2) s =
      regularProbe qp r1 r3 (s.nat r3 || s.nat r2) ((s.val r2).extractLsb' 0 2) .r s := rfl

theorem exec_probeW :
    exec (.probeW qp r1 r3 r2) s =
      regularProbe qp r1 r3 (s.nat r3 || s.nat r2) ((s.val r2).extractLsb' 0 2) .w s := rfl

theorem exec_probeRwFault : exec (.probeRwFault qp r3 imm) s = probeFaultOp qp r3 imm true true s := rfl

theorem exec_probeRFault : exec (.probeRFault qp r3 imm) s = probeFaultOp qp r3 imm true false s := rfl

theorem exec_probeWFault : exec (.probeWFault qp r3 imm) s = probeFaultOp qp r3 imm false true s := rfl

end

section
variable {qp : BitVec 6} {r1 r3 : BitVec 7} {nat : Bool} {pl : BitVec 2} {k : Acc} {s : State} (hp : s.pred qp = true)
include hp

/-! Regular probes. -/

theorem regularProbe_gr0 : regularProbe qp 0 r3 nat pl k s = raise s excIllegalOperation.nonAccess :=
  (predicated_true hp).trans (if_pos rfl)

theorem regularProbe_nat (h1 : r1 ≠ 0) :
    regularProbe qp r1 r3 true pl k s =
      raise s { off := 0x5600, code := 0x10, w := k == .w, r := k == .r, na := true, codeFree := 0xF } := by
  have hchecks : naChecks [chkTarget r1, (true, excRegNat (k == .w) (k == .r) true)] =
      naChecks [chkTarget r1] ++
        [(true, { off := 0x5600, code := 0x10, w := k == .w, r := k == .r, na := true, codeFree := 0xF })] := by
    simp [naChecks, excRegNat, Exc.nonAccess]
  refine (predicated_true hp).trans ?_
  rw [hchecks]
  exact guarded_first (by simpa [naChecks, chkTarget] using h1)

theorem regularProbe_passes (h1 : r1 ≠ 0) : regularProbe qp r1 r3 false pl k s = probeOp r1 (s.val r3) pl k s := by
  refine (predicated_true hp).trans (guarded_pass ?_)
  simpa [naChecks, chkTarget] using h1

theorem regularProbe_physical (h1 : r1 ≠ 0) (hdt : (s.dataView 0).dt = false) :
    regularProbe qp r1 r3 false pl k s = .refused .physicalQuery := by
  rw [regularProbe_passes hp h1]
  exact if_pos (by simp [hdt])

/-- An implemented address is looked up, as the reference of a non-access instruction. -/
theorem regularProbe_looksUp (h1 : r1 ≠ 0) (hdt : (s.dataView 0).dt = true) (hva : unimplVa s.vm (s.val r3) = false) :
    regularProbe qp r1 r3 false pl k s =
      withTranslation s (naRef s r3 (k == .r) (k == .w) false (askedLevel s pl)) probeTakes fun e t =>
        finish s (t.setVal r1 (if probeAnswer (s.dataView 1) e (askedLevel s pl) k then 1 else 0)) := by
  rw [regularProbe_passes hp h1, probeOp, if_neg (by simp [hdt]), if_neg (by simp [hva])]
  rfl

/-- Of an unimplemented address the answer is 0. -/
theorem regularProbe_unimplemented (h1 : r1 ≠ 0) (hq : Quiet s) (hdt : (s.dataView 0).dt = true)
    (hva : unimplVa s.vm (s.val r3) = true) :
    ∃ t, regularProbe qp r1 r3 false pl k s = .next t ∧ t.getGr r1 = { val := 0, nat := false } ∧
      Frame { gr := [r1] } s t := by
  have hprobe : regularProbe qp r1 r3 false pl k s = finish s (s.setVal r1 0) := by
    rw [regularProbe_passes hp h1, probeOp, if_neg (by simp [hdt]), if_pos hva]
  have htouch : Touch { gr := [r1] } s (s.setVal r1 0) := (Touch.refl _ s).setVal 0 List.mem_cons_self bn_zero
  refine ⟨_, hprobe.trans (htouch.completes hq it_zero vm_zero), ?_, htouch.frame⟩
  rw [advanced_getGr]
  exact getGr_setGr_self h1

/-- Of a present page whose key is held the answer is whether the access rights and the key allow the access. -/
theorem regularProbe_answers (h1 : r1 ≠ 0) (hq : Quiet s) {e : TlbEntry} {u : State} (ht : Translates s (s.val r3) e u)
    (hpresent : e.p = true) (hma : e.ma ≠ 7) (hkey : (s.dataView 0).pk = true → matchingPkrs (s.dataView 0).pkr e.key ≠ []) :
    ∃ t, regularProbe qp r1 r3 false pl k s = .next t ∧
      t.getGr r1 = { val := if probeAnswer (s.dataView 1) e (askedLevel s pl) k then 1 else 0, nat := false } ∧
      Left u t ∧ Frame { gr := [r1], tc := true, owed := true, lines := true } s t := by
  obtain ⟨hdt, hva, hfound⟩ := ht
  have hprobe : regularProbe qp r1 r3 false pl k s =
      finish s (u.setVal r1 (if probeAnswer (s.dataView 1) e (askedLevel s pl) k then 1 else 0)) :=
    (regularProbe_looksUp hp h1 hdt hva).trans
      (withTranslation_found hfound (probeTakes_eq_false hpresent hma hkey))
  obtain ⟨t, hfinish, hvalue, -, hleft, hframe⟩ :=
    (searchTlb_found hfound).loads (r3 := r3) (u := .none) h1 (.inl rfl) hq
      (if probeAnswer (s.dataView 1) e (askedLevel s pl) k then 1 else 0)
  exact ⟨t, hprobe.trans hfinish, hvalue, hleft, hframe⟩

/-- A miss, Page Not Present, NaT Page Consumption or Key Miss stops a regular probe. -/
theorem regularProbe_fault (h1 : r1 ≠ 0) (hdt : (s.dataView 0).dt = true) (hva : unimplVa s.vm (s.val r3) = false)
    {c : Checked} {f : DFault} {e : Exc} {rest : List (DFault × Exc)}
    (hc : checkRef s 0 (naRef s r3 (k == .r) (k == .w) false (askedLevel s pl)) = .ok c)
    (hf : c.faults = (f, e) :: rest) (hkind : f ∈ [DFault.tlb, .notPresent, .natPage, .keyMiss]) :
    regularProbe qp r1 r3 false pl k s = raise c.st e ∧ e.na = true ∧ e.codeFree = 0xF := by
  rw [regularProbe_looksUp hp h1 hdt hva]
  exact ⟨withTranslation_fault hdt hva rfl hc hf (probeTakes_of_mem f hkind), firstFault_nonAccess hc hf rfl⟩

/-! Faulting probes. -/

variable {r w : Bool}

theorem probeFaultOp_nat (hn : s.nat r3 = true) :
    probeFaultOp qp r3 pl r w s =
      raise s { off := 0x5600, code := 0x10, w := w, r := r, na := true, codeFree := 0xF } := by
  refine (predicated_true hp).trans ?_
  rw [hn]
  exact if_pos rfl

theorem probeFaultOp_passes (hn : s.nat r3 = false) :
    probeFaultOp qp r3 pl r w s =
      if !(s.dataView 0).dt then .refused .physicalQuery
      else withRef s 0 (naRef s r3 r w false (askedLevel s pl)) fun c => finish s c.st :=
  (predicated_true hp).trans (guarded_pass (by simpa using hn))

theorem probeFaultOp_physical (hn : s.nat r3 = false) (hdt : (s.dataView 0).dt = false) :
    probeFaultOp qp r3 pl r w s = .refused .physicalQuery := by
  rw [probeFaultOp_passes hp hn, if_pos (by simp [hdt])]

theorem probeFaultOp_references (hn : s.nat r3 = false) (hdt : (s.dataView 0).dt = true) :
    probeFaultOp qp r3 pl r w s = withRef s 0 (naRef s r3 r w false (askedLevel s pl)) fun c => finish s c.st := by
  rw [probeFaultOp_passes hp hn, if_neg (by simp [hdt])]

theorem probeFaultOp_completes (hn : s.nat r3 = false) (hdt : (s.dataView 0).dt = true) (hq : Quiet s) {pa : Nat}
    {attr : Attr} {u : State} (ha : Accessible s (naRef s r3 r w false (askedLevel s pl)) pa attr u) :
    ∃ t, probeFaultOp qp r3 pl r w s = .next t ∧ Left u t ∧ Frame { tc := true, owed := true, lines := true } s t := by
  have htouch : Touch { tc := true, owed := true, lines := true } s u := ha.walked.touch rfl rfl rfl
  rw [probeFaultOp_references hp hn hdt, withRef_accessible ha]
  exact ⟨_, htouch.completes hq it_zero vm_zero, .of_completed (r3 := r3) (u := .none) rfl rfl rfl, htouch.frame⟩

theorem probeFaultOp_fault (hn : s.nat r3 = false) (hdt : (s.dataView 0).dt = true) {c : Checked} {f : DFault} {e : Exc}
    {rest : List (DFault × Exc)} (hc : checkRef s 0 (naRef s r3 r w false (askedLevel s pl)) = .ok c)
    (hf : c.faults = (f, e) :: rest) :
    probeFaultOp qp r3 pl r w s = raise c.st e ∧ e.na = true ∧ e.codeFree = 0xF := by
  rw [probeFaultOp_references hp hn hdt]
  exact ⟨withRef_fault hc hf, firstFault_nonAccess hc hf rfl⟩

end

/-- Settles O39: the four regular probes ask one question, the three faulting ones make one reference. -/
theorem probes : Obligations.Probes := by
  unfold Obligations.Probes
  intro qp r1 r2 r3 imm pl k s i hp
  refine ⟨?gr0, ?nat, fun hn hq => ⟨?regular, ?faulting⟩⟩
  case gr0 =>
    simp only [List.forall_mem_cons, List.not_mem_nil, false_imp_iff, implies_true, and_true]
    rw [exec_probeRImm, exec_probeWImm, exec_probeR, exec_probeW]
    exact ⟨regularProbe_gr0 hp, regularProbe_gr0 hp, regularProbe_gr0 hp, regularProbe_gr0 hp⟩
  case nat =>
    rintro r w nat (⟨rfl, h1, rfl, rfl, rfl⟩ | ⟨rfl, h1, rfl, rfl, rfl⟩ | ⟨rfl, h1, rfl, rfl, rfl⟩ | ⟨rfl, h1, rfl, rfl, rfl⟩ |
      ⟨rfl, rfl, rfl, rfl⟩ | ⟨rfl, rfl, rfl, rfl⟩ | ⟨rfl, rfl, rfl, rfl⟩) hnat
    · rw [exec_probeRImm, hnat]
      exact regularProbe_nat hp h1
    · rw [exec_probeWImm, hnat]
      exact regularProbe_nat hp h1
    · rw [exec_probeR, hnat]
      exact regularProbe_nat hp h1
    · rw [exec_probeW, hnat]
      exact regularProbe_nat hp h1
    · rw [exec_probeRwFault, probeFaultOp_nat hp hnat]
    · rw [exec_probeRFault, probeFaultOp_nat hp hnat]
    · rw [exec_probeWFault, probeFaultOp_nat hp hnat]
  case regular =>
    intro hi h1
    have hexec : exec i s = regularProbe qp r1 r3 false pl k s := by
      rcases hi with ⟨rfl, rfl, rfl⟩ | ⟨rfl, rfl, rfl⟩ | ⟨rfl, rfl, hn2, rfl⟩ | ⟨rfl, rfl, hn2, rfl⟩
      · rw [exec_probeRImm, hn]
      · rw [exec_probeWImm, hn]
      · rw [exec_probeR, hn, hn2, Bool.or_false]
      · rw [exec_probeW, hn, hn2, Bool.or_false]
    rw [hexec]
    refine ⟨regularProbe_physical hp h1, regularProbe_unimplemented hp h1 hq, fun e u ht hpresent hma hkey => ?_,
      fun hdt hva _ _ _ _ => regularProbe_fault hp h1 hdt hva⟩
    rw [← if_congr probeAnswer_iff rfl rfl]
    exact regularProbe_answers hp h1 hq ht hpresent hma hkey
  case faulting =>
    intro r w hi
    have hexec : exec i s = probeFaultOp qp r3 imm r w s := by
      rcases hi with ⟨rfl, rfl, rfl⟩ | ⟨rfl, rfl, rfl⟩ | ⟨rfl, rfl, rfl⟩
      · exact exec_probeRwFault qp r3 imm s
      · exact exec_probeRFault qp r3 imm s
      · exact exec_probeWFault qp r3 imm s
    rw [hexec]
    exact ⟨probeFaultOp_physical hp hn, fun _ _ _ hdt => probeFaultOp_completes hp hn hdt hq,
      fun hdt _ _ _ _ => probeFaultOp_fault hp hn hdt⟩

end Machine
end Sys2Proof
end

section
/-!
The uniqueness of the valid protection keys (PkrUniqueKept).
-/
namespace Sys2Proof
namespace Machine

/-! What leaves the protection key registers alone. -/

@[simp] theorem collect_pkr (s : State) (e : Exc) (iip : Word) (ri : BitVec 2) (y : Sys) :
    (collect s e iip ri y).pkr = y.pkr := by
  simp only [collect, Sys.setCr_pkr]

@[simp] theorem interruptSys_pkr (s : State) (e : Exc) (iip : Word) (ri ei : BitVec 2) (nested : Bool) :
    (interruptSys s e iip ri ei nested).pkr = s.sys.pkr := by
  simp [interruptSys, apply_ite Sys.pkr]

@[simp] theorem returned_pkr (s : State) : (returned s).sys.pkr = s.sys.pkr := rfl

@[simp] theorem rsmSys_pkr (imm : Word) (s : State) : (rsmSys imm s).sys.pkr = s.sys.pkr := by
  unfold rsmSys
  dsimp only
  split <;> rfl

@[simp] theorem epcPromote_pkr (s : State) : (epcPromote s).sys.pkr = s.sys.pkr := by
  simp [epcPromote, apply_ite State.sys, apply_ite Sys.pkr]

@[simp] theorem State.setAr_pkr (s : State) (n : Nat) (v : Word) : (s.setAr n v).sys.pkr = s.sys.pkr := by
  unfold State.setAr
  split <;> rfl

@[simp] theorem retState_pkr (s : State) : (retState s).sys.pkr = s.sys.pkr := by
  simp [retState, apply_ite State.sys, apply_ite Sys.pkr]

@[simp] theorem coverSave_pkr (s : State) : (coverSave s).sys.pkr = s.sys.pkr := by
  simp [coverSave, apply_ite State.sys, apply_ite Sys.pkr]

@[simp] theorem ia32Entered_pkr (s : State) (b2 : BitVec 3) : (ia32Entered s b2).sys.pkr = s.sys.pkr := by
  simp [ia32Entered]

@[simp] theorem Sys.endInterrupt_pkr (y : Sys) : y.endInterrupt.pkr = y.pkr := by
  unfold Sys.endInterrupt
  split <;> rfl

@[simp] theorem State.writeCr_pkr (s : State) (n : Nat) (v : Word) : (s.writeCr n v).sys.pkr = s.sys.pkr := by
  simp [State.writeCr, State.writeEoi, apply_ite State.sys, apply_ite Sys.pkr]

@[simp] theorem State.readIvr_pkr (s : State) : s.readIvr.2.sys.pkr = s.sys.pkr := by
  unfold State.readIvr
  split <;> rfl

@[simp] theorem State.readCr_pkr (s : State) (n : Nat) : (s.readCr n).2.sys.pkr = s.sys.pkr := by
  simp [State.readCr, apply_ite Prod.snd, apply_ite State.sys, apply_ite Sys.pkr]

@[simp] theorem State.writePmd_pkr (s : State) (i : Nat) (v : Word) : (s.writePmd i v).sys.pkr = s.sys.pkr := rfl

@[simp] theorem Sys.setTc_pkr (y : Sys) (side : Side) (l : List TlbEntry) : (y.setTc side l).pkr = y.pkr := by
  cases side <;> rfl

@[simp] theorem Sys.setTrs_pkr (y : Sys) (side : Side) (v : Vector (Option TlbEntry) 256) :
    (y.setTrs side v).pkr = y.pkr := by
  cases side <;> rfl

@[simp] theorem Sys.purgeForInsert_pkr (n : Nat) (side : Side) (e : TlbEntry) (y : Sys) :
    (y.purgeForInsert n side e).pkr = y.pkr := by
  simp [Sys.purgeForInsert]

@[simp] theorem Sys.insertTc_pkr (n : Nat) (side : Side) (e : TlbEntry) (y : Sys) : (Sys.insertTc n side e y).pkr = y.pkr := by
  simp [Sys.insertTc]

@[simp] theorem Sys.insertTr_pkr (n : Nat) (side : Side) (i : Nat) (e : TlbEntry) (y : Sys) :
    (Sys.insertTr n side i e y).pkr = y.pkr := by
  simp [Sys.insertTr]

@[simp] theorem State.insertClash_pkr (s : State) (side : Side) (e : TlbEntry) :
    (s.insertClash side e).sys.pkr = s.sys.pkr := by
  unfold State.insertClash
  split <;> simp

@[simp] theorem State.insertCache_pkr (s : State) (side : Side) (e : TlbEntry) :
    (s.insertCache side e).sys.pkr = s.sys.pkr := by
  unfold State.insertCache
  split <;> simp

@[simp] theorem State.insertReg_pkr (s : State) (side : Side) (n : Nat) (e : TlbEntry) :
    (s.insertReg side n e).sys.pkr = s.sys.pkr := by
  unfold State.insertReg
  split <;> simp

@[simp] theorem State.oweForSize_sys (s : State) (p : PurgeRange) : (s.oweForSize p).sys = s.sys := by
  unfold State.oweForSize
  split <;> rfl

@[simp] theorem State.purgeCaches_pkr (s : State) (p : PurgeRange) : (s.purgeCaches p).sys.pkr = s.sys.pkr := by
  simp [State.purgeCaches]

@[simp] theorem State.purgeAlat_sys (s : State) (p : PurgeRange) : (s.purgeAlat p).sys = s.sys := rfl

@[simp] theorem State.purgeRegs_pkr (s : State) (side : Side) (p : PurgeRange) : (s.purgeRegs side p).sys.pkr = s.sys.pkr := by
  simp [State.purgeRegs]

/-! What happens by itself. -/

theorem Walked.pkr {s t : State} (h : Walked s t) : t.sys.pkr = s.sys.pkr := by
  obtain ⟨b, c, rfl | ⟨n, side, e, rfl⟩⟩ := h
  · rfl
  · simp

@[simp] theorem State.advanceTimer_pkr (s : State) : s.advanceTimer.sys.pkr = s.sys.pkr := rfl

@[simp] theorem freeInterruptionCrs_pkr (n : Nat) (y : Sys) : (freeInterruptionCrs n y).pkr = y.pkr := by
  simp [freeInterruptionCrs]

@[simp] theorem State.volatile_pkr (s : State) : s.volatile.sys.pkr = s.sys.pkr := by
  simp [State.volatile, apply_ite State.sys, apply_ite Sys.pkr]

@[simp] theorem State.evict_pkr (s : State) : s.evict.sys.pkr = s.sys.pkr := rfl

theorem State.countLoss_pkr {s t : State} (h : t.sys.pkr = s.sys.pkr) : (s.countLoss t).sys.pkr = s.sys.pkr := by
  simp [State.countLoss, apply_ite State.sys, apply_ite Sys.pkr, h]

@[simp] theorem State.selfWalk_pkr (s : State) : s.selfWalk.sys.pkr = s.sys.pkr := by
  unfold State.selfWalk
  extract_lets va side v
  have hends := walk_ends s v side va
  split
  · generalize walk s v side va = found at hends ⊢
    cases found with
    | found e t => exact State.countLoss_pkr (Walked.pkr hends)
    | miss t => rfl
    | alternate => rfl
    | vhptFault a => rfl
    | refuse r => rfl
  · rfl

@[simp] theorem State.monitors_sys (s : State) : s.monitors.sys = s.sys := by
  unfold State.monitors
  split <;> rfl

theorem tickOver_pkr (s : State) : (tickOver s).sys.pkr = s.sys.pkr :=
  calc (tickOver s).sys.pkr = s.advanceTimer.volatile.evict.selfWalk.monitors.sys.pkr := rfl
    _ = s.sys.pkr := by simp

/-! The one write of a protection key register (42_translation_instructions.md R384). -/

theorem rd_map {α : Type} {n i : Nat} (f : α → α) (v : Vector α n) (d : α) (h : i < n) :
    rd (v.map f) i d = f (rd v i d) := by
  simp [rd, h]

theorem pkrValid_clear (w : Word) : pkrValid (w &&& ~~~1#64) = false := by
  simp [pkrValid, bit]

theorem rd_writePkr_self {i : Nat} (v : Word) (y : Sys) (h : i < 256) : rd (writePkr i v y).pkr i 0 = v := rd_wr_self h

theorem rd_writePkr_ne {i j : Nat} (v : Word) (y : Sys) (hj : j < 256) (hne : j ≠ i) :
    rd (writePkr i v y).pkr j 0 =
      if pkrValid v && pkrValid (rd y.pkr j 0) && decide (pkrKey (rd y.pkr j 0) = pkrKey v) then rd y.pkr j 0 &&& ~~~1#64
      else rd y.pkr j 0 := by
  refine (rd_wr_ne hne).trans ?_
  cases pkrValid v
  · rfl
  · exact rd_map _ _ _ hj

/-- Another register that is valid after the write is as before, and the written word does not hold its key. -/
theorem valid_after_writePkr {i j : Nat} {v : Word} {y : Sys} (hj : j < 256) (hne : j ≠ i)
    (hvalid : pkrValid (rd (writePkr i v y).pkr j 0) = true) :
    rd (writePkr i v y).pkr j 0 = rd y.pkr j 0 ∧ (pkrValid v = true → pkrKey (rd y.pkr j 0) ≠ pkrKey v) := by
  rw [rd_writePkr_ne v y hj hne] at hvalid ⊢
  split at hvalid
  · rw [pkrValid_clear] at hvalid
    cases hvalid
  next hkept =>
    rw [if_neg hkept]
    exact ⟨rfl, fun hv hkey => hkept (by rw [hv, hvalid]; exact decide_eq_true hkey)⟩

theorem index8_lt (v : Word) : index8 v < 256 := (field v 0 8).isLt

/-- The registers that the write leaves valid hold the keys they held, and none of them the new one. -/
theorem PkrUnique.writePkr {s : State} (h : PkrUnique s) {i : Nat} (hi : i < 256) (v : Word) :
    PkrUnique (s.pushSys (writePkr i v)) := by
  intro j k hj hk hvj hvk hkey
  rw [State.pushSys_sys] at hvj hvk hkey
  by_cases hji : j = i <;> by_cases hki : k = i
  · rw [hji, hki]
  · obtain ⟨hsame, hother⟩ := valid_after_writePkr hk hki hvk
    rw [hji, rd_writePkr_self v _ hi] at hvj hkey
    rw [hsame] at hkey
    exact absurd hkey.symm (hother hvj)
  · obtain ⟨hsame, hother⟩ := valid_after_writePkr hj hji hvj
    rw [hki, rd_writePkr_self v _ hi] at hvk hkey
    rw [hsame] at hkey
    exact absurd hkey (hother hvk)
  · obtain ⟨hsamej, -⟩ := valid_after_writePkr hj hji hvj
    obtain ⟨hsamek, -⟩ := valid_after_writePkr hk hki hvk
    rw [hsamej] at hvj hkey
    rw [hsamek] at hvk hkey
    exact h j k hj hk hvj hvk hkey

/-! Every step. -/

theorem PkrUnique.of_pkr_eq {s t : State} (h : PkrUnique s) (hp : t.sys.pkr = s.sys.pkr) : PkrUnique t := by
  unfold PkrUnique
  rwa [hp]

/-- Unique keys speak of the protection key registers only, which no shared update writes. -/
theorem durable_pkrUnique : Durable PkrUnique where
  congr h _ hs := h.of_pkr_eq (congrArg Sys.pkr hs)
  cleared h := h
  marked _ h := h
  cached _ _ h := h
  interrupted e iip ri ei nested h := h.of_pkr_eq (interruptSys_pkr _ e iip ri ei nested)
  stored _ _ h := h

/-- Effects that leave the protection key registers alone, and the completion. -/
theorem finish_pkrUnique {s t : State} (h : PkrUnique s) (hp : t.sys.pkr = s.sys.pkr) : EndsIn PkrUnique (finish s t) :=
  durable_pkrUnique.finish (h.of_pkr_eq hp) s

/-- The same behind a predicate and checks. -/
theorem checked_pkrUnique {qp : BitVec 6} {l : List Check} {s t : State} (h : PkrUnique s) (hp : t.sys.pkr = s.sys.pkr) :
    EndsIn PkrUnique (predicated qp s (guarded s l (finish s t))) :=
  durable_pkrUnique.checked h (finish_pkrUnique h hp)

/-- The same behind checks only. -/
theorem guarded_pkrUnique {l : List Check} {s t : State} (h : PkrUnique s) (hp : t.sys.pkr = s.sys.pkr) :
    EndsIn PkrUnique (guarded s l (finish s t)) := durable_pkrUnique.guarded h (finish_pkrUnique h hp) l

theorem EndsIn.withPlatform {P : State → Prop} {pte : Word} {k : Out} (hk : EndsIn P k) : EndsIn P (withPlatform pte k) :=
  .ite (.refused _) hk

/-- rfi restores the PSR, CFM and the address, and may take a trap. -/
theorem returnFromInterruption_pkrUnique {s : State} (h : PkrUnique s) : EndsIn PkrUnique (returnFromInterruption s) := by
  have ht : PkrUnique (returned s) := h.of_pkr_eq (returned_pkr s)
  exact .ite (durable_pkrUnique.deliver ht ..) (.next ht)

/-- No instruction but mov to a protection key register writes one, and that keeps the keys unique. -/
theorem exec_pkrUnique {i : Instr} {s : State} (h : PkrUnique s) : EndsIn PkrUnique (exec i s) := by
  by_cases hi : writesSys i = false
  · exact durable_pkrUnique.exec h hi
  cases i
  case movToPkr => exact durable_pkrUnique.checked h (durable_pkrUnique.finish (h.writePkr (index8_lt _) _) s)
  case sum | rum | ssm | rsm | movToUm | movToCr | movToAr | movArImm | movToRr | movToDbr | movToIbr | movToPmc | movToPmd |
      movFromCr | ptcL | ptcG | ptcGa | ptcE | ptrD | ptrI => exact checked_pkrUnique h (by simp)
  case bsw0 | bsw1 | vmsw0 | epc | cover => exact guarded_pkrUnique h (by simp)
  case movI qp form =>
    cases form with
    | toAr => exact checked_pkrUnique h (State.setAr_pkr ..)
    | fromAr => exact checked_pkrUnique h (congrArg Sys.pkr (State.setVal_sys ..))
    | toArImm => exact checked_pkrUnique h (State.setAr_pkr ..)
  case movToPsrL => exact durable_pkrUnique.checked h (.ite (.refused _) (finish_pkrUnique h (by simp)))
  case vmsw1 => exact durable_pkrUnique.guarded h (.ite (.refused _) (finish_pkrUnique h (by simp))) _
  case itcD | itcI =>
    exact durable_pkrUnique.checked h (.withPlatform (finish_pkrUnique h (State.insertCache_pkr ..)))
  case itrD | itrI =>
    exact durable_pkrUnique.checked h
      (.ite (.refused _) (.withPlatform (finish_pkrUnique h (State.insertReg_pkr ..))))
  case rfi =>
    exact durable_pkrUnique.guarded h
      (.ite (.refused _) (.ite (.refused _) (.ite (.refused _) (returnFromInterruption_pkrUnique h)))) _
  case brRet =>
    exact durable_pkrUnique.predicated h (durable_pkrUnique.finishBranch (h.of_pkr_eq (retState_pkr s)) ..)
  case brIa b2 _ _ _ =>
    have ht : PkrUnique (ia32Entered s b2) := h.of_pkr_eq (ia32Entered_pkr s b2)
    exact durable_pkrUnique.guarded h (.ite (.refused _) (durable_pkrUnique.withTraps ht ..)) _
  all_goals exact absurd rfl hi

/-- Settles O4: unique keys are durable, mov to a protection key register turns off the other register that holds its key, and
neither another instruction nor what happens by itself writes these registers. -/
theorem pkrUniqueKept : Obligations.PkrUniqueKept := by
  unfold Obligations.PkrUniqueKept
  intro s t h ht
  have hstep : EndsIn PkrUnique (step s) :=
    durable_pkrUnique.step (fun _ _ => exec_pkrUnique) (fun u hu => hu.of_pkr_eq (tickOver_pkr u)) h
  exact hstep.of_next ht

end Machine
end Sys2Proof
end

section
/-!
What a walk of the VHPT inserts (WalkerInserts).
-/
namespace Sys2Proof
namespace Machine

/-! The entry of an insertion format (21_memory_translation.md R232, R247). -/

/-- No page is smaller than 4K or larger than a region. -/
theorem insertable_bounds {ps : Nat} (h : insertable ps = true) : 12 ≤ ps ∧ ps ≤ 60 := by
  simp only [insertable, stdInsertable, Bool.or_eq_true, Bool.and_eq_true, decide_eq_true_eq, List.contains_eq_mem,
    List.mem_cons, List.not_mem_nil, or_false] at h
  omega

theorem shiftRight_mul_pow_le (x k : Nat) : x >>> k * 2 ^ k ≤ x := by
  rw [Nat.shiftRight_eq_div_pow]
  exact Nat.div_mul_le_self x _

theorem mkEntry_ps {pte : Word} {ps : Nat} {key rid : BitVec 24} {va : Word} (h : insertable ps = true) :
    (mkEntry pte ps key rid va).ps.toNat = ps := by
  obtain ⟨-, hle⟩ := insertable_bounds h
  exact Nat.mod_eq_of_lt (by omega)

theorem mkEntry_base (pte : Word) (ps : Nat) (key rid : BitVec 24) (va : Word) :
    (mkEntry pte ps key rid va).base.toNat = (offOf va).toNat >>> ps * 2 ^ ps :=
  Nat.mod_eq_of_lt ((shiftRight_mul_pow_le _ ps).trans_lt (offOf va).isLt)

theorem mkEntry_ppn (pte : Word) (ps : Nat) (key rid : BitVec 24) (va : Word) :
    (mkEntry pte ps key rid va).ppn.toNat = (field pte 12 38).toNat >>> (ps - 12) * 2 ^ (ps - 12) :=
  Nat.mod_eq_of_lt ((shiftRight_mul_pow_le _ (ps - 12)).trans_lt (field pte 12 38).isLt)

/-- The entry maps the address it was made for. -/
theorem mkEntry_hits {pte : Word} {ps : Nat} {key rid : BitVec 24} {va : Word} (h : insertable ps = true) :
    (mkEntry pte ps key rid va).hits rid va = true := by
  have hcovers : (mkEntry pte ps key rid va).covers (offOf va) = true := by
    rw [TlbEntry.covers, decide_eq_true_eq, mkEntry_ps h, mkEntry_base, Nat.shiftRight_eq_div_pow, Nat.shiftRight_eq_div_pow]
    exact Nat.mul_div_cancel _ (by positivity)
  simp only [TlbEntry.hits, hcovers, Bool.and_true, Bool.and_eq_true, Bool.or_eq_true, decide_eq_true_eq]
  exact ⟨rfl, .inl rfl⟩

/-- A word masked to a field is the field in its place. -/
theorem and_fieldMask (w : Word) (lo n : Nat) :
    w &&& (BitVec.allOnes n).setWidth 64 <<< lo = (field w lo n).setWidth 64 <<< lo := by
  ext i hi
  grind [field]

/-- The page number field counts pages of 4K. -/
theorem ppnBits_toNat (pte : Word) : (pte &&& 0x3FFFFFFFFF000#64).toNat = (field pte 12 38).toNat * 4096 := by
  have hlt : (field pte 12 38).toNat < 2 ^ 38 := (field pte 12 38).isLt
  rw [show 0x3FFFFFFFFF000#64 = (BitVec.allOnes 38).setWidth 64 <<< 12 by decide, and_fieldMask, BitVec.toNat_shiftLeft,
    BitVec.toNat_setWidth, Nat.shiftLeft_eq]
  omega

/-- The page number gives the high bits of the physical address, the virtual address the offset in the page. -/
theorem mkEntry_pa {pte : Word} {ps : Nat} {key rid : BitVec 24} {va : Word} (h : insertable ps = true) :
    (mkEntry pte ps key rid va).pa va = (pte &&& 0x3FFFFFFFFF000#64).toNat / 2 ^ ps * 2 ^ ps + va.toNat % 2 ^ ps := by
  obtain ⟨k, rfl⟩ := Nat.exists_eq_add_of_le (insertable_bounds h).1
  have hframe : (field pte 12 38).toNat >>> k * 2 ^ k * 4096 / 2 ^ (12 + k) = (field pte 12 38).toNat * 4096 / 2 ^ (12 + k) := by
    rw [show 2 ^ (12 + k) = 2 ^ k * 4096 by rw [Nat.pow_add, Nat.mul_comm], Nat.mul_div_mul_right _ _ (by decide),
      Nat.mul_div_mul_right _ _ (by decide), Nat.mul_div_cancel _ (by positivity), Nat.shiftRight_eq_div_pow]
  rw [TlbEntry.pa, mkEntry_ps h, mkEntry_ppn, ppnBits_toNat, Nat.add_sub_cancel_left, Nat.shiftRight_eq_div_pow _ (12 + k),
    hframe]

/-- An inserted entry is in its cache. -/
theorem mem_insertTc (n : Nat) (side : Side) (e : TlbEntry) (y : Sys) : e ∈ (Sys.insertTc n side e y).tc side := by
  cases side <;> exact List.mem_cons_self

/-! What the entry of the table says (21_memory_translation.md R262, R263, R268). -/

/-- The words of a table entry and the page size and key they give, in the format of the walker's view. -/
structure TableWords (s : State) (v : TransView) (va : Word) (pa : Nat) (w0 w1 tag : Word) (ps : Nat) (key : BitVec 24) :
    Prop where
  first : w0 = vhptWord s v.dcr pa
  second : w1 = vhptWord s v.dcr (pa + 8)
  third : tag = vhptWord s v.dcr (pa + 16)
  size : ps = if ptaVf v.pta then (field w1 2 6).toNat else rrPs (v.rrOf va)
  key : key = if ptaVf v.pta then field w1 8 24 else rrRid (v.rrOf va)

/-- The entry has the address's tag, a page size that can be inserted, and where it is present no reserved field. -/
structure ValidFor (v : TransView) (va w0 w1 tag : Word) (ps : Nat) (key : BitVec 24) : Prop where
  tagged : ptaVf v.pta = true → tag = vhptTag (v.rrOf va) va
  size : insertable ps = true
  fields : bit w0 0 = true → pteReserved w0 = false ∧ ppnUnimpl w0 = false ∧
    (ptaVf v.pta = true → w1 &&& 0xFFFFFFFF00000003#64 = 0 ∧ keyUnimpl key = false)

/-- The checks that make the walk a miss: the tag, the page size, the reserved fields of a present entry. -/
def entryUnusable (v : TransView) (va w0 w1 tag : Word) (ps : Nat) (key : BitVec 24) : Bool :=
  (ptaVf v.pta && decide (tag ≠ vhptTag (v.rrOf va) va)) || !insertable ps ||
    (bit w0 0 && (pteReserved w0 || ppnUnimpl w0 ||
      (ptaVf v.pta && (decide (w1 &&& 0xFFFFFFFF00000003#64 ≠ 0) || keyUnimpl key))))

section
variable {s : State} {v : TransView} {side : Side} {va w0 w1 tag : Word} {pa ps : Nat} {key : BitVec 24}

/-- What the walk makes of an entry, in terms of its words. -/
theorem TableWords.walkInsert_eq (h : TableWords s v va pa w0 w1 tag ps key) :
    walkInsert s v side va pa =
      if entryUnusable v va w0 w1 tag ps key then .miss s
      else if ptaVf v.pta && decide (ps < rrPs (v.rrOf va)) then .refuse .vhptRulesBroken
      else if bit w0 0 && !platformSupports (field w0 2 3) then .refuse .platformAttribute
      else if trOverlaps (s.sys.trs side) (rrRid (v.rrOf va)) (mkEntry w0 ps key (rrRid (v.rrOf va)) va).base ps then
        walkClash s side (mkEntry w0 ps key (rrRid (v.rrOf va)) va)
      else .found (mkEntry w0 ps key (rrRid (v.rrOf va)) va)
        (s.mapSys (Sys.insertTc s.tick side (mkEntry w0 ps key (rrRid (v.rrOf va)) va))) := by
  obtain ⟨rfl, rfl, rfl, rfl, rfl⟩ := h
  rfl

theorem ValidFor.usable (h : ValidFor v va w0 w1 tag ps key) : entryUnusable v va w0 w1 tag ps key = false := by
  have htag : (ptaVf v.pta && decide (tag ≠ vhptTag (v.rrOf va) va)) = false := by
    simpa using h.tagged
  have hfields : (bit w0 0 && (pteReserved w0 || ppnUnimpl w0 ||
      (ptaVf v.pta && (decide (w1 &&& 0xFFFFFFFF00000003#64 ≠ 0) || keyUnimpl key)))) = false := by
    simpa [and_assoc] using h.fields
  rw [entryUnusable, htag, h.size, hfields]
  rfl

/-- A long-format entry of another tag is a miss. -/
theorem TableWords.walkInsert_otherTag (h : TableWords s v va pa w0 w1 tag ps key) (hlong : ptaVf v.pta = true)
    (htag : tag ≠ vhptTag (v.rrOf va) va) : walkInsert s v side va pa = .miss s := by
  rw [h.walkInsert_eq, if_pos (by simp [entryUnusable, hlong, htag])]

/-- A valid long-format entry of a smaller page than the preferred one is undefined. -/
theorem TableWords.walkInsert_smallPage (h : TableWords s v va pa w0 w1 tag ps key)
    (hvalid : ValidFor v va w0 w1 tag ps key) (hlong : ptaVf v.pta = true) (hsmall : ps < rrPs (v.rrOf va)) :
    walkInsert s v side va pa = .refuse .vhptRulesBroken := by
  rw [h.walkInsert_eq, hvalid.usable, if_neg Bool.false_ne_true, if_pos (by simp [hlong, hsmall])]

/-- A valid entry that overlaps no translation register is inserted and found. -/
theorem TableWords.walkInsert_installs (h : TableWords s v va pa w0 w1 tag ps key)
    (hvalid : ValidFor v va w0 w1 tag ps key) (hlarge : ptaVf v.pta = true → rrPs (v.rrOf va) ≤ ps)
    (hplatform : bit w0 0 = true → platformSupports (field w0 2 3) = true) {e : TlbEntry}
    (he : e = mkEntry w0 ps key (rrRid (v.rrOf va)) va) (hclear : trOverlaps (s.sys.trs side) e.rid e.base ps = false) :
    walkInsert s v side va pa = .found e (s.mapSys (Sys.insertTc s.tick side e)) := by
  have hrid : e.rid = rrRid (v.rrOf va) := he ▸ rfl
  rw [h.walkInsert_eq, hvalid.usable, if_neg Bool.false_ne_true, if_neg (by simpa using hlarge),
    if_neg (by simpa using hplatform), ← he, ← hrid, hclear, if_neg Bool.false_ne_true]

end

/-! The walk (21_memory_translation.md R268 to R273). -/

theorem searchTlb_walks {s : State} {v w : TransView} {side : Side} {va : Word}
    (hmiss : v.tlb.lookup side (rrRid (v.rrOf va)) va = []) (hon : walkerEnabled w side va = true) :
    searchTlb s v w side va = walk s w side va := by
  simp only [searchTlb, hmiss, hon, if_true]

/-- Another region register breaks rule 1 of R267. -/
theorem twoPageSizes_iff {v : TransView} {rr : Word} :
    twoPageSizes v rr = true ↔ ∃ r ∈ v.rr.toList, rrRid r = rrRid rr ∧ rrPs r ≠ rrPs rr ∧ insertable (rrPs r) = true := by
  simp only [twoPageSizes, List.any_eq_true, Bool.and_eq_true, decide_eq_true_eq, and_assoc]

/-- The table of a view is aligned to its size. -/
abbrev TableAligned (v : TransView) : Prop := ptaBase v.pta &&& BitVec.ofNat 64 (2 ^ ptaSize v.pta - 1) = 0

section
variable {s : State} {v : TransView} {side : Side} {va : Word}

theorem walk_misaligned (h : ¬TableAligned v) : walk s v side va = .refuse .vhptMisaligned := if_pos h

theorem walk_unimplBase (h : TableAligned v) (hbase : unimplVa v.vm (ptaBase v.pta) = true) : walk s v side va = .miss s :=
  (if_neg (not_not_intro h)).trans (if_pos hbase)

theorem walk_twoPageSizes (h : TableAligned v) (hbase : unimplVa v.vm (ptaBase v.pta) = false) (hlong : ptaVf v.pta = true)
    (htwo : twoPageSizes v (v.rrOf va) = true) : walk s v side va = .refuse .vhptRulesBroken :=
  (if_neg (not_not_intro h)).trans <| (if_neg (by simp [hbase])).trans (if_pos (by simp [hlong, htwo]))

/-- Nothing stops a walk before it looks up its table address. -/
structure WalkProceeds (s : State) (v : TransView) (va : Word) : Prop where
  aligned : TableAligned v
  base : unimplVa v.vm (ptaBase v.pta) = false
  rules : (ptaVf v.pta && twoPageSizes v (v.rrOf va)) = false
  walker : Config.hasVhptWalker = true
  supported : walkerSupports (rrPs (v.rrOf va)) = true
  noAbort : Config.freeBit .walkAbort s.tick = false
  implemented : unimplVa v.vm (vhptAddr v.pta (v.rrOf va) va) = false
  noDebug : v.db = false

theorem WalkProceeds.walk_unmapped {a : Word} (h : WalkProceeds s v va) (ha : a = vhptAddr v.pta (v.rrOf va) va)
    (hmiss : v.tlb.lookup .data (rrRid (v.rrOf a)) a = []) : walk s v side va = .vhptFault a := by
  obtain ⟨haligned, hbase, hrules, hwalker, hsize, habort, himpl, hdb⟩ := h
  subst ha
  simp [walk, haligned, hbase, hrules, hwalker, hsize, habort, himpl, hdb, hmiss]

/-- With its table page mapped the walk uses the lines of its entry and reads it, where that is defined. -/
theorem WalkProceeds.walk_reads {a : Word} {t : TlbEntry} (h : WalkProceeds s v va)
    (ha : a = vhptAddr v.pta (v.rrOf va) va) (hpage : v.tlb.lookup .data (rrRid (v.rrOf a)) a = [t])
    (hopen : walkBlocked v t = false) (hpop : unpopulated s.holes (t.pa a) (vhptBytes v) = false) :
    walk s v side va =
      if s.aliased .wb (t.pa a) (vhptBytes v) then .refuse .attributeAliasing
      else walkInsert (s.touch .wb (t.pa a) (vhptBytes v)) v side va (t.pa a) := by
  obtain ⟨haligned, hbase, hrules, hwalker, hsize, habort, himpl, hdb⟩ := h
  subst ha
  simp [walk, haligned, hbase, hrules, hwalker, hsize, habort, himpl, hdb, hpage, hopen, hpop]

end

/-- Settles O48: the search is the walk, which its checks stop, or which reads the table entry and installs it where that is valid
for the address. -/
theorem walkerInserts : Obligations.WalkerInserts := by
  unfold Obligations.WalkerInserts
  rintro s v w side va a rr n hmiss hon rfl ha hn
  rw [← vhptBytes] at hn
  subst hn
  rw [searchTlb_walks hmiss hon]
  refine ⟨walk_misaligned, fun haligned => ⟨walk_unimplBase haligned, fun hbase hlong htwo =>
    walk_twoPageSizes haligned hbase hlong (twoPageSizes_iff.mpr htwo), ?_⟩⟩
  intro hbase hone hwalker hsize habort himpl hdb
  have hrules : (ptaVf w.pta && twoPageSizes w (w.rrOf va)) = false := by
    by_contra hbroken
    obtain ⟨hlong, htwo⟩ := Bool.and_eq_true_iff.mp (Bool.eq_true_of_not_eq_false hbroken)
    obtain ⟨r, hr, hrid, hps, hins⟩ := twoPageSizes_iff.mp htwo
    exact hps (hone hlong r hr hrid hins)
  have hgoes : WalkProceeds s w va := ⟨haligned, hbase, hrules, hwalker, hsize, habort, ha ▸ himpl, hdb⟩
  refine ⟨hgoes.walk_unmapped ha, ?_⟩
  intro t u w0 w1 tag ps key hpage hopen hpop hu hw0 hw1 htag hps hkey
  have hread := hgoes.walk_reads (side := side) ha hpage hopen hpop
  refine ⟨fun halias => hread.trans (if_pos halias), fun hcoherent => ?_⟩
  have hwalk : walk s w side va = walkInsert u w side va (t.pa a) := by
    rw [hread, hcoherent, if_neg Bool.false_ne_true, hu]
  have hwords : TableWords u w va (t.pa a) w0 w1 tag ps key := by
    subst hu
    exact ⟨hw0, hw1, htag, hps, hkey⟩
  rw [hwalk]
  refine ⟨hwords.walkInsert_otherTag, fun htagged hins hfields => ?_⟩
  have hvalid : ValidFor w va w0 w1 tag ps key := ⟨htagged, hins, hfields⟩
  refine ⟨hwords.walkInsert_smallPage hvalid, ?_⟩
  rintro hlarge hplatform e rfl hclear
  have husys : u.sys = s.sys := by rw [hu, State.touch_sys]
  have hutick : u.tick = s.tick := by rw [hu, State.touch_tick]
  have hfound := hwords.walkInsert_installs (side := side) hvalid hlarge hplatform rfl (by rw [husys]; exact hclear)
  rw [hutick] at hfound
  exact ⟨hfound, mem_insertTc .., mkEntry_hits hins, mkEntry_ps hins, rfl, rfl, rfl, rfl, rfl, rfl, rfl, rfl, mkEntry_pa hins⟩

end Machine
end Sys2Proof
end

section
/-!
SUPPORT. The decoder on the pieces the encoder writes: cutting a word that was joined, the immediates put together again, and
which table of the decoder reads which pieces (30_encoding.md R308 to R313).
-/
namespace Sys2Proof
open BitVec

/-- Cutting a joined slot gives its pieces. -/
theorem Raw.ofWord_toWord (r : Raw) : Raw.ofWord r.toWord = r := by
  obtain ⟨op, b36, x3, xh, xm, xl, f3, f2, f1, qp⟩ := r
  simp only [Raw.ofWord, Raw.toWord, Raw.mk.injEq]
  refine ⟨?op, ?_, ?_, ?_, ?_, ?_, ?_, ?_, ?_, ?_⟩
  case op =>
    repeat rw [extractLsb'_append_eq_of_le (by decide)]
    exact extractLsb'_eq_self
  all_goals
    repeat rw [extractLsb'_append_eq_of_le (by decide)]
    exact extractLsb'_append_eq_right

theorem decodeSlot_encodeWord (u : UnitKind) (l : Slot) (i : Instr) :
    decodeSlot u l (encodeWord i) = decodeRaw u l (encodeRaw i) := by
  rw [decodeSlot, encodeWord, Raw.ofWord_toWord]

section
variable (l : Slot) (op : BitVec 4) (b36 xl : BitVec 1) (x3 xh : BitVec 3) (xm : BitVec 2) (f3 f2 f1 : BitVec 7)
  (qp : BitVec 6)

/-! Each immediate is read from the pieces that the encoder cuts it into. -/

theorem Raw.imm21_pieces (y : BitVec 1) (imm : BitVec 21) :
    Raw.imm21 ⟨op, imm.extractLsb' 20 1, x3, xh, xm, xl, y ++ imm.extractLsb' 14 6, imm.extractLsb' 7 7,
      imm.extractLsb' 0 7, qp⟩ = imm := by
  simp only [Raw.imm21, extractLsb'_append_eq_right, extractLsb'_append_extractLsb'_eq_extractLsb']
  exact extractLsb'_eq_self

theorem Raw.y_pieces (y : BitVec 1) (imm : BitVec 6) :
    Raw.y ⟨op, b36, x3, xh, xm, xl, y ++ imm, f2, f1, qp⟩ = y.toNat :=
  congrArg BitVec.toNat extractLsb'_append_eq_left

theorem Raw.imm24_pieces (imm : BitVec 24) :
    Raw.imm24 ⟨op, imm.extractLsb' 23 1, x3, imm.extractLsb' 21 2 ++ 0#1, xm, xl, imm.extractLsb' 14 7,
      imm.extractLsb' 7 7, imm.extractLsb' 0 7, qp⟩ = imm := by
  simp only [Raw.imm24, extractLsb'_append_eq_left, extractLsb'_append_extractLsb'_eq_extractLsb']
  exact extractLsb'_eq_self

/-- Where bits 32:31 hold a part of an immediate, the extension x4 does not see them. -/
theorem Raw.x4_pieces (hi : BitVec 2) (lo : BitVec 1) :
    Raw.x4 ⟨op, b36, x3, hi ++ lo, xm, xl, f3, f2, f1, qp⟩ = (lo ++ xm ++ xl).toNat := by
  simp only [Raw.x4, extractLsb'_append_eq_right]

theorem Raw.disp20b_pieces (imm : BitVec 21) :
    Raw.disp20b ⟨op, imm.extractLsb' 20 1, x3, imm.extractLsb' 17 3, imm.extractLsb' 15 2, imm.extractLsb' 14 1,
      imm.extractLsb' 7 7, imm.extractLsb' 0 7, f1, qp⟩ = imm := by
  simp only [Raw.disp20b, extractLsb'_append_extractLsb'_eq_extractLsb']
  exact extractLsb'_eq_self

theorem Raw.disp13c_pieces (imm : BitVec 21) :
    Raw.disp13c ⟨op, imm.extractLsb' 20 1, x3, imm.extractLsb' 17 3, imm.extractLsb' 15 2, imm.extractLsb' 14 1,
      imm.extractLsb' 7 7, f2, imm.extractLsb' 0 7, qp⟩ = imm :=
  Raw.disp20b_pieces op x3 f2 qp imm

theorem Raw.imm14_pieces (imm : BitVec 14) :
    Raw.imm14 ⟨op, imm.extractLsb' 13 1, x3, imm.extractLsb' 10 3, imm.extractLsb' 8 2, imm.extractLsb' 7 1, f3,
      imm.extractLsb' 0 7, f1, qp⟩ = imm := by
  simp only [Raw.imm14, extractLsb'_append_extractLsb'_eq_extractLsb']
  exact extractLsb'_eq_self

theorem Raw.imm8_pieces (imm : BitVec 8) :
    Raw.imm8 ⟨op, imm.extractLsb' 7 1, x3, xh, xm, xl, f3, imm.extractLsb' 0 7, f1, qp⟩ = imm :=
  extractLsb'_append_extractLsb'

theorem Raw.imm9a_pieces (imm : BitVec 9) :
    Raw.imm9a ⟨op, imm.extractLsb' 8 1, x3, xh, xm, imm.extractLsb' 7 1, f3, f2, imm.extractLsb' 0 7, qp⟩ = imm := by
  simp only [Raw.imm9a, extractLsb'_append_extractLsb'_eq_extractLsb']
  exact extractLsb'_eq_self

theorem Raw.imm9b_pieces (imm : BitVec 9) :
    Raw.imm9b ⟨op, imm.extractLsb' 8 1, x3, xh, xm, imm.extractLsb' 7 1, f3, imm.extractLsb' 0 7, f1, qp⟩ = imm :=
  Raw.imm9a_pieces op x3 xh xm f3 f1 qp imm

/-! The fields of the branches. -/

theorem Raw.b2_pieces (z : BitVec 4) (b2 : BitVec 3) :
    Raw.b2 ⟨op, b36, x3, xh, xm, xl, f3, z ++ b2, f1, qp⟩ = b2 := extractLsb'_append_eq_right

theorem Raw.btype_pieces (p : BitVec 1) (z low : BitVec 3) :
    Raw.btype ⟨op, b36, x3, xh, xm, xl, f3, f2, p ++ z ++ low, qp⟩ = low := extractLsb'_append_eq_right

theorem Raw.p_pieces (p : BitVec 1) (z low : BitVec 3) :
    Raw.p ⟨op, b36, x3, xh, xm, xl, f3, f2, p ++ z ++ low, qp⟩ = p := by
  simp only [Raw.p]
  rw [extractLsb'_append_eq_of_le (by decide)]
  exact extractLsb'_append_eq_left

theorem Raw.wh_pieces (d : BitVec 1) (wh : BitVec 2) :
    Raw.wh ⟨op, b36, d ++ wh, xh, xm, xl, f3, f2, f1, qp⟩ = wh := extractLsb'_append_eq_right

theorem Raw.d_pieces (d : BitVec 1) (wh : BitVec 2) :
    Raw.d ⟨op, b36, d ++ wh, xh, xm, xl, f3, f2, f1, qp⟩ = d := extractLsb'_append_eq_left

/-! The table that reads the pieces, by unit and major opcode. -/

theorem decodeRaw_m0 : decodeRaw .m l ⟨0, b36, x3, xh, xm, xl, f3, f2, f1, qp⟩ =
    decodeM0 ⟨0, b36, x3, xh, xm, xl, f3, f2, f1, qp⟩ := rfl

theorem decodeRaw_m1x : decodeRaw .m l ⟨1, b36, x3, xh, xm, xl, f3, f2, f1, qp⟩ =
    decodeM1x ⟨1, b36, x3, xh, xm, xl, f3, f2, f1, qp⟩ := rfl

theorem decodeRaw_m1 : decodeRaw .m l ⟨1, b36, 0, xh, xm, xl, f3, f2, f1, qp⟩ =
    decodeM1 ⟨1, b36, 0, xh, xm, xl, f3, f2, f1, qp⟩ := rfl

theorem decodeRaw_m4 : decodeRaw .m l ⟨4, 0, x3, xh, xm, 0, f3, f2, f1, qp⟩ =
    decodeM4 ⟨4, 0, x3, xh, xm, 0, f3, f2, f1, qp⟩ := rfl

theorem decodeRaw_m4x : decodeRaw .m l ⟨4, 0, x3, xh, xm, 1, f3, f2, f1, qp⟩ =
    decodeM4x ⟨4, 0, x3, xh, xm, 1, f3, f2, f1, qp⟩ := rfl

theorem decodeRaw_m6 : decodeRaw .m l ⟨6, 0, x3, xh, xm, 0, f3, f2, f1, qp⟩ =
    fpPlain ⟨6, 0, x3, xh, xm, 0, f3, f2, f1, qp⟩ (fpUpdOp ⟨6, 0, x3, xh, xm, 0, f3, f2, f1, qp⟩) := rfl

theorem decodeRaw_m6x : decodeRaw .m l ⟨6, b36, x3, xh, xm, 1, f3, f2, f1, qp⟩ =
    fpPairs ⟨6, b36, x3, xh, xm, 1, f3, f2, f1, qp⟩ := rfl

theorem decodeRaw_m8 : decodeRaw .m l ⟨8, b36, x3, xh, xm, xl, f3, f2, f1, qp⟩ =
    decodeA ⟨8, b36, x3, xh, xm, xl, f3, f2, f1, qp⟩ := rfl

theorem decodeRaw_i : decodeRaw .i l ⟨op, b36, x3, xh, xm, xl, f3, f2, f1, qp⟩ =
    decodeI ⟨op, b36, x3, xh, xm, xl, f3, f2, f1, qp⟩ := rfl

theorem decodeRaw_f : decodeRaw .f l ⟨op, b36, x3, xh, xm, xl, f3, f2, f1, qp⟩ =
    decodeF ⟨op, b36, x3, xh, xm, xl, f3, f2, f1, qp⟩ := rfl

theorem decodeRaw_x : decodeRaw .x l ⟨op, b36, x3, xh, xm, xl, f3, f2, f1, qp⟩ =
    decodeX l ⟨op, b36, x3, xh, xm, xl, f3, f2, f1, qp⟩ := rfl

theorem decodeRaw_b : decodeRaw .b l ⟨op, b36, x3, xh, xm, xl, f3, f2, f1, qp⟩ =
    decodeB ⟨op, b36, x3, xh, xm, xl, f3, f2, f1, qp⟩ := rfl

end

end Sys2Proof
end

section
/-!
SUPPORT. The update operations of the memory formats, read back from x6 and the register fields (30_encoding.md R312;
43_memory_instructions.md R423).
-/
namespace Sys2Proof
open BitVec

theorem pairFmtOf_code (fmt : PairFmt) : pairFmtOf fmt.code = some fmt := by cases fmt <;> rfl

theorem fpFlavourOf_code (fl : FpFlavour) : fpFlavourOf fl.code = some fl := by cases fl <;> rfl

/-- The pieces of a memory format that hold an update operation in x6. -/
def memPieces (major : BitVec 4) (op : UpdOp) (b36 xl : BitVec 1) (f2 f1 : BitVec 7) (qp : BitVec 6) (r3 : BitVec 7)
    (hint : BitVec 2) : Raw :=
  { rawMem major op.code.1 op.code.2 xl qp r3 hint with b36 := b36, f2 := f2, f1 := f1 }

/-- The pieces name an operation: its code in x6, a load's target in bits 12:6, a store's data in bits 19:13. -/
structure Raw.Names (r : Raw) (op : UpdOp) : Prop where
  x6m : r.x6m = op.code.1 ++ op.code.2
  target : op.isStore = false → r.f1 = op.target
  data : op.isStore = true → r.f2 = op.data

theorem Raw.Names.kind {r : Raw} {op : UpdOp} (h : r.Names op) : r.x6m.extractLsb' 2 4 = op.code.1 := by
  rw [h.x6m]; exact extractLsb'_append_eq_left

theorem Raw.Names.low {r : Raw} {op : UpdOp} (h : r.Names op) : r.x6m.extractLsb' 0 2 = op.code.2 := by
  rw [h.x6m]; exact extractLsb'_append_eq_right

/-- x6 of a memory format crosses a boundary of the pieces: its kind lies in both. -/
theorem kind_split (kind : BitVec 4) (low : BitVec 2) :
    kind.extractLsb' 1 3 ++ (kind.extractLsb' 0 1 ++ low) = kind ++ low := by
  revert kind low; decide

theorem memPieces_names {op : UpdOp} {f2 f1 : BitVec 7} (major : BitVec 4) (b36 xl : BitVec 1) (qp : BitVec 6) (r3 : BitVec 7)
    (hint : BitVec 2) (hf1 : op.isStore = false → f1 = op.target) (hf2 : op.isStore = true → f2 = op.data) :
    (memPieces major op b36 xl f2 f1 qp r3 hint).Names op :=
  ⟨kind_split .., hf1, hf2⟩

theorem intUpdOp_eq {r : Raw} {op : UpdOp} (h : r.Names op) (hint : op.isInt = true) : intUpdOp r = some op := by
  unfold intUpdOp
  rw [h.low, h.kind]
  cases op with
  | load sz fl r1 => rw [h.target rfl]; cases fl <;> rfl
  | fill r1 => rw [h.target rfl]; rfl
  | store sz rel r2 => rw [h.data rfl]; cases rel <;> rfl
  | spill r2 => rw [h.data rfl]; rfl
  | _ => cases hint

theorem fpUpdOp_eq {r : Raw} {op : UpdOp} (h : r.Names op) (hfp : op.isInt = false) (hsingle : op.allows .size = false) :
    fpUpdOp r = some op := by
  unfold fpUpdOp
  rw [h.low, h.kind]
  cases op with
  | fpLoad fmt fl f1 => rw [h.target rfl]; cases fmt <;> cases fl <;> rfl
  | fpFill f1 => rw [h.target rfl]; rfl
  | fpStore fmt f2 => rw [h.data rfl]; cases fmt <;> rfl
  | fpSpill f2 => rw [h.data rfl]; rfl
  | lfetch fault excl => cases fault <;> cases excl <;> rfl
  | fpPair => cases hsingle
  | _ => cases hfp

theorem fpPairs_eq {r : Raw} {fmt : PairFmt} {fl : FpFlavour} (h : r.x6m = fl.code ++ fmt.code) :
    fpPairs r = if r.b36 = 0 then .ok (.ldfp r.qp fmt fl r.f1 r.f2 r.f3 r.xm)
      else .ok (.memUpd r.qp (.fpPair fmt fl r.f1 r.f2) r.f3 .size r.xm) := by
  have hlow : r.x6m.extractLsb' 0 2 = fmt.code := by rw [h]; exact extractLsb'_append_eq_right
  have hkind : r.x6m.extractLsb' 2 4 = fl.code := by rw [h]; exact extractLsb'_append_eq_left
  rw [fpPairs, hlow, hkind, pairFmtOf_code, fpFlavourOf_code]

/-- Only the pair loads update by their size. -/
theorem UpdOp.allows_size_eq_false {op : UpdOp} {upd : Upd} (h : op.allows upd = true) (hu : upd ≠ .size) :
    op.allows .size = false := by
  cases op with
  | fpPair => cases upd <;> trivial
  | _ => rfl

/-- No store has a register-update form. -/
theorem UpdOp.isStore_eq_false {op : UpdOp} {r2 : BitVec 7} (h : op.allows (.reg r2) = true) : op.isStore = false := by
  cases op <;> trivial

section
variable {op : UpdOp} {f2 f1 : BitVec 7} (l : Slot) (b36 xl : BitVec 1) (qp : BitVec 6) (r3 : BitVec 7) (hint : BitVec 2)

/-- A register-update form of either pair of opcodes reads its operation back. -/
theorem decodeRaw_updReg (hf1 : op.isStore = false → f1 = op.target) (hf2 : op.isStore = true → f2 = op.data)
    (hsingle : op.allows .size = false) :
    decodeRaw .m l (memPieces (if op.isInt then 4 else 6) op 1 0 f2 f1 qp r3 hint) =
      updReg (memPieces (if op.isInt then 4 else 6) op 1 0 f2 f1 qp r3 hint) (some op) := by
  cases hi : op.isInt with
  | true => exact congrArg (updReg _) (intUpdOp_eq (memPieces_names 4 1 0 qp r3 hint hf1 hf2) hi)
  | false => exact congrArg (updReg _) (fpUpdOp_eq (memPieces_names 6 1 0 qp r3 hint hf1 hf2) hi hsingle)

/-- So does an immediate-update form. -/
theorem decodeRaw_updImm (hf1 : op.isStore = false → f1 = op.target) (hf2 : op.isStore = true → f2 = op.data)
    (hsingle : op.allows .size = false) :
    decodeRaw .m l (memPieces (if op.isInt then 5 else 7) op b36 xl f2 f1 qp r3 hint) =
      updImm (memPieces (if op.isInt then 5 else 7) op b36 xl f2 f1 qp r3 hint) (some op) := by
  cases hi : op.isInt with
  | true => exact congrArg (updImm _) (intUpdOp_eq (memPieces_names 5 b36 xl qp r3 hint hf1 hf2) hi)
  | false => exact congrArg (updImm _) (fpUpdOp_eq (memPieces_names 7 b36 xl qp r3 hint hf1 hf2) hi hsingle)

end

theorem decodeRaw_encodeUpd (l : Slot) (qp : BitVec 6) (op : UpdOp) (r3 : BitVec 7) (upd : Upd) (hint : BitVec 2)
    (h : op.allows upd = true) : decodeRaw .m l (encodeUpd qp op r3 upd hint) = .ok (.memUpd qp op r3 upd hint) := by
  cases upd with
  | reg r2 =>
    have hload : op.isStore = false := UpdOp.isStore_eq_false h
    refine (decodeRaw_updReg (f2 := r2) (f1 := op.target) l qp r3 hint (fun _ => rfl) (fun hs => by simp [hload] at hs)
      (UpdOp.allows_size_eq_false h nofun)).trans ?_
    simp only [updReg, hload]
    rfl
  | imm i =>
    have hpieces : encodeUpd qp op r3 (.imm i) hint = memPieces (if op.isInt then 5 else 7) op (i.extractLsb' 8 1)
        (i.extractLsb' 7 1) (if op.isStore then op.data else i.extractLsb' 0 7)
        (if op.isStore then i.extractLsb' 0 7 else op.target) qp r3 hint := by
      cases hs : op.isStore <;> simp only [encodeUpd, hs] <;> rfl
    rw [hpieces, decodeRaw_updImm _ _ _ _ _ _ (fun hs => by simp [hs]) (fun hs => by simp [hs])
      (UpdOp.allows_size_eq_false h nofun)]
    refine congrArg (fun k => Except.ok (Instr.memUpd qp op r3 (.imm k) hint)) ?_
    cases op.isStore with
    | true => exact Raw.imm9a_pieces ..
    | false => exact Raw.imm9b_pieces ..
  | size =>
    cases op with
    | fpPair fmt fl f1 f2 => exact (decodeRaw_m6x ..).trans (fpPairs_eq (kind_split ..))
    | _ => cases h

/-- A completer of a floating-point load without update. -/
theorem decodeRaw_ldfFlav (l : Slot) (qp : BitVec 6) (fmt : FpFmt) (flav : FpSpec) (f1 r3 : BitVec 7) (hint : BitVec 2) :
    decodeRaw .m l (encodeRaw (.ldfFlav qp fmt flav f1 r3 hint)) = .ok (.ldfFlav qp fmt flav f1 r3 hint) := by
  have hop : fpUpdOp (memPieces 6 (.fpLoad fmt flav.flavour f1) 0 0 0 f1 qp r3 hint) = some (.fpLoad fmt flav.flavour f1) :=
    fpUpdOp_eq (memPieces_names 6 0 0 qp r3 hint (fun _ => rfl) (fun hs => nomatch hs)) rfl rfl
  refine (congrArg (fpPlain _) hop).trans ?_
  cases flav <;> cases fmt <;> rfl

end Sys2Proof
end

section
/-!
Decoding what the encoder writes (DecodeEncode), and words of the encoding tables (DecodeWords).
-/
namespace Sys2Proof
open BitVec

/-- brp takes all 37 bits below its opcode. -/
theorem decodeB_brp (w : BitVec 37) : decodeB (Raw.ofWord (7#4 ++ w)) = .ok (.brRel (.brp w)) := by
  have hop : (Raw.ofWord (7#4 ++ w)).op = 7#4 := extractLsb'_append_eq_left
  unfold decodeB
  rw [hop]
  show Except.ok _ = _
  simp only [Raw.ofWord, extractLsb'_append_extractLsb'_eq_extractLsb']
  exact congrArg (fun k => Except.ok (Instr.brRel (.brp k))) extractLsb'_append_eq_right

theorem decodeRaw_brRel (l : Slot) (form : BrRelForm) :
    decodeRaw .b l (encodeRaw (.brRel form)) = .ok (.brRel form) := by
  cases form
  case brp w => exact decodeB_brp w
  case cond | wexit | wtop | cloop | cexit | ctop | call =>
    refine (decodeRaw_b ..).trans ?_
    unfold decodeB
    simp only [Raw.btype_pieces, Raw.disp20b_pieces, Raw.p_pieces, Raw.wh_pieces, Raw.d_pieces]
    rfl

/-- The decoder reads each instruction from its pieces: the table for its unit and major opcode reads its extension, which
names it, and the operands from the fields that hold them. -/
theorem decodeRaw_encodeRaw (i : Instr) (h : i.WF) : decodeRaw i.unitOf (encodeL i) (encodeRaw i) = .ok i := by
  cases i
  -- M unit, opcode 0 (R308).
  case invala | fwb | srlzD | srlzI | invalaER | mf | invalaEF | mfA | syncI | loadrs | flushrs =>
    refine (decodeRaw_m0 ..).trans ?_
    unfold decodeM0
    dsimp only [Raw.x4, Raw.x2]
    rfl
  case breakM | nopM | hintM =>
    refine (decodeRaw_m0 ..).trans ?_
    unfold decodeM0
    simp only [Raw.x4, Raw.x2, Raw.imm21_pieces, Raw.y_pieces]
    rfl
  case movArImm =>
    refine (decodeRaw_m0 ..).trans ?_
    unfold decodeM0
    dsimp only [Raw.x4, Raw.x2]
    show Except.ok _ = _
    simp only [Raw.imm8_pieces]
  case sum | rum | ssm | rsm =>
    refine (decodeRaw_m0 ..).trans ?_
    unfold decodeM0
    simp only [Raw.x4_pieces, Raw.imm24_pieces]
    rfl
  case chkANcR | chkAClrR | chkANcF | chkAClrF =>
    refine (decodeRaw_m0 ..).trans ?_
    show Except.ok _ = _
    simp only [Raw.disp20b_pieces]
  -- M unit, opcode 1 (R309).
  case movToRr | movToDbr | movToIbr | movToPkr | movToPmc | movToPmd | movFromRr | movFromDbr | movFromIbr | movFromPkr |
      movFromPmc | movFromPmd | movFromCpuid | ptcL | ptcG | ptcGa | ptrD | ptrI | itrD | itrI | thash | ttag | tpa | tak |
      movFromUm | movFromAr | movFromCr | movFromPsr | movToUm | movToAr | movToCr | movToPsrL | itcD | itcI | fc | fcI |
      ptcE | probeR | probeW =>
    refine (decodeRaw_m1 ..).trans ?_
    unfold decodeM1
    dsimp only [Raw.x6]
    rfl
  case probeRImm | probeWImm | probeRwFault | probeRFault | probeWFault =>
    refine (decodeRaw_m1 ..).trans ?_
    unfold decodeM1
    dsimp only [Raw.x6]
    show Except.ok _ = _
    simp only [Raw.imm2, extractLsb'_append_eq_right]
  case chkSM | chkSF =>
    refine (decodeRaw_m1x ..).trans ?_
    show Except.ok _ = _
    simp only [Raw.disp13c_pieces]
  case alloc r1 sof sol sor =>
    refine (decodeRaw_m1x ..).trans ?_
    show Except.ok _ = _
    simp only [extractLsb'_append_eq_right, extractLsb'_append_extractLsb'_eq_extractLsb']
    exact congrArg (fun k => Except.ok (Instr.alloc r1 sof sol k)) extractLsb'_eq_self
  -- M unit, opcodes 4 to 7 (R312).
  case ld1 | ld2 | ld4 | ld8 | ld1S | ld2S | ld4S | ld8S | ld1A | ld2A | ld4A | ld8A | ld1Sa | ld2Sa | ld4Sa | ld8Sa |
      ld1Bias | ld2Bias | ld4Bias | ld8Bias | ld1Acq | ld2Acq | ld4Acq | ld8Acq | ld1CClr | ld2CClr | ld4CClr | ld8CClr |
      ld1CNc | ld2CNc | ld4CNc | ld8CNc | ld1CClrAcq | ld2CClrAcq | ld4CClrAcq | ld8CClrAcq | ld8Fill | st1 | st2 | st4 |
      st8 | st1Rel | st2Rel | st4Rel | st8Rel | st8Spill =>
    refine (decodeRaw_m4 ..).trans ?_
    unfold decodeM4
    dsimp only [Raw.x6m]
    rfl
  case cmpxchg1Acq | cmpxchg2Acq | cmpxchg4Acq | cmpxchg8Acq | cmpxchg1Rel | cmpxchg2Rel | cmpxchg4Rel | cmpxchg8Rel |
      xchg1 | xchg2 | xchg4 | xchg8 | cmp8xchg16Acq | cmp8xchg16Rel | ld16 | ld16Acq | st16 | st16Rel =>
    refine (decodeRaw_m4x ..).trans ?_
    unfold decodeM4x
    dsimp only [Raw.x6m]
    rfl
  case fetchadd4Acq | fetchadd8Acq | fetchadd4Rel | fetchadd8Rel =>
    refine (decodeRaw_m4x ..).trans ?_
    unfold decodeM4x
    dsimp only [Raw.x6m]
    show Except.ok _ = _
    simp only [extractLsb'_append_eq_right]
  case lfetch | lfetchExcl | lfetchFault | lfetchFaultExcl | ldfe | stfe | ldfs | ldfd | ldf8 | ldfFill | stfs | stfd |
      stf8 | stfSpill =>
    refine (decodeRaw_m6 ..).trans ?_
    unfold fpUpdOp
    dsimp only [Raw.x6m]
    rfl
  case ldfFlav qp fmt flav f1 r3 hint => exact decodeRaw_ldfFlav _ qp fmt flav f1 r3 hint
  case ldfp => exact (decodeRaw_m6x ..).trans (fpPairs_eq (kind_split ..))
  case memUpd qp op r3 upd hint => exact decodeRaw_encodeUpd _ qp op r3 upd hint h
  -- The A type (R313).
  case addp4 => rfl
  case shladdp4 =>
    refine (decodeRaw_m8 ..).trans ?_
    unfold decodeA
    simp only [extractLsb'_append_eq_left, extractLsb'_append_eq_right, extractLsb'_append_extractLsb']
    rw [if_neg fun ⟨_, hxh, _⟩ => absurd hxh (by decide), if_pos (by decide)]
  case addp4Imm =>
    refine (decodeRaw_m8 ..).trans ?_
    show Except.ok _ = _
    simp only [Raw.imm14_pieces]
  -- I, F and X units (R310, R316).
  case breakI | nopI | hintI =>
    refine (decodeRaw_i ..).trans ?_
    unfold decodeI
    simp only [Raw.x6, Raw.imm21_pieces, Raw.y_pieces]
    rfl
  case movI qp form =>
    cases form
    all_goals
      refine (decodeRaw_i ..).trans ?_
      unfold decodeI
      simp only [Raw.x6, Raw.imm8_pieces]
      rfl
  case breakFX qp form =>
    cases form with
    | f imm =>
      refine (decodeRaw_f ..).trans ?_
      unfold decodeF
      simp only [Raw.x6, Raw.imm21_pieces]
      rfl
    | x imm =>
      refine (decodeRaw_x ..).trans ?_
      unfold decodeX
      simp only [Raw.x6, Raw.imm21_pieces, encodeL, extractLsb'_append_extractLsb']
      rfl
  -- B unit (R311).
  case cover | clrrrb | clrrrbPr | rfi | bsw0 | bsw1 | epc | vmsw0 | vmsw1 => rfl
  case breakB | nopB | hintB =>
    refine (decodeRaw_b ..).trans ?_
    unfold decodeB
    dsimp only [Raw.x6]
    show Except.ok _ = _
    simp only [Raw.imm21_pieces]
  case brCond | brIa | brRet =>
    refine (decodeRaw_b ..).trans ?_
    unfold decodeB
    simp only [Raw.x6, Raw.b2_pieces, Raw.btype_pieces, Raw.p_pieces, Raw.wh_pieces, Raw.d_pieces]
    rfl
  case brRel form => exact decodeRaw_brRel _ form

/-- Settles O5: the slot is cut into the pieces it was joined from, and the decoder reads the instruction from them. -/
theorem decodeEncode : Obligations.DecodeEncode := by
  unfold Obligations.DecodeEncode
  intro i h
  rw [decodeSlot_encodeWord, decodeRaw_encodeRaw i h]

/-- A word that the encoder writes for an instruction decodes to it. -/
theorem decodeSlot_of_encodeWord_eq {i : Instr} {w : Slot} (hw : encodeWord i = w) (hl : encodeL i = 0) (h : i.WF) :
    decodeSlot i.unitOf 0 w = .ok i := by
  rw [← hw, ← hl]
  exact decodeEncode i h

/-- Settles O6: each word is the one that the encoder writes for its instruction. -/
theorem decodeWords : Obligations.DecodeWords := by
  unfold Obligations.DecodeWords
  exact ⟨decodeSlot_of_encodeWord_eq (i := .ssm 0 0x6000) (by decide) rfl rfl,
    decodeSlot_of_encodeWord_eq (i := .movToCr 0 19 2) (by decide) rfl rfl,
    decodeSlot_of_encodeWord_eq (i := .ld8 0 1 3 0) (by decide) rfl rfl,
    decodeSlot_of_encodeWord_eq (i := .rfi) (by decide) rfl rfl,
    decodeSlot_of_encodeWord_eq (i := .addp4 0 1 2 3) (by decide) rfl rfl,
    decodeSlot_of_encodeWord_eq (i := .ptcE 0 3) (by decide) rfl rfl,
    decodeSlot_of_encodeWord_eq (i := .fetchadd4Acq 0 1 3 3 0) (by decide) rfl rfl⟩

end Sys2Proof
end

section
/-!
Instructions that do nothing (FalsePredicateDoesNothing, HintsAndFencesComplete) and taken branches (BranchesTaken).
-/
namespace Sys2Proof
namespace Machine

/-- Completing without an effect, where nothing traps, leaves everything outside the empty footprint. -/
theorem finish_does_nothing {s : State} (h : Quiet s) : ∃ t, finish s s = .next t ∧ Frame {} s t :=
  ⟨advanced s s, finish_quiet h rfl rfl, (Touch.refl {} s).frame⟩

/-- Settles O15: an instruction turned off by its predicate runs the completion alone. -/
theorem falsePredicateDoesNothing : Obligations.FalsePredicateDoesNothing := by
  unfold Obligations.FalsePredicateDoesNothing
  intro i s hoff hq
  rw [exec_of_pred_false hoff]
  exact finish_does_nothing hq

/-- The no-operations, hints and fences run the completion alone, whatever their predicate. -/
theorem exec_hint {i : Instr} {qp : BitVec 6} {imm : BitVec 21} (s : State)
    (hi : i ∈ [Instr.nopM qp imm, .hintM qp imm, .nopI qp imm, .hintI qp imm, .nopB qp imm, .hintB qp imm, .mf qp, .mfA qp,
      .fwb qp]) : exec i s = finish s s := by
  cases hp : s.pred qp with
  | true => exact exec_of_completesTo (.plain i qp imm hp hi)
  | false =>
    have hqp : qpOf i = qp := by
      simp only [List.mem_cons, List.not_mem_nil, or_false] at hi
      rcases hi with rfl | rfl | rfl | rfl | rfl | rfl | rfl | rfl | rfl <;> rfl
    exact exec_of_pred_false (by rw [hqp, hp])

/-- Settles O17: with or without their predicate these instructions run the completion alone; brp has no predicate. -/
theorem hintsAndFencesComplete : Obligations.HintsAndFencesComplete := by
  unfold Obligations.HintsAndFencesComplete
  intro qp imm w s i hq hi
  have hexec : exec i s = finish s s := by
    rcases List.mem_append.mp (show i ∈ [_, _, _, _, _, _, _, _, _] ++ [Instr.brRel (.brp w)] from hi) with hi | hi
    · exact exec_hint s hi
    · rw [List.mem_singleton.mp hi]
      exact exec_of_completesTo (.brp w)
  rw [hexec]
  exact finish_does_nothing hq

/-- A taken branch that changes no serializable resource, where nothing traps, goes to its target with its own effects. -/
theorem takenTo_completes {f : Footprint} {i : Instr} {s u : State} {target : Word} (h : TakenTo s i u target false)
    (hq : QuietBranch s target) (hsys : u.sys = s.sys) (hu : Touch f s u) (hj : f.jump = true := by rfl) :
    exec i s = .next (branched s u target) ∧ (branched s u target).ip = target &&& ~~~15#64 ∧
      (branched s u target).slot = 0 ∧ Frame f s (branched s u target) :=
  ⟨(exec_of_takenTo h).trans (finishBranch_quiet hq (by rw [State.psrNow, hsys, State.psrNow])
      (by rw [State.psrNow, hsys, State.psrNow])),
    branched_ip .., branched_slot .., hu.frame_branched target hj⟩

/-- A written application register other than ITC reads back after the branch. -/
theorem branched_getAr_setAr (s u : State) (target v : Word) {n : Nat} (hn : n < 128) (hi : n ≠ Ar.itc) :
    (branched s (u.setAr n v) target).getAr n = v := by
  simp only [State.getAr, if_neg hi, branched_ar, State.setAr]
  exact rd_wr_self hn

/-- The counted loop falls through where LC is 0. -/
theorem exec_cloop_done {s : State} (imm : BitVec 21) (p : BitVec 1) (wh : BitVec 2) (d : BitVec 1) (h : s.getAr 65 = 0) :
    exec (.brRel (.cloop imm p wh d)) s = finish s s := if_pos h

/-- Settles O26: the branches that are taken share one completion; the counted loop writes LC before it. -/
theorem branchesTaken : Obligations.BranchesTaken := by
  unfold Obligations.BranchesTaken
  intro qp b2 imm p wh d s hp
  refine ⟨fun hq => ?_, fun hq => ?_, fun hq hlc => ?_, fun hq hlc => ?_⟩
  · exact ⟨_, takenTo_completes (.cond qp b2 p wh d hp) hq rfl (.refl _ s)⟩
  · exact ⟨_, takenTo_completes (.rel qp imm p wh d hp) hq rfl (.refl _ s)⟩
  · obtain ⟨hexec, hip, hslot, hframe⟩ := takenTo_completes (f := { ar := [65], jump := true }) (.loop imm p wh d hlc) hq
      (by simp [State.setAr, Ar.itc]) ((Touch.refl _ s).setAr _ (by simp) (by decide))
    exact ⟨_, hexec, branched_getAr_setAr s s _ _ (by decide) (by decide), hip, hslot, hframe⟩
  · rw [exec_cloop_done imm p wh d hlc]
    exact finish_does_nothing hq

end Machine
end Sys2Proof
end

section
/-!
The reserved bits of the PSR stay 0 (PsrCleanKept): each write of the PSR, and what leaves it alone.
-/
namespace Sys2Proof
namespace Machine

/-! Words without reserved bits. -/

theorem psrReservedSet_eq_false_iff {p : Word} :
    psrReservedSet p = false ↔ p &&& psrReserved = 0 ∧ (bit p Psr.vm = true → Config.hasPsrVm = true) := by
  simp [psrReservedSet]

/-- Clearing bits, or taking those of a mask. -/
theorem psrReservedSet_and {p : Word} (h : psrReservedSet p = false) (q : Word) : psrReservedSet (p &&& q) = false := by
  obtain ⟨hbits, hvm⟩ := psrReservedSet_eq_false_iff.mp h
  refine psrReservedSet_eq_false_iff.mpr ⟨?_, fun hpq => hvm ?_⟩
  · rw [BitVec.and_assoc, BitVec.and_comm q, ← BitVec.and_assoc, hbits]
    exact BitVec.zero_and
  · rw [bit, BitVec.getLsbD_and, Bool.and_eq_true] at hpq
    exact hpq.1

theorem psrReservedSet_or {p q : Word} (hp : psrReservedSet p = false) (hq : psrReservedSet q = false) :
    psrReservedSet (p ||| q) = false := by
  obtain ⟨hpbits, hpvm⟩ := psrReservedSet_eq_false_iff.mp hp
  obtain ⟨hqbits, hqvm⟩ := psrReservedSet_eq_false_iff.mp hq
  refine psrReservedSet_eq_false_iff.mpr ⟨?_, fun hpq => ?_⟩
  · rw [BitVec.and_comm, BitVec.and_or_distrib_left, BitVec.and_comm, hpbits, BitVec.and_comm, hqbits]
    rfl
  · rw [bit, BitVec.getLsbD_or, Bool.or_eq_true] at hpq
    exact hpq.elim hpvm hqvm

theorem psrReservedSet_setBit {p : Word} (hp : psrReservedSet p = false) {n : Nat} (b : Bool)
    (hn : psrReservedSet (bitMask n) = false) : psrReservedSet (setBit p n b) = false := by
  cases b with
  | true => exact psrReservedSet_or hp hn
  | false => exact psrReservedSet_and hp _

theorem psrReservedSet_setCpl {p : Word} (hp : psrReservedSet p = false) (c : BitVec 2) :
    psrReservedSet (setCpl p c) = false := by
  have hlevel : psrReservedSet ((c.setWidth 64) <<< 32) = false := by revert c; decide
  exact psrReservedSet_or (psrReservedSet_and hp _) hlevel

/-- The user mask has no reserved bit. -/
theorem psrReservedSet_userWritable (sp : Bool) : psrReservedSet (userWritable sp) = false := by
  cases sp <;> decide

theorem psrReservedSet_sumPsr {p : Word} (hp : psrReservedSet p = false) (sp : Bool) (imm : Word) :
    psrReservedSet (sumPsr sp imm p) = false := by
  refine psrReservedSet_or hp ?_
  rw [BitVec.and_comm]
  exact psrReservedSet_and (psrReservedSet_userWritable sp) imm

theorem psrReservedSet_rumPsr {p : Word} (hp : psrReservedSet p = false) (sp : Bool) (imm : Word) :
    psrReservedSet (rumPsr sp imm p) = false := psrReservedSet_and hp _

theorem psrReservedSet_movUmPsr {p : Word} (hp : psrReservedSet p = false) (sp : Bool) (v : Word) :
    psrReservedSet (movUmPsr sp v p) = false := by
  refine psrReservedSet_or (psrReservedSet_and hp _) ?_
  rw [BitVec.and_comm]
  exact psrReservedSet_and (psrReservedSet_userWritable sp) v

/-- Below bit 32 the system mask checks and those of mov psr.l see every reserved bit. -/
theorem psrReservedSet_of_low {v m r : Word} (hm : m &&& psrReserved = r) (hvm : bit m Psr.vm = false) (hv : v &&& r = 0) :
    psrReservedSet (v &&& m) = false := by
  refine psrReservedSet_eq_false_iff.mpr ⟨by rw [BitVec.and_assoc, hm, hv], fun hbit => ?_⟩
  rw [bit, BitVec.getLsbD_and, ← bit, ← bit, hvm, Bool.and_false] at hbit
  cases hbit

/-- A 24-bit immediate is its own low part. -/
theorem imm24_and_mask (imm : BitVec 24) : imm.setWidth 64 &&& 0xFFFFFF#64 = imm.setWidth 64 := by
  calc imm.setWidth 64 &&& 0xFFFFFF#64 = (imm &&& BitVec.allOnes 24).setWidth 64 := by
        rw [BitVec.setWidth_and]
        rfl
    _ = imm.setWidth 64 := by rw [BitVec.and_allOnes]

theorem psrReservedSet_systemImm {imm : BitVec 24} (h : imm.setWidth 64 &&& systemReserved = 0) :
    psrReservedSet (imm.setWidth 64) = false := by
  rw [← imm24_and_mask]
  exact psrReservedSet_of_low (by decide) (by decide) h

theorem psrReservedSet_movLowerPsr {p v : Word} (hp : psrReservedSet p = false) (hv : v &&& lowerReserved = 0) :
    psrReservedSet (movLowerPsr v p) = false :=
  psrReservedSet_or (psrReservedSet_and hp _) (psrReservedSet_of_low (by decide) (by decide) hv)

theorem psrReservedSet_markFpWritten {p : Word} (hp : psrReservedSet p = false) (f : BitVec 7) :
    psrReservedSet (markFpWritten f p) = false := by
  unfold markFpWritten
  split
  · exact hp
  split
  · exact psrReservedSet_setBit hp true (by decide)
  · exact psrReservedSet_setBit hp true (by decide)

theorem psrReservedSet_interruptPsr {p : Word} (hp : psrReservedSet p = false) (be pp : Bool) :
    psrReservedSet (interruptPsr be pp p) = false :=
  psrReservedSet_setBit (psrReservedSet_setBit (psrReservedSet_and hp _) be (by decide)) pp (by decide)

/-! What leaves the PSR alone. -/

@[simp] theorem collect_psr (s : State) (e : Exc) (iip : Word) (ri : BitVec 2) (y : Sys) :
    (collect s e iip ri y).psr = y.psr := by
  simp only [collect, Sys.setCr_psr]

@[simp] theorem State.setAr_psr (s : State) (n : Nat) (v : Word) : (s.setAr n v).sys.psr = s.sys.psr := by
  unfold State.setAr
  split <;> rfl

@[simp] theorem coverSave_psr (s : State) : (coverSave s).sys.psr = s.sys.psr := by
  simp [coverSave, apply_ite State.sys, apply_ite Sys.psr]

@[simp] theorem Sys.endInterrupt_psr (y : Sys) : y.endInterrupt.psr = y.psr := by
  unfold Sys.endInterrupt
  split <;> rfl

@[simp] theorem State.writeCr_psr (s : State) (n : Nat) (v : Word) : (s.writeCr n v).sys.psr = s.sys.psr := by
  simp [State.writeCr, State.writeEoi, apply_ite State.sys, apply_ite Sys.psr]

@[simp] theorem State.readIvr_psr (s : State) : s.readIvr.2.sys.psr = s.sys.psr := by
  unfold State.readIvr
  split <;> rfl

@[simp] theorem State.readCr_psr (s : State) (n : Nat) : (s.readCr n).2.sys.psr = s.sys.psr := by
  simp [State.readCr, apply_ite Prod.snd, apply_ite State.sys, apply_ite Sys.psr]

@[simp] theorem State.writePmd_psr (s : State) (i : Nat) (v : Word) : (s.writePmd i v).sys.psr = s.sys.psr := rfl

@[simp] theorem writePkr_psr (i : Nat) (v : Word) (y : Sys) : (writePkr i v y).psr = y.psr := rfl

@[simp] theorem Sys.setTc_psr (y : Sys) (side : Side) (l : List TlbEntry) : (y.setTc side l).psr = y.psr := by
  cases side <;> rfl

@[simp] theorem Sys.setTrs_psr (y : Sys) (side : Side) (v : Vector (Option TlbEntry) 256) :
    (y.setTrs side v).psr = y.psr := by
  cases side <;> rfl

@[simp] theorem Sys.purgeForInsert_psr (n : Nat) (side : Side) (e : TlbEntry) (y : Sys) :
    (y.purgeForInsert n side e).psr = y.psr := by
  simp [Sys.purgeForInsert]

@[simp] theorem Sys.insertTc_psr (n : Nat) (side : Side) (e : TlbEntry) (y : Sys) : (Sys.insertTc n side e y).psr = y.psr := by
  simp [Sys.insertTc]

@[simp] theorem Sys.insertTr_psr (n : Nat) (side : Side) (i : Nat) (e : TlbEntry) (y : Sys) :
    (Sys.insertTr n side i e y).psr = y.psr := by
  simp [Sys.insertTr]

@[simp] theorem State.insertClash_psr (s : State) (side : Side) (e : TlbEntry) :
    (s.insertClash side e).sys.psr = s.sys.psr := by
  unfold State.insertClash
  split <;> simp

@[simp] theorem State.insertCache_psr (s : State) (side : Side) (e : TlbEntry) :
    (s.insertCache side e).sys.psr = s.sys.psr := by
  unfold State.insertCache
  split <;> simp

@[simp] theorem State.insertReg_psr (s : State) (side : Side) (n : Nat) (e : TlbEntry) :
    (s.insertReg side n e).sys.psr = s.sys.psr := by
  unfold State.insertReg
  split <;> simp

@[simp] theorem State.purgeCaches_psr (s : State) (p : PurgeRange) : (s.purgeCaches p).sys.psr = s.sys.psr := by
  simp [State.purgeCaches]

@[simp] theorem State.purgeRegs_psr (s : State) (side : Side) (p : PurgeRange) : (s.purgeRegs side p).sys.psr = s.sys.psr := by
  simp [State.purgeRegs]

@[simp] theorem freeInterruptionCrs_psr (n : Nat) (y : Sys) : (freeInterruptionCrs n y).psr = y.psr := by
  simp [freeInterruptionCrs]

@[simp] theorem State.advanceTimer_psr (s : State) : s.advanceTimer.sys.psr = s.sys.psr := rfl

@[simp] theorem State.volatile_psr (s : State) : s.volatile.sys.psr = s.sys.psr := by
  simp [State.volatile, apply_ite State.sys, apply_ite Sys.psr]

@[simp] theorem State.evict_psr (s : State) : s.evict.sys.psr = s.sys.psr := rfl

theorem State.countLoss_psr {s t : State} (h : t.sys.psr = s.sys.psr) : (s.countLoss t).sys.psr = s.sys.psr := by
  simp [State.countLoss, apply_ite State.sys, apply_ite Sys.psr, h]

@[simp] theorem State.selfWalk_psr (s : State) : s.selfWalk.sys.psr = s.sys.psr := by
  unfold State.selfWalk
  extract_lets va side v
  have hends := walk_ends s v side va
  split
  · generalize walk s v side va = found at hends ⊢
    cases found with
    | found e t => exact State.countLoss_psr (Walked.psr hends)
    | miss t => rfl
    | alternate => rfl
    | vhptFault a => rfl
    | refuse r => rfl
  · rfl

theorem tickOver_psr (s : State) : (tickOver s).sys.psr = s.sys.psr :=
  calc (tickOver s).sys.psr = s.advanceTimer.volatile.evict.selfWalk.monitors.sys.psr := rfl
    _ = s.sys.psr := by simp

/-! What interruptions and the instructions with effects of their own leave in it. -/

theorem interruptSys_psr (s : State) (e : Exc) (iip : Word) (ri ei : BitVec 2) (nested : Bool) :
    (interruptSys s e iip ri ei nested).psr = interruptPsr (bit (s.dcr 0 2) 1) (bit (s.dcr 0 1) 0) s.sys.psr := by
  simp [interruptSys, apply_ite Sys.psr]

theorem PsrClean.of_psr_eq {s t : State} (h : PsrClean s) (hp : t.sys.psr = s.sys.psr) : PsrClean t := by
  unfold PsrClean
  rwa [hp]

theorem PsrClean.rsmSys {s : State} (h : PsrClean s) (imm : Word) : PsrClean (rsmSys imm s) := by
  have hpush : PsrClean (s.pushSys (Sys.onPsr (rsmPsr imm))) := psrReservedSet_and h _
  unfold Machine.rsmSys
  dsimp only
  split
  · exact psrReservedSet_setBit hpush false (by decide)
  · exact hpush

theorem PsrClean.epcPromote {s : State} (h : PsrClean s) : PsrClean (epcPromote s) := by
  unfold Machine.epcPromote
  split
  · split
    · exact psrReservedSet_setCpl h _
    · exact h
  · exact psrReservedSet_setCpl h 0

theorem retState_psr (s : State) :
    (retState s).sys.psr =
      if s.cpl.toNat < (pfsPpl (s.getAr Ar.pfs)).toNat then setCpl s.sys.psr (pfsPpl (s.getAr Ar.pfs)) else s.sys.psr := by
  simp [retState, apply_ite State.sys, apply_ite Sys.psr]

theorem PsrClean.retState {s : State} (h : PsrClean s) : PsrClean (retState s) := by
  unfold PsrClean
  rw [retState_psr]
  split
  · exact psrReservedSet_setCpl h _
  · exact h

theorem PsrClean.ia32Entered {s : State} (h : PsrClean s) (b2 : BitVec 3) : PsrClean (ia32Entered s b2) := by
  have hbranch : PsrClean (branched s s 0) := by
    unfold PsrClean
    rw [branched_sys]
    exact psrReservedSet_and h _
  exact psrReservedSet_setBit hbranch true (by decide)

/-- rfi restores a PSR that its check has found clean. -/
theorem psrClean_returned {s : State} (h : psrReservedSet (s.impliedCr 16) = false) : PsrClean (returned s) := by
  show psrReservedSet (if _ then _ else _) = false
  split
  · exact psrReservedSet_and h _
  · exact h

/-! Every step. -/

/-- The interruptions, the completions and the marks of the floating-point registers keep the reserved bits 0. -/
theorem durable_psrClean : Durable PsrClean where
  congr h _ hs := h.of_psr_eq (congrArg Sys.psr hs)
  cleared h := psrReservedSet_and h _
  marked f h := psrReservedSet_markFpWritten h f
  cached _ _ h := h
  interrupted e iip ri ei nested h := by
    unfold PsrClean
    rw [interruptSys_psr]
    exact psrReservedSet_interruptPsr h _ _
  stored _ _ h := h

/-- Checks that do not fail may be used by what follows them. -/
theorem Durable.guarded_of_pass {P : State → Prop} (hP : Durable P) {s : State} (h : P s) {l : List Check} {k : Out}
    (hk : (∀ p ∈ l, p.1 = false) → EndsIn P k) : EndsIn P (Machine.guarded s l k) := by
  induction l with
  | nil => exact hk (by simp)
  | cons c l ih =>
    obtain ⟨fails, e⟩ := c
    cases fails with
    | true => exact hP.raise h e
    | false => exact ih fun hl => hk (List.forall_mem_cons.mpr ⟨rfl, hl⟩)

theorem finish_psrClean {s t : State} (ht : PsrClean t) : EndsIn PsrClean (finish s t) := durable_psrClean.finish ht s

/-- Effects that keep the reserved bits 0, behind a predicate and checks. -/
theorem checked_psrClean {qp : BitVec 6} {l : List Check} {s t : State} (h : PsrClean s) (ht : PsrClean t) :
    EndsIn PsrClean (predicated qp s (guarded s l (finish s t))) := durable_psrClean.checked h (finish_psrClean ht)

/-- Effects that leave the PSR alone, behind a predicate and checks. -/
theorem checked_psrClean_same {qp : BitVec 6} {l : List Check} {s t : State} (h : PsrClean s)
    (hp : t.sys.psr = s.sys.psr) : EndsIn PsrClean (predicated qp s (guarded s l (finish s t))) :=
  checked_psrClean h (h.of_psr_eq hp)

theorem guarded_psrClean {l : List Check} {s t : State} (h : PsrClean s) (ht : PsrClean t) :
    EndsIn PsrClean (guarded s l (finish s t)) := durable_psrClean.guarded h (finish_psrClean ht) l

/-- A value that a Reserved Register/Field check has passed. -/
theorem chkReserved_passed {l : List Check} {w : Word} (hl : ∀ p ∈ l, p.1 = false)
    (hw : chkReserved (decide (w ≠ 0)) ∈ l) : w = 0 := by
  simpa [chkReserved] using hl _ hw

/-- No instruction sets a reserved bit: where an operand may name one, a check comes first. -/
theorem exec_psrClean {i : Instr} {s : State} (h : PsrClean s) : EndsIn PsrClean (exec i s) := by
  by_cases hi : writesSys i = false
  · exact durable_psrClean.exec h hi
  cases i
  -- The writes of the PSR.
  case sum qp imm => exact checked_psrClean h (by simpa [PsrClean] using psrReservedSet_sumPsr h _ _)
  case rum qp imm => exact checked_psrClean h (by simpa [PsrClean] using psrReservedSet_rumPsr h _ _)
  case movToUm => exact checked_psrClean h (by simpa [PsrClean] using psrReservedSet_movUmPsr h _ _)
  case ssm =>
    refine durable_psrClean.predicated h (durable_psrClean.guarded_of_pass h fun hl => finish_psrClean ?_)
    exact psrReservedSet_or h (psrReservedSet_systemImm (chkReserved_passed hl (by simp [maskChecks])))
  case rsm => exact checked_psrClean h (h.rsmSys _)
  case movToPsrL =>
    refine durable_psrClean.predicated h (durable_psrClean.guarded_of_pass h fun hl => .ite (.refused _) (finish_psrClean ?_))
    exact psrReservedSet_movLowerPsr h (chkReserved_passed hl (by simp))
  case bsw0 => exact guarded_psrClean h (psrReservedSet_setBit h false (by decide))
  case bsw1 => exact guarded_psrClean h (psrReservedSet_setBit h true (by decide))
  case vmsw0 => exact guarded_psrClean h (psrReservedSet_and h _)
  case vmsw1 =>
    refine durable_psrClean.guarded_of_pass h fun hl => .ite (.refused _) (finish_psrClean ?_)
    have hvm : Config.hasPsrVm = true := by
      simpa [vmswChecks, chkIllegal] using hl (chkIllegal (!Config.hasPsrVm)) (by simp [vmswChecks])
    exact psrReservedSet_setBit h true (psrReservedSet_eq_false_iff.mpr ⟨by decide, fun _ => hvm⟩)
  case epc => exact guarded_psrClean h h.epcPromote
  case rfi =>
    refine durable_psrClean.guarded_of_pass h fun hl => .ite (.refused _) (.ite (.refused _) (.ite (.refused _) ?_))
    have ht : PsrClean (returned s) := psrClean_returned (hl _ (.tail _ (.head _)))
    exact .ite (durable_psrClean.deliver ht ..) (.next ht)
  case brRet => exact durable_psrClean.predicated h (durable_psrClean.finishBranch h.retState ..)
  case brIa b2 _ _ _ =>
    exact durable_psrClean.guarded h (.ite (.refused _) (durable_psrClean.withTraps (h.ia32Entered b2) ..)) _
  -- The others leave it alone.
  case movToCr | movToAr | movArImm | movToRr | movToDbr | movToIbr | movToPkr | movToPmc | movToPmd |
      movFromCr | ptcL | ptcG | ptcGa | ptcE | ptrD | ptrI => exact checked_psrClean_same h (by simp)
  case cover => exact guarded_psrClean h (h.of_psr_eq (coverSave_psr s))
  case movI qp form =>
    cases form with
    | toAr => exact checked_psrClean_same h (State.setAr_psr ..)
    | fromAr => exact checked_psrClean_same h (congrArg Sys.psr (State.setVal_sys ..))
    | toArImm => exact checked_psrClean_same h (State.setAr_psr ..)
  case itcD | itcI =>
    exact durable_psrClean.checked h (.withPlatform (finish_psrClean (h.of_psr_eq (State.insertCache_psr ..))))
  case itrD | itrI =>
    exact durable_psrClean.checked h
      (.ite (.refused _) (.withPlatform (finish_psrClean (h.of_psr_eq (State.insertReg_psr ..)))))
  all_goals exact absurd rfl hi

/-- Settles O3: words without reserved bits are closed under what the machine does to the PSR; the instructions that take a new
value from an operand check it first. -/
theorem psrCleanKept : Obligations.PsrCleanKept := by
  unfold Obligations.PsrCleanKept
  intro s t h ht
  have hstep : EndsIn PsrClean (step s) :=
    durable_psrClean.step (fun _ _ => exec_psrClean) (fun u hu => hu.of_psr_eq (tickOver_psr u)) h
  exact hstep.of_next ht

end Machine
end Sys2Proof
end

section
/-!
SUPPORT. The writes of PSR bits: bit by bit, outside their mask, and what stays in flight of them
(40_psr_instructions.md; 70_reset_and_hazards.md R556).
-/
namespace Sys2Proof
namespace Machine

/-! Ordered checks, one at a time. -/

theorem guarded_raises {s : State} {c : Check} {l : List Check} {k : Out} (h : c.1 = true) :
    guarded s (c :: l) k = raise s c.2 := if_pos h

theorem guarded_skips {s : State} {c : Check} {l : List Check} {k : Out} (h : c.1 = false) :
    guarded s (c :: l) k = guarded s l k := if_neg (by simp [h])

theorem chkPriv_of_level0 {s : State} (h : s.cpl = 0) : (chkPriv s).1 = false := by simp [chkPriv, h]

theorem chkPriv_of_level {s : State} (h : s.cpl ≠ 0) : (chkPriv s).1 = true := decide_eq_true h

/-! Bits. -/

theorem bit_and (p q : Word) (n : Nat) : bit (p &&& q) n = (bit p n && bit q n) := BitVec.getLsbD_and

theorem bit_or (p q : Word) (n : Nat) : bit (p ||| q) n = (bit p n || bit q n) := BitVec.getLsbD_or

/-- Cleared bits. -/
theorem bit_and_not (p q : Word) (n : Nat) : bit (p &&& ~~~q) n = (bit p n && !bit q n) := by
  by_cases hn : n < 64
  · simp [bit, hn]
  · simp [bit, BitVec.getLsbD_of_ge _ _ (Nat.not_lt.mp hn)]

theorem bit_mergeMask (m p v : Word) (n : Nat) : bit (mergeMask m p v) n = if bit m n then bit v n else bit p n := by
  rw [mergeMask, bit_or, bit_and_not, bit_and]
  cases bit m n <;> simp

/-- The bits of an immediate as a word. -/
theorem bit_imm24 (imm : BitVec 24) (n : Nat) : bit (imm.setWidth 64) n = imm.getLsbD n := by
  rw [bit, BitVec.getLsbD_setWidth]
  by_cases hn : n < 64
  · simp [hn]
  · simp [BitVec.getLsbD_of_ge imm n (by omega)]

/-- Words with the same bits are the same. -/
theorem eq_of_bit_eq {p q : Word} (h : ∀ n, bit p n = bit q n) : p = q := BitVec.eq_of_getLsbD_eq fun n _ => h n

theorem bit_clearOneShot_congr {p q : Word} {n : Nat} (h : bit p n = bit q n) :
    bit (clearOneShot p) n = bit (clearOneShot q) n := by
  rw [clearOneShot, clearOneShot, bit_and_not, bit_and_not, h]

/-! Outside a mask. -/

/-- What agrees outside a mask agrees outside a larger one. -/
theorem outside_mono {p q m k : Word} (h : p &&& ~~~m = q &&& ~~~m) (hk : m &&& ~~~k = 0) :
    p &&& ~~~k = q &&& ~~~k := by
  refine eq_of_bit_eq fun n => ?_
  have hn := congrArg (bit · n) h
  have hmk := congrArg (bit · n) hk
  simp only [bit_and_not, show bit 0 n = false by simp [bit]] at hn hmk ⊢
  cases hb : bit m n <;> simp_all

theorem or_outside {p q m : Word} (h : q &&& ~~~m = 0) : (p ||| q) &&& ~~~m = p &&& ~~~m := by
  refine eq_of_bit_eq fun n => ?_
  have hn := congrArg (bit · n) h
  simp only [bit_and_not, bit_or, show bit 0 n = false by simp [bit]] at hn ⊢
  rw [Bool.and_or_distrib_right, hn, Bool.or_false]

theorem clear_outside {p q m : Word} (h : q &&& ~~~m = 0) : (p &&& ~~~q) &&& ~~~m = p &&& ~~~m := by
  refine eq_of_bit_eq fun n => ?_
  have hn := congrArg (bit · n) h
  simp only [bit_and_not, show bit 0 n = false by simp [bit]] at hn ⊢
  cases hb : bit m n <;> simp_all

theorem mergeMask_outside {m p v : Word} : mergeMask m p v &&& ~~~m = p &&& ~~~m := by
  refine eq_of_bit_eq fun n => ?_
  rw [bit_and_not, bit_mergeMask, bit_and_not]
  cases bit m n <;> simp

/-- A bit written under a mask that holds it. -/
theorem setBit_outside_mask (p : Word) {n : Nat} (b : Bool) {m : Word} (h : bitMask n &&& ~~~m = 0) :
    setBit p n b &&& ~~~m = p &&& ~~~m := outside_mono (setBit_outside p n b) h

theorem imm24_outside (imm : BitVec 24) : imm.setWidth 64 &&& ~~~0xFFFFFF#64 = 0 := by
  rw [← imm24_and_mask, BitVec.and_assoc]
  exact BitVec.and_zero

/-! The views after completion. -/

/-- Completing an instruction keeps the newest view that its own group has put in flight. -/
theorem mem_advanced_dataOld {s t : State} {y : Sys} {l : List Sys} {n : Nat} (hl : t.dataOld = y :: l)
    (hn : t.dataWrites = n + 1) : y.onPsr clearOneShot ∈ (advanced s t).dataOld := by
  rw [advanced_dataOld, hl, hn]
  split
  · split <;> simp
  · simp

theorem mem_advanced_fetchOld {s t : State} {y : Sys} {l : List Sys} {n : Nat} (hl : t.fetchOld = y :: l)
    (hn : t.fetchWrites = n + 1) : y.onPsr clearOneShot ∈ (advanced s t).fetchOld := by
  rw [advanced_fetchOld, hl, hn]
  split
  · split <;> simp
  · simp

/-- Every view after completion was there before it. -/
theorem exists_of_mem_advanced_dataOld {s t : State} {y : Sys} (h : y ∈ (advanced s t).dataOld) :
    ∃ z ∈ t.dataOld, z.onPsr clearOneShot = y := by
  have hmap : y ∈ t.dataOld.map (Sys.onPsr clearOneShot) := by
    rw [advanced_dataOld] at h
    split at h
    · split at h
      · exact List.mem_of_mem_take h
      · exact h
    · exact h
  exact List.mem_map.mp hmap

/-- A view is one of those that may be seen. -/
theorem pick_mem {α : Type} (cur : α) (olds : List α) (n : Nat) : pick cur olds n ∈ cur :: olds := by
  cases olds with
  | nil => simp [pick]
  | cons o t =>
    have hn : n % (t.length + 2) < (cur :: o :: t).length := by
      simpa using Nat.mod_lt n (Nat.succ_pos (t.length + 1))
    rw [pick, List.getD_eq_getElem _ _ hn]
    exact List.getElem_mem hn

/-- A PSR bit that is 0 in every view is 0 for every consumer. -/
theorem dpsr_eq_false {s : State} {b : Nat} (hnow : bit s.sys.psr b = false) (hold : ∀ y ∈ s.dataOld, bit y.psr b = false)
    (u : Nat) : s.dpsr b u = false := by
  rw [State.dpsr, State.dview]
  rcases List.mem_cons.mp (pick_mem s.sys s.dataOld (Config.freeNat (.psrBit u b) s.tick)) with h | h
  · rw [h, hnow]
  · exact hold _ h

/-- The frame of a PSR write that stays in flight, once it has completed. -/
theorem pushPsr_completes {s : State} {g : Word → Word} {m : Word} (hq : Quiet s)
    (hg : ∀ p, g p &&& ~~~m = p &&& ~~~m) (hit : bit m Psr.it = false) (hvm : bit m Psr.vm = false) :
    ∃ t, finish s (s.pushSys (Sys.onPsr g)) = .next t ∧ t.sys.psr = clearOneShot (g s.sys.psr) ∧
      s.sys.onPsr clearOneShot ∈ t.dataOld ∧ s.sys.onPsr clearOneShot ∈ t.fetchOld ∧
      Frame { psr := m, data := true, fetch := true } s t := by
  have ht : Touch { psr := m, data := true, fetch := true } s (s.pushSys (Sys.onPsr g)) := .pushed s _ (.onPsr _ g (hg _))
  exact ⟨_, finish_quiet hq (ht.bit hit) (ht.bit hvm), by simp, mem_advanced_dataOld rfl rfl, mem_advanced_fetchOld rfl rfl,
    ht.frame⟩

end Machine
end Sys2Proof
end

section
/-!
The user mask instructions (UserMaskWrites).
-/
namespace Sys2Proof
namespace Machine

/-- A user mask write as the fetch sees it in the views in flight: PSR.up stays. -/
def keptUp (g : Word → Word) (p : Word) : Word := setBit (g p) Psr.up (bit p Psr.up)

theorem bit_keptUp (g : Word → Word) (p : Word) : bit (keptUp g p) Psr.up = bit p Psr.up := by
  rw [keptUp, bit_setBit (by decide), if_pos rfl]

theorem writeUm_of_same {s : State} {g : Word → Word} (h : bit (g s.sys.psr) Psr.up = bit s.sys.psr Psr.up) :
    (s.writeUm g).fetchOld = s.fetchOld.map (Sys.onPsr (keptUp g)) ∧ (s.writeUm g).fetchWrites = s.fetchWrites := by
  unfold State.writeUm
  dsimp only
  rw [if_pos h]
  exact ⟨rfl, rfl⟩

theorem writeUm_of_changed {s : State} {g : Word → Word} (h : bit (g s.sys.psr) Psr.up ≠ bit s.sys.psr Psr.up) :
    (s.writeUm g).fetchOld = s.sys.onPsr (keptUp g) :: s.fetchOld.map (Sys.onPsr (keptUp g)) ∧
      (s.writeUm g).fetchWrites = s.fetchWrites + 1 := by
  unfold State.writeUm
  dsimp only
  rw [if_neg h]
  exact ⟨rfl, rfl⟩

/-- What a user mask write may change; `push` says whether PSR.up changes. -/
def umFootprint (push : Bool) : Footprint := { psr := 0x3E, fetch := push, oldPsr := 0x3E }

theorem umFootprint_views_psr (push : Bool) : (umFootprint push).views.psr = 0x3E := by cases push <;> rfl

section
variable {s : State} {g : Word → Word}

/-- In every view a write of the user mask changes bits of the mask only. -/
theorem sysTouch_userMask (hg : ∀ p, g p &&& ~~~0x3E#64 = p &&& ~~~0x3E#64) {push : Bool} (y : Sys) :
    SysTouch (umFootprint push).views y (y.onPsr g) :=
  .onPsr y g (by rw [umFootprint_views_psr]; exact hg _)

theorem keptUp_outside (hg : ∀ p, g p &&& ~~~0x3E#64 = p &&& ~~~0x3E#64) (p : Word) :
    keptUp g p &&& ~~~0x3E#64 = p &&& ~~~0x3E#64 := (setBit_outside_mask _ _ (by decide)).trans (hg p)

theorem writeUm_touch (hg : ∀ p, g p &&& ~~~0x3E#64 = p &&& ~~~0x3E#64) :
    Touch (umFootprint (bit (g s.sys.psr) Psr.up != bit s.sys.psr Psr.up)) s (s.writeUm g) := by
  constructor
  case sys =>
    rw [State.writeUm_sys]
    exact .onPsr _ g (hg _)
  case dataOld =>
    intro _
    rw [State.writeUm_dataOld]
    exact SysTouch.map (SysTouch.refl_list _ _) (sysTouch_userMask hg)
  case fetchOld =>
    intro _
    by_cases h : bit (g s.sys.psr) Psr.up = bit s.sys.psr Psr.up
    · rw [(writeUm_of_same h).1, show (umFootprint _).fetch = false by simp [umFootprint, h]]
      exact SysTouch.map (SysTouch.refl_list _ _) (sysTouch_userMask (keptUp_outside hg))
    · rw [(writeUm_of_changed h).1, show (umFootprint _).fetch = true by simpa [umFootprint] using h]
      exact .cons (sysTouch_userMask (keptUp_outside hg) _)
        (SysTouch.map (SysTouch.refl_list _ _) (sysTouch_userMask (keptUp_outside hg)))
  case fetchWrites =>
    by_cases h : bit (g s.sys.psr) Psr.up = bit s.sys.psr Psr.up
    · simp [(writeUm_of_same h).2, umFootprint, h]
    · rw [(writeUm_of_changed h).2, show (umFootprint _).fetch = true by simpa [umFootprint] using h]
      rfl
  all_goals simp [umFootprint]

/-- A user mask write completes: the new mask in the PSR, and the old PSR.up in flight for the fetch where it changes. -/
theorem writeUm_completes (hq : Quiet s) (hg : ∀ p, g p &&& ~~~0x3E#64 = p &&& ~~~0x3E#64) :
    ∃ t, finish s (s.writeUm g) = .next t ∧
      Frame { psr := 0x3E, fetch := bit t.sys.psr 2 != bit s.sys.psr 2, oldPsr := 0x3E } s t ∧
      (bit t.sys.psr 2 ≠ bit s.sys.psr 2 → ∃ y ∈ t.fetchOld, bit y.psr 2 = bit s.sys.psr 2) ∧
      ∀ n < 6, bit t.sys.psr n = bit (g s.sys.psr) n := by
  have htouch := writeUm_touch (s := s) hg
  have hbits : ∀ n < 6, bit (advanced s (s.writeUm g)).sys.psr n = bit (g s.sys.psr) n := by
    intro n hn
    rw [advanced_sys, State.writeUm_sys]
    exact bit_clearOneShot (by revert n; decide)
  refine ⟨_, finish_quiet hq (htouch.bit (show bit 0x3E Psr.it = false by decide))
    (htouch.bit (show bit 0x3E Psr.vm = false by decide)), ?_, fun hup => ?_, hbits⟩
  · rw [hbits 2 (by decide)]
    exact htouch.frame
  · rw [hbits 2 (by decide)] at hup
    obtain ⟨hold, hwrites⟩ := writeUm_of_changed hup
    exact ⟨_, mem_advanced_fetchOld hold hwrites, (bit_clearOneShot (by decide)).trans (bit_keptUp g _)⟩

end

/-! The three writes. -/

/-- Writable bits are user mask bits. -/
theorem and_userWritable_outside (v : Word) (sp : Bool) : (v &&& userWritable sp) &&& ~~~0x3E#64 = 0 := by
  rw [BitVec.and_assoc, show userWritable sp &&& ~~~0x3E#64 = 0 by cases sp <;> decide]
  exact BitVec.and_zero

theorem movUmPsr_outside (sp : Bool) (v p : Word) : movUmPsr sp v p &&& ~~~0x3E#64 = p &&& ~~~0x3E#64 :=
  outside_mono mergeMask_outside (by cases sp <;> decide)

/-- Of the bits 5:1 a user mask instruction writes all, but PSR.up only while PSR.sp is 0. -/
theorem bit_userWritable (sp : Bool) {n : Nat} (h1 : 1 ≤ n) (h6 : n < 6) : bit (userWritable sp) n = (n != 2 || !sp) := by
  revert n sp
  decide

/-- The bits that a legal immediate names, as far as they may be written. -/
theorem bit_legalImm {imm : BitVec 24} (h : imm.setWidth 64 &&& ~~~0x3E#64 = 0) (sp : Bool) {n : Nat} (hn : n < 6) :
    bit (imm.setWidth 64 &&& userWritable sp) n = (imm.getLsbD n && (n != 2 || !sp)) := by
  rw [bit_and, bit_imm24]
  cases n with
  | zero =>
    have h0 := congrArg (bit · 0) h
    rw [bit_and_not, bit_imm24] at h0
    simp_all [bit]
  | succ k => rw [bit_userWritable sp (by omega) hn]

/-- Settles O19: the three instructions are one write of the user mask after their checks, with a new mask of their own. -/
theorem userMaskWrites : Obligations.UserMaskWrites := by
  unfold Obligations.UserMaskWrites
  intro qp imm r2 s hp
  refine ⟨fun himm => ?_, fun hn => ?_, fun hn hv => ?_, fun himm hq => ?_, fun hn hv hq => ?_⟩
  · have hbad : (chkReserved (decide (imm.setWidth 64 &&& ~~~userMask ≠ 0))).1 = true := decide_eq_true himm
    exact ⟨(predicated_true hp).trans (guarded_raises hbad), (predicated_true hp).trans (guarded_raises hbad)⟩
  · exact (predicated_true hp).trans (guarded_raises hn)
  · exact (predicated_true hp).trans ((guarded_skips hn).trans (guarded_raises (decide_eq_true hv)))
  · have hok : (chkReserved (decide (imm.setWidth 64 &&& ~~~userMask ≠ 0))).1 = false := decide_eq_false (not_not.mpr himm)
    constructor
    · obtain ⟨t, ht, hframe, hup, hbits⟩ := writeUm_completes (g := sumPsr (s.dpsr Psr.sp) (imm.setWidth 64)) hq
        fun p => or_outside (and_userWritable_outside _ _)
      refine ⟨t, (predicated_true hp).trans ((guarded_skips hok).trans ht), hframe, hup, fun n hn => ?_⟩
      rw [hbits n hn, sumPsr, bit_or, bit_legalImm himm _ hn]
    · obtain ⟨t, ht, hframe, hup, hbits⟩ := writeUm_completes (g := rumPsr (s.dpsr Psr.sp) (imm.setWidth 64)) hq
        fun p => clear_outside (and_userWritable_outside _ _)
      refine ⟨t, (predicated_true hp).trans ((guarded_skips hok).trans ht), hframe, hup, fun n hn => ?_⟩
      rw [hbits n hn, rumPsr, bit_and_not, bit_legalImm himm _ hn]
  · obtain ⟨t, ht, hframe, hup, hbits⟩ := writeUm_completes (g := movUmPsr (s.dpsr Psr.sp) (s.val r2)) hq
      fun p => movUmPsr_outside _ _ p
    have hok : (chkReserved (decide (s.val r2 &&& ~~~userMask ≠ 0))).1 = false := decide_eq_false (not_not.mpr hv)
    refine ⟨t, (predicated_true hp).trans ((guarded_skips hn).trans ((guarded_skips hok).trans ht)), hframe, hup,
      fun n h1 h6 => ?_⟩
    rw [hbits n h6, movUmPsr, bit_mergeMask, bit_userWritable _ h1 h6]
    by_cases h2 : n = 2 <;> cases s.dpsr Psr.sp <;> simp [h2]

end Machine
end Sys2Proof
end

section
/-!
The system mask instructions (SystemMaskWrites).
-/
namespace Sys2Proof
namespace Machine

/-- What an rsm of an immediate hides from the views in flight: a PSR.i that it clears. -/
def hideI (imm p : Word) : Word := if bit imm Psr.i then setBit p Psr.i false else p

theorem bit_hideI_ne (imm p : Word) {n : Nat} (h : n ≠ Psr.i) : bit (hideI imm p) n = bit p n := by
  unfold hideI
  split
  · exact bit_setBit_ne p false h
  · rfl

theorem bit_hideI_i {imm : Word} (h : bit imm Psr.i = true) (p : Word) : bit (hideI imm p) Psr.i = false := by
  rw [hideI, if_pos h, bit_setBit (by decide), if_pos rfl]

theorem hideI_outside (imm p : Word) {m : Word} (h : bit imm Psr.i = true → bitMask Psr.i &&& ~~~m = 0) :
    hideI imm p &&& ~~~m = p &&& ~~~m := by
  unfold hideI
  split
  next hi => exact setBit_outside_mask p false (h hi)
  next => rfl

/-- What rsm has cleared stays. -/
theorem hideI_rsmPsr (imm p : Word) : hideI imm (rsmPsr imm p) = rsmPsr imm p := by
  refine eq_of_bit_eq fun n => ?_
  by_cases hn : n = Psr.i
  · subst hn
    cases hi : bit imm Psr.i with
    | true => rw [bit_hideI_i hi, rsmPsr, bit_and_not, hi, Bool.not_true, Bool.and_false]
    | false => rw [hideI, if_neg (by simp [hi])]
  · exact bit_hideI_ne imm _ hn

/-- An update that leaves the resources and every view as they are. -/
theorem State.mapSys_eq_self {s : State} {f : Sys → Sys} (hsys : f s.sys = s.sys) (hdata : ∀ y ∈ s.dataOld, f y = y)
    (hfetch : ∀ y ∈ s.fetchOld, f y = y) : s.mapSys f = s := by
  have hd : s.dataOld.map f = s.dataOld := (List.map_congr_left hdata).trans (List.map_id' _)
  have hf : s.fetchOld.map f = s.fetchOld := (List.map_congr_left hfetch).trans (List.map_id' _)
  rw [State.mapSys, hsys, hd, hf]

/-- rsm is a write in flight, of which a cleared PSR.i is then seen by everyone. -/
theorem rsmSys_eq (imm : Word) (s : State) :
    rsmSys imm s = (s.pushSys (Sys.onPsr (rsmPsr imm))).mapSys (Sys.onPsr (hideI imm)) := by
  unfold rsmSys
  dsimp only
  cases hi : bit imm Psr.i with
  | true =>
    have hhide : hideI imm = fun p => setBit p Psr.i false := funext fun p => if_pos hi
    rw [hhide]
    rfl
  | false =>
    have hkeep (y : Sys) : y.onPsr (hideI imm) = y := by
      rw [Sys.onPsr, hideI, if_neg (by simp [hi])]
    rw [State.mapSys_eq_self (hkeep _) (fun y _ => hkeep y) fun y _ => hkeep y]
    rfl

/-- The PSR bits of the older views that an rsm changes. -/
def hiddenBits (imm : BitVec 24) : Word := if imm.getLsbD Psr.i then 1#64 <<< Psr.i else 0

theorem hideI_outside_hiddenBits (imm : BitVec 24) (p : Word) :
    hideI (imm.setWidth 64) p &&& ~~~hiddenBits imm = p &&& ~~~hiddenBits imm := by
  refine hideI_outside _ p fun hi => ?_
  rw [bit_imm24] at hi
  rw [hiddenBits, if_pos hi]
  decide

theorem rsmSys_touch (imm : BitVec 24) (s : State) :
    Touch { psr := 0xFFFFFF, data := true, fetch := true, oldPsr := hiddenBits imm } s (rsmSys (imm.setWidth 64) s) := by
  rw [rsmSys_eq]
  refine (Touch.pushed s _ (.onPsr _ _ (clear_outside (imm24_outside imm)))).mapped (fun y => .onPsr y _ ?_)
    fun y => .onPsr y _ (hideI_outside_hiddenBits imm _)
  exact hideI_outside (m := 0xFFFFFF) _ _ fun _ => by decide

/-- No consumer sees a PSR.i that rsm has cleared. -/
theorem interruptPending_of_rsm {s : State} {imm : Word} (h : bit imm Psr.i = true) :
    (advanced s (rsmSys imm s)).interruptPending = false := by
  have hhidden (p : Word) : bit (clearOneShot (hideI imm p)) Psr.i = false :=
    (bit_clearOneShot (by decide)).trans (bit_hideI_i h p)
  have hdpsr : (advanced s (rsmSys imm s)).dpsr Psr.i 3 = false := by
    refine dpsr_eq_false ?_ (fun y hy => ?_) 3
    · rw [advanced_sys, rsmSys_eq]
      exact hhidden _
    · obtain ⟨z, hz, rfl⟩ := exists_of_mem_advanced_dataOld hy
      rw [rsmSys_eq, State.mapSys_dataOld] at hz
      obtain ⟨x, -, rfl⟩ := List.mem_map.mp hz
      exact hhidden x.psr
  rw [State.interruptPending, hdpsr, Bool.false_and]

theorem rsm_completes {s : State} {imm : BitVec 24} (hq : Quiet s) :
    ∃ t, finish s (rsmSys (imm.setWidth 64) s) = .next t ∧ t.sys.psr = clearOneShot (s.sys.psr &&& ~~~imm.setWidth 64) ∧
      (∃ y, (∀ n, n ≠ Psr.i → bit y.psr n = bit (clearOneShot s.sys.psr) n) ∧ y ∈ t.dataOld ∧ y ∈ t.fetchOld) ∧
      (imm.getLsbD Psr.i = true → t.interruptPending = false) ∧
      Frame { psr := 0xFFFFFF, data := true, fetch := true, oldPsr := hiddenBits imm } s t := by
  have htouch := rsmSys_touch imm s
  have hpsr : (rsmSys (imm.setWidth 64) s).sys.psr = rsmPsr (imm.setWidth 64) s.sys.psr := by
    rw [rsmSys_eq]
    exact hideI_rsmPsr _ _
  refine ⟨_, finish_quiet hq (htouch.bit (show bit 0xFFFFFF Psr.it = false by decide))
    (htouch.bit (show bit 0xFFFFFF Psr.vm = false by decide)), ?_, ?_, fun hi => ?_, htouch.frame⟩
  · rw [advanced_sys, Sys.onPsr_psr, hpsr]
    rfl
  · rw [rsmSys_eq]
    exact ⟨(s.sys.onPsr (hideI (imm.setWidth 64))).onPsr clearOneShot, fun n hn => bit_clearOneShot_congr (bit_hideI_ne _ _ hn),
      mem_advanced_dataOld rfl rfl, mem_advanced_fetchOld rfl rfl⟩
  · exact interruptPending_of_rsm ((bit_imm24 imm _).trans hi)

/-- The checks of a system mask instruction at level 0 with a legal immediate and PSR.vm = 0. -/
theorem maskChecks_pass {s : State} {imm : Word} (hcpl : s.cpl = 0) (himm : imm &&& systemReserved = 0) (hvm : s.vm = false)
    (k : Out) : guarded s (maskChecks s imm) k = k :=
  guarded_pass (by simp [maskChecks, chkPriv, chkReserved, chkVirt, hcpl, himm, hvm])

theorem maskChecks_reserved {s : State} {imm : Word} (hcpl : s.cpl = 0) (himm : imm &&& systemReserved ≠ 0) (k : Out) :
    guarded s (maskChecks s imm) k = raise s excReservedField :=
  (guarded_skips (chkPriv_of_level0 hcpl)).trans (guarded_raises (decide_eq_true himm))

/-- Settles O20: ssm is a write in flight, rsm one that hides a cleared PSR.i from the views before it. -/
theorem systemMaskWrites : Obligations.SystemMaskWrites := by
  unfold Obligations.SystemMaskWrites
  intro qp imm s hp hcpl
  refine ⟨fun himm => ⟨?_, ?_⟩, fun himm hvm hq => ⟨?_, ?_⟩⟩
  · exact (predicated_true hp).trans (maskChecks_reserved hcpl himm _)
  · exact (predicated_true hp).trans (maskChecks_reserved hcpl himm _)
  · obtain ⟨t, ht, hrest⟩ := pushPsr_completes (g := ssmPsr (imm.setWidth 64)) (m := 0xFFFFFF) hq
      (fun _ => or_outside (imm24_outside imm)) (by decide) (by decide)
    exact ⟨t, (predicated_true hp).trans ((maskChecks_pass hcpl himm hvm _).trans ht), hrest⟩
  · obtain ⟨t, ht, hrest⟩ := rsm_completes (imm := imm) hq
    exact ⟨t, (predicated_true hp).trans ((maskChecks_pass hcpl himm hvm _).trans ht), hrest⟩

end Machine
end Sys2Proof
end

section
/-!
The moves of the PSR (PsrMoves).
-/
namespace Sys2Proof
namespace Machine

/-- A value moved to a general register completes the instruction. -/
theorem setVal_completes {s : State} {r1 : BitVec 7} (v : Word) (hq : Quiet s) (h1 : r1 ≠ 0) :
    ∃ t, finish s (s.setVal r1 v) = .next t ∧ t.getGr r1 = { val := v, nat := false } ∧ Frame { gr := [r1] } s t := by
  have ht : Touch { gr := [r1] } s (s.setVal r1 v) := (Touch.refl _ s).setVal v (by simp) (show bit 0 Psr.bn = false by decide)
  refine ⟨_, finish_quiet hq (ht.bit (show bit 0 Psr.it = false by decide)) (ht.bit (show bit 0 Psr.vm = false by decide)), ?_,
    ht.frame⟩
  rw [advanced_getGr]
  exact getGr_setGr_self h1

/-- The low half of a PSR that mov psr.l has written is its operand. -/
theorem extractLsb'_movLowerPsr (v p : Word) :
    (clearOneShot (movLowerPsr v p)).extractLsb' 0 32 = v.extractLsb' 0 32 := by
  refine BitVec.eq_of_getLsbD_eq fun n hn => ?_
  have hlow : bit lowerMask n = true := by revert n; decide
  have hshot : bit oneShotMask n = false := by revert n; decide
  have hbit : bit (clearOneShot (movLowerPsr v p)) n = bit v n := by
    rw [bit_clearOneShot hshot, movLowerPsr, bit_mergeMask, if_pos hlow]
  simpa [bit, hn] using hbit

section
variable {s : State} {r2 : BitVec 7} (hcpl : s.cpl = 0)
include hcpl

/-- The checks of mov psr.l before its Virtualization fault. -/
theorem movToPsrL_nat (hn : s.nat r2 = true) (l : List Check) (k : Out) :
    guarded s (chkPriv s :: chkNat s r2 :: l) k = raise s (excRegNat false false false) :=
  (guarded_skips (chkPriv_of_level0 hcpl)).trans (guarded_raises hn)

theorem movToPsrL_reserved (hn : s.nat r2 = false) {c : Prop} [Decidable c] (hc : c) (l : List Check) (k : Out) :
    guarded s (chkPriv s :: chkNat s r2 :: chkReserved (decide c) :: l) k = raise s excReservedField :=
  (guarded_skips (chkPriv_of_level0 hcpl)).trans ((guarded_skips hn).trans (guarded_raises (decide_eq_true hc)))

theorem movToPsrL_pass (hn : s.nat r2 = false) (hv : s.val r2 &&& lowerReserved = 0) (hvm : s.vm = false) (k : Out) :
    guarded s [chkPriv s, chkNat s r2, chkReserved (decide (s.val r2 &&& lowerReserved ≠ 0)), chkVirt s] k = k :=
  guarded_pass (by simp [chkPriv, chkNat, chkReserved, chkVirt, hcpl, hn, hv, hvm])

end

/-- Settles O21: the reads are values moved to a general register, the write is one in flight. -/
theorem psrMoves : Obligations.PsrMoves := by
  unfold Obligations.PsrMoves
  intro qp r1 r2 s hp
  have hrun (k : Out) : predicated qp s k = k := predicated_true hp
  refine ⟨?write, ?nat, ?reserved, ?rt, ?gr0, ?level, ?virtual, ?read, ?readUm⟩
  case write =>
    intro hq hcpl hn hv hvm hrt
    obtain ⟨t, ht, hpsr, hdata, -, hframe⟩ := pushPsr_completes (g := movLowerPsr (s.val r2)) (m := lowerMask) hq
      (fun _ => mergeMask_outside) (by decide) (by decide)
    refine ⟨t, (hrun _).trans ((movToPsrL_pass hcpl hn hv hvm _).trans ?_), ?_, hdata, hframe⟩
    · rw [movPsrL, hrt, if_neg Bool.false_ne_true, ht]
    · rw [hpsr, extractLsb'_movLowerPsr]
  case nat => exact fun hcpl hn => (hrun _).trans (movToPsrL_nat hcpl hn _ _)
  case reserved => exact fun hcpl hn hv => (hrun _).trans (movToPsrL_reserved hcpl hn hv _ _)
  case rt =>
    intro hcpl hn hv hvm hrt
    exact (hrun _).trans ((movToPsrL_pass hcpl hn hv hvm _).trans (if_pos hrt))
  case gr0 =>
    intro h1
    have htarget : (chkTarget r1).1 = true := decide_eq_true h1
    exact ⟨(hrun _).trans (guarded_raises htarget), (hrun _).trans (guarded_raises htarget)⟩
  case level =>
    intro h1 hcpl
    exact (hrun _).trans ((guarded_skips (decide_eq_false h1)).trans (guarded_raises (chkPriv_of_level hcpl)))
  case virtual =>
    intro h1 hcpl hvm
    exact (hrun _).trans ((guarded_skips (decide_eq_false h1)).trans
      ((guarded_skips (chkPriv_of_level0 hcpl)).trans (guarded_raises hvm)))
  case read =>
    intro hq hcpl h1 hvm
    obtain ⟨t, ht, hrest⟩ := setVal_completes (s.sys.psr &&& readableMask) hq h1
    refine ⟨t, (hrun _).trans ((guarded_pass ?_).trans ht), hrest⟩
    simpa [chkTarget, chkPriv, chkVirt, hcpl, hvm] using h1
  case readUm =>
    intro hq h1
    obtain ⟨t, ht, hrest⟩ := setVal_completes (s.sys.psr &&& userMask) hq h1
    exact ⟨t, (hrun _).trans ((guarded_chkTarget h1).trans ht), hrest⟩

end Machine
end Sys2Proof
end

section
/-!
The register banks (BankSwitches), vmsw (VirtualMachineSwitch), br.ia (Ia32Entry).
-/
namespace Sys2Proof
namespace Machine

/-- GR16 to GR31 of the bank that PSR.bn selects. -/
theorem getGr_banked {s : State} {r : BitVec 7} (h16 : 16 ≤ r.toNat) (h32 : r.toNat < 32) :
    s.getGr r = rd s.gr (if s.psrNow Psr.bn then r.toNat else r.toNat + 112) { val := 0, nat := false } := by
  have h0 : r ≠ 0 := by
    rintro rfl
    exact absurd h16 (by decide)
  rw [State.getGr, if_neg h0, grIndex]
  cases s.psrNow Psr.bn <;> simp [banked, h16, h32]

/-- A bit that has the value already. -/
theorem setBit_of_eq {p : Word} {n : Nat} {b : Bool} (h : bit p n = b) : setBit p n b = p := by
  refine eq_of_bit_eq fun k => ?_
  by_cases hk : k < 64
  · rw [bit_setBit hk]
    split
    next hkn => rw [hkn, h]
    next => rfl
  · simp [bit, BitVec.getLsbD_of_ge _ _ (Nat.not_lt.mp hk)]

theorem bit_advanced_setBit {s : State} {n : Nat} {b : Bool} (hn : n < 64) (hshot : bit oneShotMask n = false) :
    bit (advanced s (s.mapSys (Sys.onPsr fun p => setBit p n b))).sys.psr n = b := by
  rw [advanced_sys, Sys.onPsr_psr, bit_clearOneShot hshot, State.mapSys_sys, Sys.onPsr_psr, bit_setBit hn, if_pos rfl]

/-- A write of one PSR bit that everyone sees at once, completed. -/
theorem frame_setBit (s : State) (n : Nat) (b : Bool) :
    Frame { psr := bitMask n } s (advanced s (s.mapSys (Sys.onPsr fun p => setBit p n b))) :=
  ((Touch.refl _ s).onPsr _ fun p => setBit_outside p n b).frame

/-- The bank that is selected already. -/
theorem frame_setBit_same {s : State} {n : Nat} {b : Bool} (h : s.psrNow n = b) (hs : Settled s) :
    Frame {} s (advanced s (s.mapSys (Sys.onPsr fun p => setBit p n b))) := by
  obtain ⟨hdata, hfetch⟩ := hs
  have hnow : s.sys.onPsr (fun p => setBit p n b) = s.sys := by
    rw [Sys.onPsr, setBit_of_eq h]
  rw [State.mapSys_eq_self hnow (by simp [hdata]) (by simp [hfetch])]
  exact (Touch.refl _ s).frame

/-- A bank switch completes. -/
theorem bsw_completes {s : State} (b : Bool) (hq : Quiet s) :
    ∃ t, finish s (s.mapSys (Sys.onPsr fun p => setBit p Psr.bn b)) = .next t ∧ t.gr = s.gr ∧ bit t.sys.psr Psr.bn = b ∧
      (∀ r : BitVec 7, 16 ≤ r.toNat → r.toNat < 32 →
        t.getGr r = rd s.gr (if b then r.toNat else r.toNat + 112) { val := 0, nat := false }) ∧
      Frame { psr := 1#64 <<< 44 } s t ∧ (s.psrNow Psr.bn = b → Settled s → Frame {} s t) := by
  have hbn : bit (advanced s (s.mapSys (Sys.onPsr fun p => setBit p Psr.bn b))).sys.psr Psr.bn = b :=
    bit_advanced_setBit (by decide) (by decide)
  refine ⟨_, finish_quiet hq (bit_setBit_ne _ _ (by decide)) (bit_setBit_ne _ _ (by decide)), by simp, hbn,
    fun r h16 h32 => ?_, frame_setBit s Psr.bn b, frame_setBit_same⟩
  rw [getGr_banked h16 h32, State.psrNow, hbn, advanced_gr, State.mapSys_gr]

/-- Settles O22: both instructions are one write of PSR.bn behind the same checks. -/
theorem bankSwitches : Obligations.BankSwitches := by
  unfold Obligations.BankSwitches
  intro s
  refine ⟨fun hcpl => ?_, fun hcpl hvm => ?_, fun hstop qp k => ?_, fun hcpl hvm hq => ⟨?_, ?_⟩⟩
  · have hpriv (k : Out) : guarded s [chkPriv s, chkVirt s] k = raise s excPrivilegedOperation :=
      guarded_raises (chkPriv_of_level hcpl)
    exact ⟨hpriv _, hpriv _⟩
  · have hvirt (k : Out) : guarded s [chkPriv s, chkVirt s] k = raise s excVirtualization :=
      (guarded_skips (chkPriv_of_level0 hcpl)).trans (guarded_raises hvm)
    exact ⟨hvirt _, hvirt _⟩
  · have hlast {i : Instr} (hi : i.mustEndGroup = true) : withGroup i qp s k = .refused .lastInGroup :=
      if_pos (by simp [hi, hstop])
    exact ⟨hlast rfl, hlast rfl⟩
  all_goals
    have hpass (k : Out) : guarded s [chkPriv s, chkVirt s] k = k :=
      guarded_pass (by simp [chkPriv, chkVirt, hcpl, hvm])
  · obtain ⟨t, ht, hrest⟩ := bsw_completes false hq
    exact ⟨t, (hpass _).trans ht, hrest⟩
  · obtain ⟨t, ht, hrest⟩ := bsw_completes true hq
    exact ⟨t, (hpass _).trans ht, hrest⟩

/-- An instruction completes where the next address, as its effects leave it, is implemented and not past the top. -/
theorem finish_implemented {s t : State} (hss : s.psrNow Psr.ss = false)
    (hnext : lastSlot s = true → unimplInstr (advanced s t) (s.ip + 16) = false ∧ pastTop (advanced s t) (s.ip + 16) = false) :
    finish s t = .next (advanced s t) := by
  have hend : (lastSlot s && pastTop (advanced s t) (advanced s t).ip) = false ∧ seqUia s (advanced s t) = false := by
    rw [seqUia, advanced_ip]
    cases hl : lastSlot s with
    | false => exact ⟨rfl, rfl⟩
    | true =>
      obtain ⟨himpl, htop⟩ := hnext hl
      simp only [if_true, himpl, htop, Bool.and_false, Bool.false_and, Bool.or_self, and_self]
  rw [finish_eq, hend.1, hend.2, if_neg (by simp), withTraps_sequential, if_pos ⟨hss, rfl⟩]

/-- vmsw where it passes its checks: the next address is implemented with either value of PSR.vm. -/
theorem vmsw_completes {s : State} (b : Bool) (hss : s.psrNow Psr.ss = false) (hit : s.psrNow Psr.it = true)
    (hnext : lastSlot s = true → s.ip + 16 ≠ 0 ∧ ∀ vm, unimplVa vm (s.ip + 16) = false) :
    ∃ t, finish s (s.mapSys (Sys.onPsr fun p => setBit p Psr.vm b)) = .next t ∧ bit t.sys.psr Psr.vm = b ∧
      Frame { psr := 1#64 <<< 46 } s t := by
  have hit' : (advanced s (s.mapSys (Sys.onPsr fun p => setBit p Psr.vm b))).psrNow Psr.it = true := by
    rw [advanced_psrNow_it]
    exact (bit_setBit_ne _ _ (by decide)).trans hit
  refine ⟨_, finish_implemented hss fun hl => ?_, bit_advanced_setBit (by decide) (by decide), frame_setBit s Psr.vm b⟩
  obtain ⟨htop, himpl⟩ := hnext hl
  rw [unimplInstr, pastTop, hit', if_pos rfl, if_pos rfl]
  exact ⟨himpl _, decide_eq_false htop⟩

/-- Settles O23: the checks of vmsw in their order, then one write of PSR.vm. -/
theorem virtualMachineSwitch : Obligations.VirtualMachineSwitch := by
  unfold Obligations.VirtualMachineSwitch
  intro s hcpl hss hip hnext
  split
  next hno =>
    have hraise (k : Out) : guarded s (vmswChecks s) k = raise s excIllegalOperation :=
      guarded_raises (by simp [chkIllegal, hno])
    exact ⟨hraise _, hraise _⟩
  next hhas =>
    have hpast (k : Out) : guarded s (vmswChecks s) k = guarded s [(!Config.vmswEnabled, excVirtualization),
        (!s.psrNow Psr.it || decide (s.ctx.ar ≠ 7), excVirtualization)] k :=
      (guarded_skips (by simpa [chkIllegal] using hhas)).trans (guarded_skips (chkPriv_of_level0 hcpl))
    split
    next hbad =>
      have hraise (k : Out) : guarded s (vmswChecks s) k = raise s excVirtualization := by
        rw [hpast, guarded_cons, guarded_cons]
        split
        · rfl
        next hen =>
          refine if_pos ?_
          rcases hbad with h | h | h
          · exact absurd (by rw [h]; rfl) hen
          · rw [h]; rfl
          · rw [decide_eq_true h, Bool.or_true]
      exact ⟨hraise _, hraise _⟩
    next hok =>
      simp only [not_or, Bool.not_eq_false, not_not] at hok
      obtain ⟨hen, hit, har⟩ := hok
      have hpass (k : Out) : guarded s (vmswChecks s) k = k := by
        rw [hpast]
        exact guarded_pass (by simp [hen, hit, har])
      constructor
      · obtain ⟨t, ht, hrest⟩ := vmsw_completes false hss hit hnext
        exact ⟨t, (hpass _).trans ht, hrest⟩
      · obtain ⟨t, ht, hrest⟩ := vmsw_completes true hss hit hnext
        exact ⟨t, (hpass _).trans ((if_neg (by simp [hip])).trans ht), hrest⟩

/-- Settles O29: the fault, the undefined states, and the entry, whose effects the traps of br.ia share. -/
theorem ia32Entry : Obligations.Ia32Entry := by
  unfold Obligations.Ia32Entry
  intro b2 p wh d s
  refine ⟨fun hdi => guarded_raises (c := (s.dpsr Psr.di, excDisabledIsa)) hdi, fun hdi hundef => ?_,
    fun hdi hic hdt hit hmc hss htb => ?_⟩
  · have hbad : iaUndefined s = true := by
      rcases hundef with h | h | h | h <;> simp [iaUndefined, h]
    exact (guarded_skips (c := (s.dpsr Psr.di, excDisabledIsa)) hdi).trans (if_pos hbad)
  · have hentry : iaUndefined s = false := by simp [iaUndefined, hic, hdt, hit, hmc]
    refine ⟨ia32Entered s b2, ?_, ia32Entered_is s b2, ia32Entered_ip s b2, ia32Entered_slot s b2, ia32Entered_frame s b2⟩
    rw [exec_brIa b2 p wh d hdi hentry, htb, withTraps_sequential, if_pos ⟨hss, rfl⟩]

end Machine
end Sys2Proof
end

section
/-!
The return from an interruption (RfiReturns).
-/
namespace Sys2Proof
namespace Machine

/-! rfi with nothing in flight: its implied operands are the registers. -/

theorem Settled.impliedCr_eq {s : State} (h : Settled s) (n : Nat) : s.impliedCr n = s.sys.getCr n := by
  rw [State.impliedCr, h.1, List.take_nil, pick]

theorem Settled.icRetire_eq {s : State} (h : Settled s) : s.icRetire = s.psrNow Psr.ic := by
  rw [State.icRetire, State.dpsr, h.dview_eq, State.psrNow]

/-- The PSR that a return restores (10_state.md R59 note l). -/
def restoredPsr (ipsr : Word) : Word :=
  if bit ipsr Psr.is then ipsr &&& ~~~(bitMask Psr.ed ||| bitMask Psr.ia) else ipsr

theorem restoredPsr_itanium {ipsr : Word} (h : bit ipsr Psr.is = false) : restoredPsr ipsr = ipsr := by
  rw [restoredPsr, h, if_neg Bool.false_ne_true]

theorem restoredPsr_ia32 {ipsr : Word} (h : bit ipsr Psr.is = true) :
    restoredPsr ipsr = ipsr &&& ~~~(1#64 <<< 43 ||| 1#64 <<< 45) := by
  rw [restoredPsr, h, if_pos rfl]
  rfl

section
variable {s : State} (hs : Settled s)
include hs

theorem returned_psr : (returned s).sys.psr = restoredPsr (s.sys.getCr 16) := by
  rw [← hs.impliedCr_eq]
  rfl

theorem returned_ip :
    (returned s).ip =
      if bit (s.sys.getCr 16) Psr.is then ((s.sys.getCr 19).setWidth 32).setWidth 64 else s.sys.getCr 19 &&& ~~~15#64 := by
  rw [← hs.impliedCr_eq, ← hs.impliedCr_eq]
  rfl

theorem returned_slot :
    (returned s).slot = if bit (s.sys.getCr 16) Psr.is then 0 else field (s.sys.getCr 16) 41 2 := by
  rw [← hs.impliedCr_eq]
  rfl

theorem returned_cfm :
    (returned s).cfm = if bit (s.sys.getCr 23) 63 then (s.sys.getCr 23).extractLsb' 0 38 else s.cfm := by
  rw [← hs.impliedCr_eq]
  rfl

theorem returned_lastBundle : (returned s).lastBundle = if s.psrNow Psr.ic then s.ip else s.lastBundle := by
  rw [← hs.icRetire_eq]
  rfl

end

theorem returned_cr (s : State) : (returned s).sys.cr = s.sys.cr := rfl

theorem returned_settled (s : State) : Settled (returned s) := ⟨rfl, rfl⟩

/-- A return leaves everything alone but the PSR, CFM, the instruction pointer and what completing an instruction changes. -/
theorem returned_undisturbed (s : State) : Undisturbed s (returned s) := by constructor <;> simp [returned]

/-- The address that a return goes to is unimplemented, by the restored PSR. -/
theorem unimplInstr_returned {s : State} (hs : Settled s) (h : bit (s.sys.getCr 16) Psr.is = false) :
    unimplInstr (returned s) (returned s).ip =
      if bit (s.sys.getCr 16) Psr.it then unimplVa (bit (s.sys.getCr 16) Psr.vm && Config.hasPsrVm) (s.sys.getCr 19 &&& ~~~15#64)
      else unimplPa (s.sys.getCr 19 &&& ~~~15#64) := by
  rw [unimplInstr, State.psrNow, State.vm, returned_psr hs, restoredPsr_itanium h, returned_ip hs, h, if_neg Bool.false_ne_true]

/-! What stops rfi. -/

section
variable {s : State} (hs : Settled s) (hcpl : s.cpl = 0)
include hs hcpl

theorem exec_rfi_reserved (hr : psrReservedSet (s.sys.getCr 16) = true) : exec .rfi s = raise s excReservedField := by
  rw [← hs.impliedCr_eq] at hr
  exact (guarded_skips (chkPriv_of_level0 hcpl)).trans (guarded_raises hr)

variable (hr : psrReservedSet (s.sys.getCr 16) = false) (hvm : s.vm = false)
include hr hvm

/-- Behind its checks rfi is refused in the undefined cases, and returns. -/
theorem exec_rfi_passes :
    exec .rfi s =
      if rtChanges s (s.sys.getCr 16) then .refused .rtChange
      else if ia32Undefined (s.sys.getCr 16) && bit (s.sys.getCr 16) Psr.is then .refused .ia32EntryUndefined
      else if restartReserved (s.sys.getCr 16) then .refused .reservedRestartSlot
      else returnFromInterruption s := by
  rw [← hs.impliedCr_eq] at hr ⊢
  exact guarded_pass (by simp [chkPriv, chkReserved, chkVirt, hcpl, hr, hvm])

variable (hrt : rtChanges s (s.sys.getCr 16) = false)
include hrt

theorem exec_rfi_slot3 (his : bit (s.sys.getCr 16) Psr.is = false) (hslot : field (s.sys.getCr 16) 41 2 = (3 : BitVec 2)) :
    exec .rfi s = .refused .reservedRestartSlot := by
  have h3 : restartReserved (s.sys.getCr 16) = true := by simpa [restartReserved, his] using hslot
  rw [exec_rfi_passes hs hcpl hr hvm, hrt, his, h3, Bool.and_false]
  rfl

theorem exec_rfi_itanium (his : bit (s.sys.getCr 16) Psr.is = false) (hslot : field (s.sys.getCr 16) 41 2 ≠ (3 : BitVec 2)) :
    exec .rfi s = returnFromInterruption s := by
  have h3 : restartReserved (s.sys.getCr 16) = false := by simpa [restartReserved, his] using hslot
  rw [exec_rfi_passes hs hcpl hr hvm, hrt, his, h3, Bool.and_false]
  rfl

theorem exec_rfi_ia32 (his : bit (s.sys.getCr 16) Psr.is = true) :
    exec .rfi s = if ia32Undefined (s.sys.getCr 16) then .refused .ia32EntryUndefined else returnFromInterruption s := by
  have h3 : restartReserved (s.sys.getCr 16) = false := by simp [restartReserved, his]
  rw [exec_rfi_passes hs hcpl hr hvm, hrt, his, h3, Bool.and_true]
  rfl

end

/-! The traps of a return. -/

/-- A return takes the Single Step and the unimplemented address trap, one or both, or none. -/
theorem returnFromInterruption_eq (s : State) :
    returnFromInterruption s =
      if (!(returned s).psrNow Psr.is && unimplInstr (returned s) (returned s).ip) = false ∧ s.psrNow Psr.ss = false then
        .next (returned s)
      else rfiTraps s (returned s) (s.psrNow Psr.ss) (!(returned s).psrNow Psr.is && unimplInstr (returned s) (returned s).ip) := by
  unfold returnFromInterruption
  dsimp only
  generalize (!(returned s).psrNow Psr.is && unimplInstr (returned s) (returned s).ip) = uia
  cases uia <;> cases s.psrNow Psr.ss <;> rfl

/-- They are one delivery. -/
theorem rfiTraps_eq {s : State} (hs : Settled s) (t : State) (ss uia : Bool) :
    rfiTraps s t ss uia =
      deliver t { off := if uia then 0x5E00 else 0x6000, code := (if ss then 8 else 0) ||| (if uia then 16 else 0) }
        (if uia then (if Config.rfiLeavesIip then s.sys.getCr 19 else uiaIip t t.ip) else t.ip) t.slot
        (if s.ctx.mlx then 2 else s.slot) := by
  rw [rfiTraps, hs.impliedCr_eq, excTrap, trapCode_eq]
  cases ss <;> cases uia <;> rfl

theorem returned_is {s : State} (hs : Settled s) : (returned s).psrNow Psr.is = bit (s.sys.getCr 16) Psr.is := by
  rw [State.psrNow, returned_psr hs, restoredPsr]
  split
  · rw [bit_and_not, show bit (bitMask Psr.ed ||| bitMask Psr.ia) Psr.is = false by decide, Bool.not_false, Bool.and_true]
  · rfl

/-- Settles O12: behind its checks rfi is the return, whose fields are read off, and then its traps. -/
theorem rfiReturns : Obligations.RfiReturns := by
  unfold Obligations.RfiReturns
  refine ⟨fun s hs hcpl => ⟨exec_rfi_reserved hs hcpl, fun hr hvm hrt => ?rt⟩,
    fun s uia hs hcpl hr hvm hrt => ⟨?slot3, ?itanium, ?ia32⟩⟩
  case rt => rw [exec_rfi_passes hs hcpl hr hvm, if_pos hrt]
  case slot3 => exact exec_rfi_slot3 hs hcpl hr hvm hrt
  case itanium =>
    intro his hslot huia
    have hu : (!(returned s).psrNow Psr.is && unimplInstr (returned s) (returned s).ip) = uia := by
      rw [returned_is hs, his, unimplInstr_returned hs his, huia]
      rfl
    have hexec := (exec_rfi_itanium hs hcpl hr hvm hrt his hslot).trans (returnFromInterruption_eq s)
    rw [hu, rfiTraps_eq hs] at hexec
    refine ⟨returned s, ?psr, ?ip, ?slot, returned_cfm hs, returned_lastBundle hs, returned_cr s, returned_settled s,
      returned_undisturbed s, fun hnone hss => ?goes, fun htrap => ?traps⟩
    case psr => rw [returned_psr hs, restoredPsr_itanium his]
    case ip => rw [returned_ip hs, his, if_neg Bool.false_ne_true]
    case slot => rw [returned_slot hs, his, if_neg Bool.false_ne_true]
    case goes => rw [hexec, if_pos ⟨hnone, hss⟩]
    case traps =>
      refine hexec.trans (if_neg fun ⟨hnone, hss⟩ => ?_)
      rcases htrap with h | h
      · exact absurd (hnone.symm.trans h) Bool.false_ne_true
      · exact absurd (hss.symm.trans h) Bool.false_ne_true
  case ia32 =>
    intro his
    have hexec := exec_rfi_ia32 hs hcpl hr hvm hrt his
    split
    next hdefined =>
      obtain ⟨hic, hdt, hit, hmc⟩ := hdefined
      have hu : (!(returned s).psrNow Psr.is && unimplInstr (returned s) (returned s).ip) = false := by
        rw [returned_is hs, his]
        rfl
      have hslot : (returned s).slot = 0 := by rw [returned_slot hs, his, if_pos rfl]
      rw [show ia32Undefined (s.sys.getCr 16) = false by simp [ia32Undefined, hic, hdt, hit, hmc], if_neg Bool.false_ne_true,
        returnFromInterruption_eq, hu, rfiTraps_eq hs, hslot] at hexec
      refine ⟨returned s, ?psr, ?ip, hslot, returned_cfm hs, returned_cr s, returned_settled s, returned_undisturbed s,
        fun hss => ?goes, fun hss => ?traps⟩
      case psr => rw [returned_psr hs, restoredPsr_ia32 his]
      case ip => rw [returned_ip hs, his, if_pos rfl]; rfl
      case goes => rw [hexec, if_pos ⟨rfl, hss⟩]
      case traps => rw [hexec, if_neg (by simp [hss]), hss]; rfl
    next hundefined =>
      refine hexec.trans (if_pos ?_)
      by_contra hdefined
      exact hundefined (by simpa [ia32Undefined, and_assoc] using hdefined)

end Machine
end Sys2Proof
end

section
/-!
SUPPORT. What the moves, the branches and the interruptions of this family read back: control and application registers after a
write, the privilege level in a PSR, the one-instruction bits apart (10_state.md R57, R59).
-/
namespace Sys2Proof
namespace Machine

/-! Registers after a write. -/

@[simp] theorem Sys.getCr_onPsr (f : Word → Word) (y : Sys) (n : Nat) : (y.onPsr f).getCr n = y.getCr n := rfl

theorem Sys.getCr_setCr {y : Sys} {n m : Nat} {v : Word} (h : n < 128) :
    (y.setCr n v).getCr m = if m = n then v else y.getCr m := by
  split
  next heq => rw [heq]; exact rd_wr_self h
  next hne => exact rd_wr_ne hne

/-- Application registers other than ITC are plain cells. -/
theorem getAr_congr {s t : State} {n : Nat} (hi : n ≠ Ar.itc) (h : t.ar = s.ar) : t.getAr n = s.getAr n := by
  simp only [State.getAr, if_neg hi, h]

theorem getAr_setAr_self {s : State} {n : Nat} {v : Word} (hn : n < 128) (hi : n ≠ Ar.itc) : (s.setAr n v).getAr n = v := by
  simp only [State.getAr, State.setAr, if_neg hi]
  exact rd_wr_self hn

/-! The privilege level. -/

theorem psrCpl_congr {p q : Word} (h : ∀ n, 32 ≤ n → n < 34 → bit p n = bit q n) : psrCpl p = psrCpl q := by
  refine BitVec.eq_of_getLsbD_eq fun n hn => ?_
  simpa [psrCpl, field, hn, bit] using h (32 + n) (by omega) (by omega)

theorem psrCpl_clearOneShot (p : Word) : psrCpl (clearOneShot p) = psrCpl p :=
  psrCpl_congr fun n h32 h34 => bit_clearOneShot (by interval_cases n <;> decide)

/-- The PSR bits of the privilege level. -/
theorem setCpl_outside (p : Word) (c : BitVec 2) : setCpl p c &&& ~~~(3#64 <<< 32) = p &&& ~~~(3#64 <<< 32) := by
  have hlevel : (c.setWidth 64 <<< 32) &&& ~~~(3#64 <<< 32) = 0 := by revert c; decide
  exact (or_outside hlevel).trans (clear_outside (by decide))

theorem psrCpl_setCpl (p : Word) (c : BitVec 2) : psrCpl (setCpl p c) = c := by
  have hlevel : psrCpl (c.setWidth 64 <<< 32) = c := by revert c; decide
  have hclear : psrCpl (setCpl p c) = psrCpl (c.setWidth 64 <<< 32) := psrCpl_congr fun n h32 h34 => by
    have hmask : bit ((BitVec.allOnes 2).setWidth 64 <<< 32) n = true := by interval_cases n <;> decide
    rw [setCpl, setField, bit_or, bit_and_not, hmask, Bool.not_true, Bool.and_false, Bool.false_or]
  rw [hclear, hlevel]

/-- Where no view of the data side is the group's own, the level is that of the PSR. -/
theorem cpl_eq_psrCpl {s : State} (h : s.dataOld.take s.dataWrites = []) : s.cpl = psrCpl s.sys.psr := by
  rw [State.cpl, h, pick]

theorem Settled.cpl_eq {s : State} (h : Settled s) : s.cpl = psrCpl s.sys.psr :=
  cpl_eq_psrCpl (by rw [h.1, List.take_nil])

end Machine
end Sys2Proof
end

section
/-!
SUPPORT. Taking an interruption: the registers it writes and what it leaves alone (60_exceptions.md R500, R501).
-/
namespace Sys2Proof
namespace Machine

/-- The state in which an interruption is taken. -/
def interrupted (s : State) (e : Exc) (iip : Word) (ri ei : BitVec 2) (nested : Bool) : State :=
  { s.serializeAll with
    sys := interruptSys s e iip ri ei nested
    ip := (s.fcr 2 3 &&& 0xFFFFFFFFFFFF8000) ||| (if nested then 0x1400 else e.off)
    slot := 0 }

theorem deliver_eq (s : State) (e : Exc) (iip : Word) (ri ei : BitVec 2) :
    deliver s e iip ri ei =
      if ivaBad s (s.fcr 2 3 &&& 0xFFFFFFFFFFFF8000) then .refused .ivaUnimplemented
      else .next (interrupted s e iip ri ei (isNested s e)) := rfl

/-- What an interruption may change of the serializable resources: the PSR and the interruption registers. -/
def interruptFootprint : Footprint :=
  { psr := BitVec.allOnes 64, cr := [16, 17, 19, 20, 21, 22, 23, 24, 25] }

theorem collect_touch (s : State) (e : Exc) (iip : Word) (ri : BitVec 2) (y : Sys) :
    SysTouch interruptFootprint y (collect s e iip ri y) := by
  have hset (z : Sys) {n : Nat} (v : Word) (hn : n ∈ interruptFootprint.cr) : SysTouch interruptFootprint z (z.setCr n v) :=
    .setCr z v hn
  unfold collect
  exact (hset _ _ (by decide)).trans <| (hset _ _ (by decide)).trans <| (hset _ _ (by decide)).trans <|
    (hset _ _ (by decide)).trans <| (hset _ _ (by decide)).trans <| (hset _ _ (by decide)).trans <|
    (hset _ _ (by decide)).trans (hset _ _ (by decide))

theorem interruptSys_touch (s : State) (e : Exc) (iip : Word) (ri ei : BitVec 2) (nested : Bool) :
    SysTouch interruptFootprint s.sys (interruptSys s e iip ri ei nested) := by
  have hcollected : SysTouch interruptFootprint s.sys
      (if s.icCollect e.x && !nested then collect s e iip ri s.sys else s.sys) := by
    split
    · exact collect_touch ..
    · exact .refl ..
  have hisr (y : Sys) : SysTouch interruptFootprint y (if nested then y else y.setCr 17 (excIsr s e ei)) := by
    split
    · exact .refl ..
    · exact .setCr _ _ (by decide)
  exact hcollected.trans ((hisr _).trans (.onPsr _ _ (by simp [interruptFootprint])))

/-- Everything else is as before the interruption. -/
theorem interrupted_undisturbed (s : State) (e : Exc) (iip : Word) (ri ei : BitVec 2) (nested : Bool) :
    Undisturbed s (interrupted s e iip ri ei nested) := by
  have hsys := interruptSys_touch s e iip ri ei nested
  exact
    { gr := rfl, fr := rfl, pr := rfl, br := rfl, ar := rfl, pmdKnown := rfl, irr := rfl, xtp := rfl, alat := rfl, mem := rfl
      lines := rfl, holes := rfl, owed := ⟨rfl, rfl⟩, same := ⟨rfl, rfl, rfl⟩
      itc := hsys.itc (by decide), rr := hsys.rr (by decide), pkr := hsys.pkr (by decide), itr := hsys.itr (by decide)
      dtr := hsys.dtr (by decide), dbr := hsys.dbr (by decide), ibr := hsys.ibr (by decide), pmc := hsys.pmc (by decide)
      pmd := hsys.pmd (by decide), itcTlb := (hsys.tc rfl).1, dtcTlb := (hsys.tc rfl).2, inService := hsys.inService rfl }

theorem interrupted_settled (s : State) (e : Exc) (iip : Word) (ri ei : BitVec 2) (nested : Bool) :
    Settled (interrupted s e iip ri ei nested) := ⟨rfl, rfl⟩

/-- The PSR with which a handler begins has PSR.ic = 0 and is at level 0. -/
theorem bit_interruptPsr {be pp : Bool} {p : Word} {n : Nat} (hn : n < 64) (hbe : n ≠ Psr.be) (hpp : n ≠ Psr.pp)
    (hkept : bit keptMask n = false) : bit (interruptPsr be pp p) n = false := by
  rw [interruptPsr, bit_setBit hn, if_neg hpp, bit_setBit hn, if_neg hbe, bit_and, hkept, Bool.and_false]

theorem interrupted_psr (s : State) (e : Exc) (iip : Word) (ri ei : BitVec 2) (nested : Bool) :
    (interrupted s e iip ri ei nested).sys.psr = interruptPsr (bit (s.dcr 0 2) 1) (bit (s.dcr 0 1) 0) s.sys.psr :=
  interruptSys_psr ..

theorem interrupted_ic (s : State) (e : Exc) (iip : Word) (ri ei : BitVec 2) (nested : Bool) :
    bit (interrupted s e iip ri ei nested).sys.psr Psr.ic = false := by
  rw [interrupted_psr]
  exact bit_interruptPsr (by decide) (by decide) (by decide) (by decide)

theorem interrupted_cpl (s : State) (e : Exc) (iip : Word) (ri ei : BitVec 2) (nested : Bool) :
    psrCpl (interrupted s e iip ri ei nested).sys.psr = 0 := by
  rw [interrupted_psr]
  refine (psrCpl_congr (q := 0) fun n h32 h34 => ?_).trans (by decide)
  interval_cases n <;> exact bit_interruptPsr (by decide) (by decide) (by decide) (by decide)

section
variable {s : State} (hs : Settled s)
include hs

theorem Settled.fcr_eq (n u : Nat) : s.fcr n u = s.sys.getCr n := by
  rw [State.fcr, State.fview, hs.2, pick]

theorem Settled.icCollect_eq (fetch : Bool) : s.icCollect fetch = s.psrNow Psr.ic := by
  cases fetch
  · rw [State.icCollect, if_neg Bool.false_ne_true, State.dpsr, hs.dview_eq, State.psrNow]
  · rw [State.icCollect, if_pos rfl, State.fpsr, State.fview, hs.2, pick, State.psrNow]

variable (hic : s.psrNow Psr.ic = true) (hiva : ivaBad s (s.sys.getCr 2 &&& 0xFFFFFFFFFFFF8000) = false)
include hic

/-- With PSR.ic = 1 no data TLB miss is nested. -/
theorem isNested_of_collected (e : Exc) : isNested s e = false := by
  simp [isNested, hs.icCollect_eq, hic]

/-- The interruption registers that an interruption with PSR.ic = 1 writes. -/
theorem interrupted_getCr (e : Exc) (iip : Word) (ri ei : BitVec 2) {n : Nat} (hn : n ≠ 17) :
    (interrupted s e iip ri ei false).sys.getCr n = (collect s e iip ri s.sys).getCr n := by
  have hcollects : (s.icCollect e.x && !false) = true := by rw [hs.icCollect_eq, hic]; rfl
  simp only [interrupted, interruptSys, hcollects, if_pos, Bool.false_eq_true, if_false, Sys.getCr_onPsr]
  rw [Sys.getCr_setCr (by decide), if_neg hn]

include hiva

theorem deliver_of_collected (e : Exc) (iip : Word) (ri ei : BitVec 2) :
    deliver s e iip ri ei = .next (interrupted s e iip ri ei false) := by
  rw [deliver_eq, hs.fcr_eq, hiva, isNested_of_collected hs hic, if_neg Bool.false_ne_true]

end

end Machine
end Sys2Proof
end

section
/-!
break (Breaks).
-/
namespace Sys2Proof
namespace Machine

/-- Each form of break raises its fault with its immediate. -/
theorem exec_break {i : Instr} {imm : Word} {s : State}
    (h : (∃ qp k, (i = .breakM qp k ∨ i = .breakI qp k ∨ i = .breakFX qp (.f k)) ∧ imm = k.setWidth 64) ∨
      (∃ qp k, i = .breakFX qp (.x k) ∧ imm = k.setWidth 64) ∨ (∃ qp k, i = .breakB qp k ∧ imm = 0))
    (hp : s.pred (qpOf i) = true) : exec i s = raise s (excBreak imm) := by
  rcases h with ⟨qp, k, rfl | rfl | rfl, rfl⟩ | ⟨qp, k, rfl, rfl⟩ | ⟨qp, k, rfl, rfl⟩ <;> exact predicated_true hp

/-- Settles O16: the fault of each form, and its delivery read off register by register. -/
theorem breaks : Obligations.Breaks := by
  unfold Obligations.Breaks
  intro i imm s hform hp
  have hexec : exec i s = deliver s (excBreak imm) s.ip s.slot s.slot := exec_break hform hp
  refine ⟨hexec, fun hs hic hiva => ⟨interrupted s (excBreak imm) s.ip s.slot s.slot false,
    hexec.trans (deliver_of_collected hs hic hiva ..), ?iim, ?iip, ?ipsr, ?ip, rfl, interrupted_ic .., interrupted_cpl .., rfl,
    interrupted_settled .., interrupted_undisturbed ..⟩⟩
  case iim => simp [interrupted_getCr hs hic, collect, Sys.getCr_setCr, excBreak, listedOr]
  case iip => simp [interrupted_getCr hs hic, collect, Sys.getCr_setCr]
  case ipsr => simp [interrupted_getCr hs hic, collect, Sys.getCr_setCr, collectedPsr]
  case ip => rw [interrupted, hs.fcr_eq]; rfl

end Machine
end Sys2Proof
end

section
/-!
The frame marker and the privilege level: epc, cover, clrrrb, clrrrb.pr, br.ret (EpcPromotes, FrameMarker, ReturnBranch).
-/
namespace Sys2Proof
namespace Machine

/-! epc. -/

/-- epc writes the privilege level: in physical mode, and on a promotion page of a more privileged level. -/
def epcWrites (s : State) : Bool :=
  !s.psrNow Psr.it || (s.ctx.ar == 7 && decide (s.ctx.pl.toNat < s.cpl.toNat))

/-- What epc may change. -/
def epcFootprint (s : State) : Footprint := { psr := 3#64 <<< 32, data := epcWrites s, fetch := epcWrites s }

theorem epcPromote_touch (s : State) : Touch (epcFootprint s) s (epcPromote s) := by
  have hpush (h : epcWrites s = true) (c : BitVec 2) : Touch (epcFootprint s) s (s.pushSys (Sys.onPsr fun p => setCpl p c)) :=
    .pushed s _ (.onPsr _ _ (setCpl_outside _ c)) h h
  unfold epcPromote
  split
  next hit =>
    split
    next hpage => exact hpush (by simp [epcWrites, hpage]) _
    next hpage =>
      have hkeep : epcWrites s = false := by simpa [epcWrites, hit] using hpage
      exact .refl _ s hkeep hkeep
  next hit => exact hpush (by simp [epcWrites, hit]) 0

/-- The level after epc. -/
theorem epcPromote_cpl (s : State) :
    psrCpl (epcPromote s).sys.psr =
      if s.psrNow Psr.it then (if s.ctx.ar = 7 ∧ s.ctx.pl.toNat < s.cpl.toNat then s.ctx.pl else psrCpl s.sys.psr) else 0 := by
  unfold epcPromote
  split
  · split
    · exact psrCpl_setCpl ..
    · rfl
  · exact psrCpl_setCpl ..

theorem exec_epc (s : State) :
    exec .epc s = guarded s [chkIllegal (decide ((pfsPpl (s.getAr Ar.pfs)).toNat < s.cpl.toNat))] (finish s (epcPromote s)) := rfl

/-- Settles O24: the check on PFS.ppl, then one write of the level or none. -/
theorem epcPromotes : Obligations.EpcPromotes := by
  unfold Obligations.EpcPromotes
  refine fun s => ⟨fun hppl => ?_, fun hq hwrites hppl => ?_⟩
  · rw [exec_epc, guarded_raises (decide_eq_true hppl), chkIllegal]
  have hrun : exec .epc s = finish s (epcPromote s) := by
    rw [exec_epc, guarded_skips (decide_eq_false (Nat.not_lt.mpr hppl)), guarded_nil]
  have htouch := epcPromote_touch s
  refine ⟨_, hrun.trans (htouch.completes hq (show bit (3#64 <<< 32) Psr.it = false by decide)
    (show bit (3#64 <<< 32) Psr.vm = false by decide)), htouch.frame, ?_⟩
  rw [advanced_sys, Sys.onPsr_psr, psrCpl_clearOneShot, epcPromote_cpl,
    cpl_eq_psrCpl (by rw [hwrites, List.take_zero])]

/-! cover, clrrrb, clrrrb.pr. -/

/-- cover saves CFM where PSR.ic is 0. -/
theorem coverSave_touch (s : State) : Touch { cfm := true, cr := [23] } s (coverSave s) := by
  unfold coverSave
  split
  · exact .refl _ s
  · exact (Touch.refl _ s).mapped_plain (fun y => .setCr y _ (by simp)) rfl rfl

theorem coverSave_ifs (s : State) :
    (coverSave s).sys.getCr 23 = if s.dpsr Psr.ic then s.sys.getCr 23 else (1#64 <<< 63) ||| s.cfm.setWidth 64 := by
  unfold coverSave
  split
  · rfl
  · exact rd_wr_self (by decide)

/-- A new frame marker. -/
theorem Touch.withCfm {f : Footprint} {s t : State} (h : Touch f s t) (c : BitVec 38) (hf : f.cfm = true := by rfl) :
    Touch f s { t with cfm := c } := { h with cfm := by simp [hf] }

/-- The two fields that the clears keep, the bits above them 0. -/
theorem clearedRenameBases_eq (c : BitVec 38) : c &&& 0x3FFFF = 0#20 ++ c.extractLsb' 0 18 := by
  apply BitVec.eq_of_toNat_eq
  simp only [BitVec.toNat_and, BitVec.toNat_append, BitVec.extractLsb'_toNat, BitVec.toNat_ofNat, Nat.zero_mod,
    Nat.zero_shiftLeft, Nat.zero_or, Nat.shiftRight_zero]
  exact Nat.and_two_pow_sub_one_eq_mod c.toNat 18

theorem clearedPredicateBase_eq (c : BitVec 38) : c &&& 0xFFFFFFFF = 0#6 ++ c.extractLsb' 0 32 := by
  apply BitVec.eq_of_toNat_eq
  simp only [BitVec.toNat_and, BitVec.toNat_append, BitVec.extractLsb'_toNat, BitVec.toNat_ofNat, Nat.zero_mod,
    Nat.zero_shiftLeft, Nat.zero_or, Nat.shiftRight_zero]
  exact Nat.and_two_pow_sub_one_eq_mod c.toNat 32

/-- An instruction that writes CFM alone completes. -/
theorem setCfm_completes {s : State} {c d : BitVec 38} (hq : Quiet s) (hc : c = d) :
    ∃ t, finish s { s with cfm := c } = .next t ∧ t.cfm = d ∧ Frame { cfm := true } s t := by
  have htouch : Touch { cfm := true } s { s with cfm := c } := (Touch.refl _ s).withCfm c
  exact ⟨_, htouch.completes hq it_zero vm_zero, (advanced_cfm _ _).trans hc, htouch.frame⟩

theorem exec_cover {s : State} (h : (s.vm && decide (s.cpl = 0)) = false) :
    exec .cover s = finish s { coverSave s with cfm := 0 } := guarded_skips (c := (_, excVirtualization)) h

/-- Settles O25: each of the three is a write of CFM, that of cover after IFS. -/
theorem frameMarker : Obligations.FrameMarker := by
  unfold Obligations.FrameMarker
  refine fun s hq => ⟨fun hvirt => ?cover, ?clrrrb, ?clrrrbPr⟩
  case cover =>
    have hpass : (s.vm && decide (s.cpl = 0)) = false := by
      rcases hvirt with hvm | hcpl
      · rw [hvm, Bool.false_and]
      · rw [decide_eq_false hcpl, Bool.and_false]
    have htouch : Touch { cfm := true, cr := [23] } s { coverSave s with cfm := 0 } := (coverSave_touch s).withCfm 0
    refine ⟨_, (exec_cover hpass).trans (htouch.completes hq it_zero vm_zero), advanced_cfm .., ?_, htouch.frame⟩
    rw [advanced_sys, Sys.getCr_onPsr, ← coverSave_ifs]
  case clrrrb => exact setCfm_completes hq (clearedRenameBases_eq s.cfm)
  case clrrrbPr => exact setCfm_completes hq (clearedPredicateBase_eq s.cfm)

/-! br.ret. -/

/-- What br.ret may change. -/
abbrev retFootprint : Footprint := { cfm := true, ar := [66], psr := 3#64 <<< 32, jump := true }

theorem retState_touch (s : State) : Touch retFootprint s (retState s) := by
  have hplain : Touch retFootprint s
      (({ s with cfm := pfsPfm (s.getAr Ar.pfs) } : State).setAr Ar.ec ((pfsPec (s.getAr Ar.pfs)).setWidth 64)) :=
    ((Touch.refl _ s).withCfm _).setAr _ (by simp) (by decide)
  unfold retState
  dsimp only
  split
  · exact hplain.onPsr _ fun p => setCpl_outside p _
  · exact hplain

theorem retState_cfm (s : State) : (retState s).cfm = pfsPfm (s.getAr Ar.pfs) := by
  simp [retState, apply_ite State.cfm]

theorem retState_ec (s : State) : (retState s).getAr Ar.ec = (pfsPec (s.getAr Ar.pfs)).setWidth 64 := by
  unfold retState
  dsimp only
  split
  · exact (getAr_congr (by decide) (State.mapSys_ar ..)).trans (getAr_setAr_self (by decide) (by decide))
  · exact getAr_setAr_self (by decide) (by decide)

/-- With PSR.lp = 0 a taken branch that lowers the privilege level takes no trap for it. -/
theorem finishBranch_lowered {s u : State} {target : Word} (lowered : Bool) (h : s.dpsr Psr.lp = false) :
    finishBranch s u target lowered = finishBranch s u target false := by
  simp only [finishBranch, h, Bool.false_and]

/-- Settles O27: br.ret is a taken branch whose own effects are read off PFS. -/
theorem returnBranch : Obligations.ReturnBranch := by
  unfold Obligations.ReturnBranch
  intro qp b2 p wh d s hp hq hlp hs
  have htouch := retState_touch s
  have hexec : exec (.brRet qp b2 p wh d) s = .next (branched s (retState s) (s.getBr b2)) := by
    rw [exec_of_takenTo (.ret qp b2 p wh d hp), finishBranch_lowered _ hlp]
    exact finishBranch_quiet hq (htouch.bit (by decide)) (htouch.bit (by decide))
  refine ⟨_, hexec, branched_ip .., branched_slot .., (branched_cfm ..).trans (retState_cfm s), ?ec, ?cpl,
    htouch.frame_branched _⟩
  case ec => exact (getAr_congr (by decide) (branched_ar ..)).trans (retState_ec s)
  case cpl =>
    rw [branched_sys, Sys.onPsr_psr, psrCpl_clearOneShot, retState_psr, apply_ite psrCpl, psrCpl_setCpl, ← hs.cpl_eq]

end Machine
end Sys2Proof
end

section
/-!
SUPPORT. The control registers: the checks of their moves, what a write and a read do (41_cr_and_serialization_instructions.md R360,
R361, R371; 60_exceptions.md R511, R512).
-/
namespace Sys2Proof
namespace Machine

/-! The checks. -/

/-- The checks of a write of a control register, in their order. -/
def crWriteChecks (s : State) (n : Nat) (r2 : BitVec 7) : List Check :=
  [chkIllegal (!crDefined n || crReadOnly n || crBarred s n), chkPriv s, chkNat s r2, chkReserved (crReserved n (s.val r2)),
    (ifaUnimplAtMov s n (s.val r2), excUnimplData (s.val r2) false false false false), chkVirt s]

theorem exec_movToCr {qp : BitVec 6} {s : State} (cr3 r2 : BitVec 7) (hp : s.pred qp = true) :
    exec (.movToCr qp cr3 r2) s =
      guarded s (crWriteChecks s cr3.toNat r2) (finish s (s.writeCr cr3.toNat (s.val r2))) := predicated_true hp

/-- The checks of a read, in their order. -/
def crReadChecks (s : State) (r1 : BitVec 7) (n : Nat) : List Check :=
  [chkTarget r1, chkIllegal (!crDefined n || crBarred s n), chkPriv s, chkVirt s]

theorem exec_movFromCr {qp : BitVec 6} {s : State} (r1 cr3 : BitVec 7) (hp : s.pred qp = true) :
    exec (.movFromCr qp r1 cr3) s =
      guarded s (crReadChecks s r1 cr3.toNat) (finish s ((s.readCr cr3.toNat).2.setVal r1 (s.readCr cr3.toNat).1)) :=
  predicated_true hp

/-- The interruption control registers are barred while PSR.ic is 1. -/
theorem crBarred_eq_false_iff {s : State} {n : Nat} : crBarred s n = false ↔ (16 ≤ n → n ≤ 25 → s.dpsr Psr.ic = false) := by
  simp only [crBarred, Bool.and_eq_false_imp, Bool.and_eq_true, decide_eq_true_eq, and_imp]

theorem crBarred_eq_true_iff {s : State} {n : Nat} : crBarred s n = true ↔ 16 ≤ n ∧ n ≤ 25 ∧ s.dpsr Psr.ic = true := by
  simp only [crBarred, Bool.and_eq_true, decide_eq_true_eq, and_assoc]

/-- A write of IFA is checked on some processors only. -/
theorem ifaUnimplAtMov_eq_false {s : State} {n : Nat} {v : Word}
    (h : n = 20 → Config.ifaCheckAtMov = true → unimplVa s.vm v = false) : ifaUnimplAtMov s n v = false := by
  simp only [ifaUnimplAtMov, Bool.and_eq_false_imp, Bool.and_eq_true, decide_eq_true_eq]
  rintro ⟨hn, hv⟩
  by_contra hc
  rw [h hn (by simpa using hc)] at hv
  exact absurd hv Bool.false_ne_true

/-! Writes. -/

/-- The value that a register holds after a write: IVA without bits 14:0, IHA without bits 1:0. -/
theorem crStored_eq (n : Nat) (v : Word) :
    crStored n v = if n = 2 then v &&& ~~~0x7FFF#64 else if n = 25 then v &&& ~~~3#64 else v := by
  unfold crStored
  split
  next => rfl
  next => rfl
  next h2 h25 => rw [if_neg h2, if_neg h25]

theorem writeCr_of_ne {s : State} {n : Nat} {v : Word} (h : n ≠ 67) :
    s.writeCr n v =
      { s.pushSys (Sys.setCr · n (crStored n v)) with lastBundle := if n = 22 then v else s.lastBundle } := by
  rw [State.writeCr, if_neg h]
  dsimp only
  split <;> rfl

/-- Every write leaves the old values in flight. -/
theorem writeCr_dataOld (s : State) (n : Nat) (v : Word) :
    (s.writeCr n v).dataOld = s.sys :: s.dataOld ∧ (s.writeCr n v).dataWrites = s.dataWrites + 1 := by
  by_cases h : n = 67
  · subst h
    exact ⟨rfl, rfl⟩
  · rw [writeCr_of_ne h]
    exact ⟨rfl, rfl⟩

theorem writeCr_touch {s : State} {n : Nat} {v : Word} (h : n ≠ 67) :
    Touch { cr := [n], data := true, fetch := true } s (s.writeCr n v) := by
  have hpush : Touch { cr := [n], data := true, fetch := true } s (s.pushSys (Sys.setCr · n (crStored n v))) :=
    .pushed s _ (.setCr _ _ (by simp))
  rw [writeCr_of_ne h]
  refine { hpush with last := fun hn => ?_ }
  exact if_neg fun h22 => hn (by simp [h22])

theorem endInterrupt_of_none {y : Sys} (h : highestVector y.inService = none) : y.endInterrupt = y := by
  rw [Sys.endInterrupt, h]

theorem endInterrupt_of_some {y : Sys} {v : Nat} (h : highestVector y.inService = some v) :
    y.endInterrupt = { y with inService := y.inService &&& ~~~(1#256 <<< v) } := by
  rw [Sys.endInterrupt, h]

theorem endInterrupt_touch (y : Sys) : SysTouch { irq := true, data := true, fetch := true } y y.endInterrupt := by
  cases h : highestVector y.inService with
  | none =>
    rw [endInterrupt_of_none h]
    exact .refl _ y
  | some v =>
    rw [endInterrupt_of_some h]
    constructor <;> simp

theorem writeEoi_touch (s : State) (v : Word) : Touch { irq := true, data := true, fetch := true } s (s.writeCr 67 v) :=
  .pushed s _ (endInterrupt_touch _)

/-! Reads. -/

theorem readCr_plain {s : State} {n : Nat} (h65 : n ≠ 65) (h67 : n ≠ 67) (hirr : n < 68 ∨ 71 < n) (h21 : n ≠ 21) :
    s.readCr n = (s.dcr n, s) := by
  rw [State.readCr, if_neg h65, if_neg h67, if_neg (by omega), if_neg h21]

theorem readCr_irr (s : State) {k : Nat} (h : k < 4) : s.readCr (68 + k) = (s.irr.extractLsb' (64 * k) 64, s) := by
  rw [State.readCr, if_neg (by omega), if_neg (by omega), if_pos (by omega), Nat.add_sub_cancel_left, Nat.mul_comm]

/-- A read of ITIR gives what is not reserved in it as it is. -/
theorem readCr_itir (s : State) :
    (s.readCr 21).2 = s ∧ (s.readCr 21).1 &&& 0xFFFFFFFC = s.dcr 21 &&& 0xFFFFFFFC := by
  refine ⟨rfl, ?_⟩
  show (if s.dcr 21 &&& 0xFFFFFFFF00000003 = 0 then s.dcr 21
    else if Config.itirReservedReadsZero then s.dcr 21 &&& 0xFFFFFFFC else s.dcr 21) &&& 0xFFFFFFFC = _
  split
  · rfl
  · split
    · rw [BitVec.and_assoc, BitVec.and_self]
    · rfl

/-- A read of any other register than IVR changes nothing. -/
theorem readCr_state {s : State} {n : Nat} (h : n ≠ 65) : (s.readCr n).2 = s := by
  simp only [State.readCr, if_neg h, apply_ite Prod.snd, ite_self]

theorem readIvr_of_none {s : State} (h : s.deliverable = none) : s.readIvr = (15, s) := by
  rw [State.readIvr, h]

theorem readIvr_of_some {s : State} {v : Nat} (h : s.deliverable = some v) :
    s.readIvr = (BitVec.ofNat 64 v, ({ s with irr := s.irr &&& ~~~(1#256 <<< v) } : State).mapSys (Sys.serve v)) := by
  rw [State.readIvr, h]

/-- Reading IVR changes which interrupts are pending and in service. -/
theorem readIvr_touch {f : Footprint} {s : State} (hi : f.irq = true) (hd : f.data = false := by rfl)
    (hf : f.fetch = false := by rfl) : Touch f s s.readIvr.2 := by
  cases h : s.deliverable with
  | none =>
    rw [readIvr_of_none h]
    exact .refl f s hd hf
  | some v =>
    have hirr : Touch f s { s with irr := s.irr &&& ~~~(1#256 <<< v) } := { Touch.refl f s hd hf with irq := by simp [hi] }
    rw [readIvr_of_some h]
    refine hirr.mapped_plain (fun y => ?_) hd hf
    constructor <;> simp [Sys.serve, hi]

theorem readIvr_kept (s : State) : s.readIvr.2.xtp = s.xtp ∧ s.readIvr.2.palOwed = s.palOwed := by
  cases h : s.deliverable with
  | none =>
    rw [readIvr_of_none h]
    exact ⟨rfl, rfl⟩
  | some v =>
    rw [readIvr_of_some h]
    exact ⟨rfl, rfl⟩

end Machine
end Sys2Proof
end

section
/-!
The moves of control registers (ControlRegisterWrites, ControlRegisterReads).
-/
namespace Sys2Proof
namespace Machine

/-- A value moved to a general register is there after completion. -/
theorem advanced_getGr_setVal {s u : State} {r1 : BitVec 7} {v : Word} (h : r1 ≠ 0) :
    (advanced s (u.setVal r1 v)).getGr r1 = { val := v, nat := false } :=
  (advanced_getGr ..).trans (getGr_setGr_self h)

/-- Settles O30: every write but EOI is a control register in flight, EOI the in-service state in flight. -/
theorem controlRegisterWrites : Obligations.ControlRegisterWrites := by
  unfold Obligations.ControlRegisterWrites
  intro qp cr3 r2 s hp hdef hro hbar hcpl hnat hres hifa hvm hq
  have hnum (k : BitVec 7) : cr3 = k ↔ cr3.toNat = k.toNat := BitVec.toNat_inj.symm
  have hpass : ∀ c ∈ crWriteChecks s cr3.toNat r2, c.1 = false := by
    have hva := ifaUnimplAtMov_eq_false (s := s) (v := s.val r2) fun h => hifa ((hnum 20).mpr h)
    simp [crWriteChecks, chkIllegal, chkPriv, chkNat, chkReserved, chkVirt, hdef, hro, crBarred_eq_false_iff.mpr hbar, hcpl,
      hnat, hres, hva, hvm]
  have hexec := ((exec_movToCr cr3 r2 hp).trans (guarded_pass hpass)).trans
    (finish_quiet hq (by simp [State.psrNow]) (by simp [State.psrNow]))
  obtain ⟨hold, hwrites⟩ := writeCr_dataOld s cr3.toNat (s.val r2)
  refine ⟨_, hexec, mem_advanced_dataOld hold hwrites, fun h67 => ?other, fun h67 => ?eoi⟩
  case other =>
    have hne : cr3.toNat ≠ 67 := fun h => h67 ((hnum 67).mpr h)
    refine ⟨?_, fun h22 => ?_, (writeCr_touch hne).frame⟩
    · rw [advanced_sys, Sys.getCr_onPsr, writeCr_of_ne hne]
      refine (Sys.getCr_setCr cr3.isLt).trans ?_
      simp only [if_true, crStored_eq, hnum]
      rfl
    · rw [advanced_lastBundle, writeCr_of_ne hne, h22]
      rfl
  case eoi =>
    subst h67
    refine ⟨?_, advanced_irr .., advanced_xtp .., advanced_palOwed .., (writeEoi_touch s _).frame⟩
    rw [advanced_sys, Sys.onPsr_inService]
    show s.sys.endInterrupt.inService = _
    split
    next h => rw [endInterrupt_of_none h]
    next v h => rw [endInterrupt_of_some h]

/-- Settles O31: a read is the value of `readCr` moved to the target; only IVR changes more. -/
theorem controlRegisterReads : Obligations.ControlRegisterReads := by
  unfold Obligations.ControlRegisterReads
  intro qp r1 cr3 s hp
  have hnum (k : BitVec 7) : cr3 = k ↔ cr3.toNat = k.toNat := BitVec.toNat_inj.symm
  refine ⟨fun h1 => (exec_movFromCr r1 cr3 hp).trans (guarded_raises (decide_eq_true h1)),
    fun h1 hdef hbar hcpl hvm hs hq => ?_⟩
  have hpass : ∀ c ∈ crReadChecks s r1 cr3.toNat, c.1 = false := by
    simpa [crReadChecks, chkTarget, chkIllegal, chkPriv, chkVirt, hdef, crBarred_eq_false_iff.mpr hbar, hcpl, hvm] using h1
  have hexec := ((exec_movFromCr r1 cr3 hp).trans (guarded_pass hpass)).trans
    (finish_quiet hq (by simp [State.psrNow]) (by simp [State.psrNow]))
  have hreg : (advanced s ((s.readCr cr3.toNat).2.setVal r1 (s.readCr cr3.toNat).1)).getGr r1 =
      { val := (s.readCr cr3.toNat).1, nat := false } := advanced_getGr_setVal h1
  have hval : (advanced s ((s.readCr cr3.toNat).2.setVal r1 (s.readCr cr3.toNat).1)).val r1 = (s.readCr cr3.toNat).1 :=
    congrArg GReg.val hreg
  have hframe (h : cr3.toNat ≠ 65) :
      Frame { gr := [r1] } s (advanced s ((s.readCr cr3.toNat).2.setVal r1 (s.readCr cr3.toNat).1)) := by
    have htouch (v : Word) : Touch { gr := [r1] } s (s.setVal r1 v) := (Touch.refl _ s).setVal v (by simp) bn_zero
    rw [readCr_state h]
    exact (htouch _).frame
  refine ⟨_, hexec, congrArg GReg.nat hreg, fun h65 h67 hirr h21 => ?plain, fun h21 => ?itir, fun h67 => ?eoi,
    fun k hk hn => ?irr, fun h65 => ?ivr⟩
  case plain =>
    rw [ne_eq, hnum] at h65 h67 h21
    refine ⟨?_, hframe h65⟩
    rw [hval, readCr_plain h65 h67 hirr h21, hs.dcr_eq]
  case itir =>
    subst h21
    refine ⟨?_, hframe (by decide)⟩
    rw [hval]
    exact (readCr_itir s).2.trans (by rw [hs.dcr_eq])
  case eoi =>
    subst h67
    exact ⟨hval, hframe (by decide)⟩
  case irr =>
    refine ⟨?_, hframe (by omega)⟩
    rw [hval, hn, readCr_irr s hk]
  case ivr =>
    subst h65
    obtain ⟨hxtp, hpal⟩ := readIvr_kept s
    have htouch (v : Word) : Touch { gr := [r1], irq := true } s (s.readIvr.2.setVal r1 v) :=
      (readIvr_touch rfl).setVal v (by simp) bn_zero
    have hirr : (advanced s (s.readIvr.2.setVal r1 s.readIvr.1)).irr = s.readIvr.2.irr := by simp
    have hserved : (advanced s (s.readIvr.2.setVal r1 s.readIvr.1)).sys.inService = s.readIvr.2.sys.inService := by simp
    refine ⟨(htouch _).frame, ?xtp, ?pal, ?vector⟩
    case xtp => exact (advanced_xtp ..).trans ((State.setVal_xtp ..).trans hxtp)
    case pal => exact (advanced_palOwed ..).trans ((State.setVal_palOwed ..).trans hpal)
    case vector =>
      have hread : (advanced s (s.readIvr.2.setVal r1 s.readIvr.1)).val r1 = s.readIvr.1 := hval
      split
      next h =>
        refine ⟨hread.trans ?_, hirr.trans ?_, hserved.trans ?_⟩
        all_goals simp only [readIvr_of_none h]
      next v h =>
        refine ⟨hread.trans ?_, hirr.trans ?_, hserved.trans ?_⟩
        all_goals simp only [readIvr_of_some h, State.mapSys_irr, State.mapSys_sys, Sys.serve]

end Machine
end Sys2Proof
end

section
/-!
The moves of application registers (ApplicationRegisterMoves): their forms, with the source of each, and their checks
(41_cr_and_serialization_instructions.md R362, R363, R373).
-/
namespace Sys2Proof
namespace Machine

/-- A move to an application register: the NaT bit and the value of its source. ITC is written from the M unit only. -/
inductive ArWrite (s : State) (qp : BitVec 6) (ar3 : BitVec 7) : Instr → Bool → Word → Prop
  | fromGr (r2) : ArWrite s qp ar3 (.movToAr qp ar3 r2) (s.nat r2) (s.val r2)
  | fromImm (imm) : ArWrite s qp ar3 (.movArImm qp ar3 imm) false (imm.signExtend 64)
  | iFromGr (r2) : ar3 ≠ 44 → ArWrite s qp ar3 (.movI qp (.toAr ar3 r2)) (s.nat r2) (s.val r2)
  | iFromImm (imm) : ar3 ≠ 44 → ArWrite s qp ar3 (.movI qp (.toArImm ar3 imm)) false (imm.signExtend 64)

/-- A move from an application register; ITC is read from the M unit only. -/
inductive ArRead (qp : BitVec 6) (r1 ar3 : BitVec 7) : Instr → Prop
  | toGr : ArRead qp r1 ar3 (.movFromAr qp r1 ar3)
  | iToGr : ar3 ≠ 44 → ArRead qp r1 ar3 (.movI qp (.fromAr r1 ar3))

section
variable {s : State} {qp : BitVec 6} {ar3 : BitVec 7} {i : Instr}

/-- The I unit's own check passes where the register is not ITC. -/
theorem chkIllegal_itc_of_ne (h : ar3 ≠ 44) : (chkIllegal (decide (ar3.toNat = Ar.itc))).1 = false :=
  decide_eq_false fun hc => h (BitVec.toNat_inj.mp hc)

/-- Every form is one write behind the same checks. -/
theorem ArWrite.exec_eq {nat : Bool} {v : Word} (h : ArWrite s qp ar3 i nat v) (hp : s.pred qp = true) :
    exec i s = guarded s (arWriteChecks s ar3.toNat nat) (finish s (s.setAr ar3.toNat v)) := by
  cases h with
  | fromGr | fromImm => exact predicated_true hp
  | iFromGr _ h44 | iFromImm _ h44 => exact (predicated_true hp).trans (guarded_skips (chkIllegal_itc_of_ne h44))

theorem ArRead.exec_eq {r1 : BitVec 7} (h : ArRead qp r1 ar3 i) (hp : s.pred qp = true) :
    exec i s = guarded s (arReadChecks s r1 ar3.toNat) (finish s (s.setVal r1 (s.getAr ar3.toNat))) := by
  cases h with
  | toGr => exact predicated_true hp
  | iToGr h44 => exact (predicated_true hp).trans (guarded_skips (chkIllegal_itc_of_ne h44))

/-- A plain application register takes the value. -/
theorem setAr_completes {n : Nat} (v : Word) (hq : Quiet s) (hn : n < 128) (hi : n ≠ Ar.itc) :
    finish s (s.setAr n v) = .next (advanced s (s.setAr n v)) ∧ (advanced s (s.setAr n v)).getAr n = v ∧
      Frame { ar := [n] } s (advanced s (s.setAr n v)) := by
  have htouch : Touch { ar := [n] } s (s.setAr n v) := (Touch.refl _ s).setAr v (by simp) hi
  exact ⟨htouch.completes hq it_zero vm_zero, (getAr_congr hi (advanced_ar ..)).trans (getAr_setAr_self hn hi), htouch.frame⟩

theorem setAr_itc (s : State) (v : Word) : s.setAr Ar.itc v = s.pushSys fun y => { y with itc := v } := rfl

/-- ITC takes the value, and the old one stays in flight. -/
theorem setItc_completes (v : Word) (hq : Quiet s) :
    finish s (s.setAr Ar.itc v) = .next (advanced s (s.setAr Ar.itc v)) ∧ (advanced s (s.setAr Ar.itc v)).sys.itc = v ∧
      s.sys.onPsr clearOneShot ∈ (advanced s (s.setAr Ar.itc v)).dataOld ∧
      Frame { files := [.itc], data := true, fetch := true } s (advanced s (s.setAr Ar.itc v)) := by
  have hitc : SysTouch { files := [.itc], data := true, fetch := true } s.sys { s.sys with itc := v } := by
    constructor <;> simp
  have htouch : Touch { files := [.itc], data := true, fetch := true } s (s.setAr Ar.itc v) := by
    rw [setAr_itc]
    exact .pushed s _ hitc
  refine ⟨htouch.completes hq it_zero vm_zero, ?_, mem_advanced_dataOld rfl rfl, htouch.frame⟩
  rw [advanced_sys]
  rfl

/-- What lets a write through. -/
theorem arWriteChecks_pass (hnamed : arNamed ar3.toNat = true) (hcpl : ar3.toNat < 8 ∨ ar3 = 44 → s.cpl = 0)
    (hvm : ar3 = 44 → s.vm = false) : ∀ c ∈ arWriteChecks s ar3.toNat false, c.1 = false := by
  have hitc (h : ar3.toNat = Ar.itc) : ar3 = 44 := BitVec.toNat_inj.mp h
  have hlevel : ((isKr ar3.toNat || decide (ar3.toNat = Ar.itc)) && decide (s.cpl ≠ 0)) = false := by
    simp only [isKr, Bool.and_eq_false_imp, Bool.or_eq_true, decide_eq_true_eq, decide_eq_false_iff_not, not_not]
    exact fun h => hcpl (h.imp_right hitc)
  have hvirt : (decide (ar3.toNat = Ar.itc) && s.vm) = false := by
    simp only [Bool.and_eq_false_imp, decide_eq_true_eq]
    exact fun h => hvm (hitc h)
  simp only [arWriteChecks, List.forall_mem_cons]
  exact ⟨by simp [chkIllegal, hnamed], trivial, hlevel, hvirt, List.forall_mem_nil _⟩

/-- What lets a read through. -/
theorem arReadChecks_pass {r1 : BitVec 7} (h1 : r1 ≠ 0) (hnamed : arNamed ar3.toNat = true)
    (hitc : ar3 = 44 → (s.dpsr Psr.si 1 = true → s.cpl = 0) ∧ (s.dpsr Psr.si = true → s.vm = false)) :
    ∀ c ∈ arReadChecks s r1 ar3.toNat, c.1 = false := by
  have h44 (h : ar3.toNat = Ar.itc) := hitc (BitVec.toNat_inj.mp h)
  have hvirt : (decide (ar3.toNat = Ar.itc) && s.vm && s.dpsr Psr.si) = false := by
    simp only [Bool.and_eq_false_imp, Bool.and_eq_true, decide_eq_true_eq]
    rintro ⟨h, hvm⟩
    by_contra hc
    rw [(h44 h).2 (by simpa using hc)] at hvm
    exact absurd hvm Bool.false_ne_true
  have hlevel : (decide (ar3.toNat = Ar.itc) && s.dpsr Psr.si 1 && decide (s.cpl ≠ 0)) = false := by
    simp only [Bool.and_eq_false_imp, Bool.and_eq_true, decide_eq_true_eq, decide_eq_false_iff_not, not_not]
    exact fun ⟨h, hsi⟩ => (h44 h).1 hsi
  simp only [arReadChecks, List.forall_mem_cons]
  exact ⟨decide_eq_false h1, by simp [chkIllegal, hnamed], hvirt, hlevel, List.forall_mem_nil _⟩

end

/-- Settles O32: each form is one write or one read; ITC is the one register whose old value stays in flight. -/
theorem applicationRegisterMoves : Obligations.ApplicationRegisterMoves := by
  unfold Obligations.ApplicationRegisterMoves
  refine ⟨?write, ?read⟩
  case write =>
    intro qp ar3 r2 imm s i v hp hnamed hcpl hvm hq hform
    have hwrite : ArWrite s qp ar3 i false v := by
      rcases hform with ⟨rfl, hn, rfl⟩ | ⟨rfl, rfl⟩ | ⟨rfl, h44, hn, rfl⟩ | ⟨rfl, h44, rfl⟩
      · exact hn ▸ .fromGr r2
      · exact .fromImm imm
      · exact hn ▸ .iFromGr r2 h44
      · exact .iFromImm imm h44
    have hexec := (hwrite.exec_eq hp).trans (guarded_pass (arWriteChecks_pass hnamed hcpl hvm))
    by_cases h44 : ar3 = 44
    · subst h44
      obtain ⟨hnext, hitc, hold, hframe⟩ := setItc_completes v hq
      exact ⟨_, hexec.trans hnext, fun h => absurd rfl h, fun _ => ⟨hitc, hold, hframe⟩⟩
    · obtain ⟨hnext, hread, hframe⟩ := setAr_completes v hq ar3.isLt fun h => h44 (BitVec.toNat_inj.mp h)
      exact ⟨_, hexec.trans hnext, fun _ => ⟨hread, hframe⟩, fun h => absurd h h44⟩
  case read =>
    intro qp r1 ar3 s i hp h1 hnamed hitc hq hform
    have hread : ArRead qp r1 ar3 i := by
      rcases hform with rfl | ⟨rfl, h44⟩
      · exact .toGr
      · exact .iToGr h44
    obtain ⟨t, hnext, hrest⟩ := setVal_completes (s.getAr ar3.toNat) hq h1
    exact ⟨t, ((hread.exec_eq hp).trans (guarded_pass (arReadChecks_pass h1 hnamed hitc))).trans hnext, hrest⟩

end Machine
end Sys2Proof
end

section
/-!
The serializations (Serialization).
-/
namespace Sys2Proof
namespace Machine

/-- A data serialization drops views only. -/
theorem dataSerialize_touch (s : State) : Touch { serial := true } s s.dataSerialize := by
  constructor
  case sys => exact .refl _ _
  all_goals simp

/-- srlz.i leaves a mark for the end of its group. -/
theorem requestSrlzI_touch (s : State) : Touch { serial := true } s s.requestSrlzI := by
  constructor
  case sys => exact .refl _ _
  all_goals simp

/-- The data views after completion, the one-instruction bits of each cleared. -/
theorem advanced_dataOld_eq (s t : State) :
    (advanced s t).dataOld =
      (if s.ctx.stopAfter && t.srlzI then t.dataOld.take t.dataWrites else t.dataOld).map (Sys.onPsr clearOneShot) := by
  rw [advanced_dataOld]
  cases s.ctx.stopAfter <;> cases t.srlzI <;> simp [List.map_take]

theorem advanced_fetchOld_eq (s t : State) :
    (advanced s t).fetchOld =
      (if s.ctx.stopAfter && t.srlzI then t.fetchOld.take t.fetchWrites else t.fetchOld).map (Sys.onPsr clearOneShot) := by
  rw [advanced_fetchOld]
  cases s.ctx.stopAfter <;> cases t.srlzI <;> simp [List.map_take]

/-- What a fetch may see of old bytes after an instruction that leaves them alone. -/
theorem advanced_stale_eq {s t : State} (h : t.stale = s.stale) :
    (advanced s t).stale = staleAfter {} { s with srlzI := t.srlzI } := by
  rw [advanced_stale, h, staleAfter, Footprint.ends, Bool.or_false]

/-- A srlz.i counts until the end of its group. -/
theorem advanced_srlzI_eq (s t : State) : (advanced s t).srlzI = (t.srlzI && !s.ctx.stopAfter) := by
  rw [advanced_srlzI]
  cases s.ctx.stopAfter <;> simp

theorem endGroup_of_srlzI {u : State} (h : u.srlzI = true) :
    u.endGroup.dataOld = u.dataOld.take u.dataWrites ∧ u.endGroup.fetchOld = u.fetchOld.take u.fetchWrites := by
  rw [State.endGroup, if_pos h]
  exact ⟨rfl, rfl⟩

/-- Settles O36: each is one change of the views or of the mark, completed. -/
theorem serialization : Obligations.Serialization := by
  unfold Obligations.Serialization
  intro qp s hp hq
  refine ⟨⟨_, (predicated_true hp).trans ((dataSerialize_touch s).completes hq it_zero vm_zero), ?dataD, ?fetchD, ?markD,
      advanced_stale_eq rfl, (dataSerialize_touch s).frame⟩,
    ⟨_, (predicated_true hp).trans ((requestSrlzI_touch s).completes hq it_zero vm_zero), ?dataI, ?fetchI, ?markI,
      advanced_stale_eq rfl, (requestSrlzI_touch s).frame⟩, fun u => endGroup_of_srlzI⟩
  case dataD =>
    rw [advanced_dataOld_eq, State.dataSerialize_dataOld, State.dataSerialize_dataWrites, List.take_take, Nat.min_self, ite_self]
  case fetchD => exact advanced_fetchOld_eq ..
  case markD => exact advanced_srlzI_eq ..
  case dataI => simp only [advanced_dataOld_eq, State.requestSrlzI_srlzI, Bool.and_true]; rfl
  case fetchI => simp only [advanced_fetchOld_eq, State.requestSrlzI_srlzI, Bool.and_true]; rfl
  case markI => exact advanced_srlzI_eq ..

end Machine
end Sys2Proof
end

section
/-!
When a move of a special register stops (SpecialRegisterStops): the first check that fails, move by move.
-/
namespace Sys2Proof
namespace Machine

section
variable {s : State} {qp : BitVec 6} (hp : s.pred qp = true)

/-! Control registers. -/

section
variable {cr3 : BitVec 7}
include hp

theorem movToCr_illegal (r2 : BitVec 7)
    (h : crDefined cr3.toNat = false ∨ crReadOnly cr3.toNat = true ∨ crBarred s cr3.toNat = true) :
    exec (.movToCr qp cr3 r2) s = raise s excIllegalOperation := by
  refine (exec_movToCr cr3 r2 hp).trans (guarded_raises ?_)
  rcases h with h | h | h <;> simp [chkIllegal, h]

theorem movFromCr_illegal (r1 : BitVec 7) (h : crDefined cr3.toNat = false ∨ crBarred s cr3.toNat = true) :
    exec (.movFromCr qp r1 cr3) s = raise s excIllegalOperation := by
  have hbad : (chkIllegal (!crDefined cr3.toNat || crBarred s cr3.toNat)).1 = true := by
    rcases h with h | h <;> simp [chkIllegal, h]
  rw [exec_movFromCr r1 cr3 hp, crReadChecks]
  by_cases h1 : r1 = 0
  · exact guarded_raises (decide_eq_true h1)
  · exact (guarded_skips (decide_eq_false h1)).trans (guarded_raises hbad)

variable (hdef : crDefined cr3.toNat = true) (hro : crReadOnly cr3.toNat = false)
  (hbar : 16 ≤ cr3.toNat → cr3.toNat ≤ 25 → s.dpsr Psr.ic = false)
include hdef hro hbar

/-- A register that may be written leaves the other checks. -/
theorem movToCr_legal (r2 : BitVec 7) :
    exec (.movToCr qp cr3 r2) s =
      guarded s [chkPriv s, chkNat s r2, chkReserved (crReserved cr3.toNat (s.val r2)),
          (ifaUnimplAtMov s cr3.toNat (s.val r2), excUnimplData (s.val r2) false false false false), chkVirt s]
        (finish s (s.writeCr cr3.toNat (s.val r2))) := by
  refine (exec_movToCr cr3 r2 hp).trans (guarded_skips ?_)
  simp [chkIllegal, hdef, hro, crBarred_eq_false_iff.mpr hbar]

theorem movToCr_level (r2 : BitVec 7) (hcpl : s.cpl ≠ 0) :
    exec (.movToCr qp cr3 r2) s = raise s excPrivilegedOperation :=
  (movToCr_legal hp hdef hro hbar r2).trans (guarded_raises (chkPriv_of_level hcpl))

variable (hcpl : s.cpl = 0)
include hcpl

theorem movToCr_nat {r2 : BitVec 7} (hn : s.nat r2 = true) :
    exec (.movToCr qp cr3 r2) s = raise s { off := 0x5600, code := 0x10 } :=
  (movToCr_legal hp hdef hro hbar r2).trans ((guarded_skips (chkPriv_of_level0 hcpl)).trans (guarded_raises hn))

theorem movToCr_reserved {r2 : BitVec 7} (hn : s.nat r2 = false) (hr : crReserved cr3.toNat (s.val r2) = true) :
    exec (.movToCr qp cr3 r2) s = raise s excReservedField :=
  (movToCr_legal hp hdef hro hbar r2).trans
    ((guarded_skips (chkPriv_of_level0 hcpl)).trans ((guarded_skips hn).trans (guarded_raises hr)))

/-- IFA has no reserved value; an unimplemented address in it is checked on some processors. -/
theorem movToCr_ifa {r2 : BitVec 7} (h20 : cr3 = 20) (hn : s.nat r2 = false) (hcheck : Config.ifaCheckAtMov = true)
    (hva : unimplVa s.vm (s.val r2) = true) :
    exec (.movToCr qp cr3 r2) s = raise s { off := 0x5400, code := 0x30, ifa := some (s.val r2) } := by
  rw [movToCr_legal hp hdef hro hbar r2]
  subst h20
  have hunimpl : ifaUnimplAtMov s 20 (s.val r2) = true := by simp [ifaUnimplAtMov, hva, hcheck]
  exact (guarded_skips (chkPriv_of_level0 hcpl)).trans
    ((guarded_skips hn).trans ((guarded_skips (show (chkReserved (crReserved 20 (s.val r2))).1 = false from rfl)).trans
      (guarded_raises hunimpl)))

end

/-! Application registers. -/

section
variable {ar3 : BitVec 7} {i : Instr}

theorem arNamed_of_level {n : Nat} (h : n < 8 ∨ n = Ar.itc) : arNamed n = true := by
  rcases h with h | rfl
  · simp [arNamed, h]
  · rfl

include hp

theorem ArWrite.illegal {nat : Bool} {v : Word} (h : ArWrite s qp ar3 i nat v) (hno : arNamed ar3.toNat = false) :
    exec i s = raise s excIllegalOperation :=
  (h.exec_eq hp).trans (guarded_raises (by simp [chkIllegal, hno]))

theorem ArWrite.natConsumption {v : Word} (h : ArWrite s qp ar3 i true v) (hnamed : arNamed ar3.toNat = true) :
    exec i s = raise s { off := 0x5600, code := 0x10 } :=
  (h.exec_eq hp).trans ((guarded_skips (by simp [chkIllegal, hnamed])).trans (guarded_raises rfl))

theorem ArWrite.privilegedRegister {v : Word} (h : ArWrite s qp ar3 i false v) (hreg : ar3.toNat < 8 ∨ ar3 = 44)
    (hcpl : s.cpl ≠ 0) : exec i s = raise s excPrivilegedRegister := by
  have hnum : ar3.toNat < 8 ∨ ar3.toNat = Ar.itc := hreg.imp_right (congrArg BitVec.toNat)
  have hbad : ((isKr ar3.toNat || decide (ar3.toNat = Ar.itc)) && decide (s.cpl ≠ 0)) = true := by
    rw [decide_eq_true hcpl, Bool.and_true, isKr, Bool.or_eq_true, decide_eq_true_eq, decide_eq_true_eq]
    exact hnum
  exact (h.exec_eq hp).trans ((guarded_skips (by simp [chkIllegal, arNamed_of_level hnum])).trans
    ((guarded_skips rfl).trans (guarded_raises hbad)))

theorem ArRead.illegal {r1 : BitVec 7} (h : ArRead qp r1 ar3 i) (hno : r1 = 0 ∨ arNamed ar3.toNat = false) :
    exec i s = raise s excIllegalOperation := by
  rw [h.exec_eq hp, arReadChecks]
  by_cases h1 : r1 = 0
  · exact guarded_raises (decide_eq_true h1)
  · exact (guarded_skips (decide_eq_false h1)).trans (guarded_raises (by simp [chkIllegal, hno.resolve_left h1]))

/-- A secured ITC outside a virtual machine. -/
theorem ArRead.privilegedRegister {r1 : BitVec 7} (h : ArRead qp r1 44 i) (h1 : r1 ≠ 0) (hvm : s.vm = false)
    (hsi : s.dpsr Psr.si 1 = true) (hcpl : s.cpl ≠ 0) : exec i s = raise s excPrivilegedRegister := by
  have hvirt : (decide ((44 : BitVec 7).toNat = Ar.itc) && s.vm && s.dpsr Psr.si) = false := by
    rw [hvm, Bool.and_false, Bool.false_and]
  have hlevel : (decide ((44 : BitVec 7).toNat = Ar.itc) && s.dpsr Psr.si 1 && decide (s.cpl ≠ 0)) = true := by
    rw [hsi, decide_eq_true hcpl]
    rfl
  exact (h.exec_eq hp).trans ((guarded_skips (decide_eq_false h1)).trans ((guarded_skips rfl).trans
    ((guarded_skips hvirt).trans (guarded_raises hlevel))))

/-- The I unit does not reach ITC. -/
theorem movI_itc (r1 r2 : BitVec 7) (imm : BitVec 8) :
    exec (.movI qp (.toAr 44 r2)) s = raise s excIllegalOperation ∧
      exec (.movI qp (.toArImm 44 imm)) s = raise s excIllegalOperation ∧
      exec (.movI qp (.fromAr r1 44)) s = raise s excIllegalOperation := by
  have hitc : (chkIllegal (decide ((44 : BitVec 7).toNat = Ar.itc))).1 = true := rfl
  exact ⟨(predicated_true hp).trans (guarded_raises hitc), (predicated_true hp).trans (guarded_raises hitc),
    (predicated_true hp).trans (guarded_raises hitc)⟩

end

/-! Indirect registers. -/

/-- A number at or above the implemented count. -/
theorem beyond_of_le {v : Word} {least count : Nat} (hl : least ≤ count) (h : count ≤ (v.extractLsb' 0 8).toNat) :
    beyond (index8 v) least count = true := by
  have hn : count ≤ index8 v := h
  rw [beyond, decide_eq_true (hl.trans hn), decide_eq_true hn, Bool.and_self]

section
variable {r1 r2 r3 : BitVec 7} (k : Out)

theorem indirectWrite_nat (hcpl : s.cpl = 0) (hn : s.nat r3 = true ∨ s.nat r2 = true) (bad : Bool) :
    guarded s (indirectWriteChecks s r3 r2 bad) k = raise s { off := 0x5600, code := 0x10 } :=
  (guarded_skips (chkPriv_of_level0 hcpl)).trans (guarded_raises (by simpa using hn))

theorem indirectWrite_reserved (hcpl : s.cpl = 0) (h3 : s.nat r3 = false) (h2 : s.nat r2 = false) {bad : Bool}
    (hbad : bad = true) : guarded s (indirectWriteChecks s r3 r2 bad) k = raise s excReservedField :=
  (guarded_skips (chkPriv_of_level0 hcpl)).trans ((guarded_skips (by rw [h3, h2]; rfl)).trans (guarded_raises hbad))

theorem indirectRead_nat (h1 : r1 ≠ 0) (hcpl : s.cpl = 0) (hn : s.nat r3 = true) (bad : Bool) :
    guarded s (indirectReadChecks s r1 r3 bad) k = raise s { off := 0x5600, code := 0x10 } :=
  (guarded_skips (decide_eq_false h1)).trans ((guarded_skips (chkPriv_of_level0 hcpl)).trans (guarded_raises hn))

theorem indirectRead_reserved (h1 : r1 ≠ 0) (hcpl : s.cpl = 0) (h3 : s.nat r3 = false) {bad : Bool} (hbad : bad = true) :
    guarded s (indirectReadChecks s r1 r3 bad) k = raise s excReservedField :=
  (guarded_skips (decide_eq_false h1)).trans ((guarded_skips (chkPriv_of_level0 hcpl)).trans
    ((guarded_skips h3).trans (guarded_raises hbad)))

/-- The reads at any level. -/
theorem plainRead_nat (h1 : r1 ≠ 0) (hn : s.nat r3 = true) (l : List Check) :
    guarded s (chkTarget r1 :: chkNat s r3 :: l) k = raise s { off := 0x5600, code := 0x10 } :=
  (guarded_skips (decide_eq_false h1)).trans (guarded_raises hn)

theorem plainRead_reserved (h1 : r1 ≠ 0) (h3 : s.nat r3 = false) {bad : Bool} (hbad : bad = true) (l : List Check) :
    guarded s (chkTarget r1 :: chkNat s r3 :: chkReserved bad :: l) k = raise s excReservedField :=
  (guarded_skips (decide_eq_false h1)).trans ((guarded_skips h3).trans (guarded_raises hbad))

end
end

/-- Settles O33: each stop is the first check of its move that fails. -/
theorem specialRegisterStops : Obligations.SpecialRegisterStops := by
  unfold Obligations.SpecialRegisterStops
  intro qp r1 r2 r3 cr3 ar3 imm s hp
  have hrun (k : Out) : predicated qp s k = k := predicated_true hp
  have hdbr : 8 ≤ Config.numDbr := Nat.le_add_right ..
  have hibr : 8 ≤ Config.numIbr := Nat.le_add_right ..
  have hpm : 8 ≤ Config.numPm := Nat.le_add_right ..
  have hpkr : 16 ≤ Config.numPkr := Nat.le_add_right ..
  have hcpuid : 1 ≤ Config.numCpuid := Nat.le_add_right ..
  refine ⟨⟨?crIllegal, ?crReadOnly⟩, ?crWrite, ?arWrite, movI_itc hp r1 r2 imm, ?arRead,
    fun hcpl => ⟨?writeNat, ?write, ?readNat, ?read⟩, ?plainNat, ?plain⟩
  case crIllegal =>
    intro h
    have hbad : crDefined cr3.toNat = false ∨ crBarred s cr3.toNat = true := h.imp_right crBarred_eq_true_iff.mpr
    exact ⟨movToCr_illegal hp r2 (hbad.imp_right .inr), movFromCr_illegal hp r1 hbad⟩
  case crReadOnly =>
    intro h
    refine movToCr_illegal hp r2 (.inr (.inl ?_))
    rcases h with rfl | h
    · rfl
    · simp [crReadOnly, h]
  case crWrite =>
    intro hdef hro hbar
    exact ⟨movToCr_level hp hdef hro hbar r2, fun hcpl => movToCr_nat hp hdef hro hbar hcpl,
      fun hcpl => movToCr_reserved hp hdef hro hbar hcpl, fun h20 hcpl => movToCr_ifa hp hdef hro hbar hcpl h20⟩
  case arWrite =>
    intro i nat hform
    obtain ⟨v, hwrite⟩ : ∃ v, ArWrite s qp ar3 i nat v := by
      rcases hform with ⟨rfl, rfl⟩ | ⟨rfl, rfl⟩ | ⟨rfl, rfl, h44⟩ | ⟨rfl, rfl, h44⟩
      · exact ⟨_, .fromGr r2⟩
      · exact ⟨_, .fromImm imm⟩
      · exact ⟨_, .iFromGr r2 h44⟩
      · exact ⟨_, .iFromImm imm h44⟩
    exact ⟨hwrite.illegal hp, fun hnamed hn => (hn ▸ hwrite).natConsumption hp hnamed,
      fun hn => (hn ▸ hwrite).privilegedRegister hp⟩
  case arRead =>
    intro i hform
    have hread : ArRead qp r1 ar3 i := by
      rcases hform with rfl | ⟨rfl, h44⟩
      · exact .toGr
      · exact .iToGr h44
    refine ⟨hread.illegal hp, fun h1 h44 => ?_⟩
    subst h44
    exact hread.privilegedRegister hp h1
  case writeNat =>
    intro hn
    have hstop (bad : Bool) (k : Out) :
        predicated qp s (guarded s (indirectWriteChecks s r3 r2 bad) k) = raise s { off := 0x5600, code := 0x10 } :=
      (hrun _).trans (indirectWrite_nat k hcpl hn bad)
    simp only [List.forall_mem_cons]
    exact ⟨hstop _ _, hstop _ _, hstop _ _, hstop _ _, hstop _ _, hstop _ _, List.forall_mem_nil _⟩
  case write =>
    intro h3 h2
    have hstop {bad : Bool} (hbad : bad = true) (k : Out) :
        predicated qp s (guarded s (indirectWriteChecks s r3 r2 bad) k) = raise s excReservedField :=
      (hrun _).trans (indirectWrite_reserved k hcpl h3 h2 hbad)
    exact ⟨fun h => hstop h _, fun h => hstop h _, fun h => hstop (beyond_of_le hdbr h) _,
      fun h => hstop (beyond_of_le hibr h) _, fun h => ⟨hstop (beyond_of_le hpm h) _, hstop (beyond_of_le hpm h) _⟩⟩
  case readNat =>
    intro h1 hn
    have hstop (bad : Bool) (k : Out) :
        predicated qp s (guarded s (indirectReadChecks s r1 r3 bad) k) = raise s { off := 0x5600, code := 0x10 } :=
      (hrun _).trans (indirectRead_nat k h1 hcpl hn bad)
    simp only [List.forall_mem_cons]
    exact ⟨hstop _ _, hstop _ _, hstop _ _, hstop _ _, hstop _ _, List.forall_mem_nil _⟩
  case read =>
    intro h1 h3
    have hstop {bad : Bool} (hbad : bad = true) (k : Out) :
        predicated qp s (guarded s (indirectReadChecks s r1 r3 bad) k) = raise s excReservedField :=
      (hrun _).trans (indirectRead_reserved k h1 hcpl h3 hbad)
    exact ⟨fun h => hstop (beyond_of_le hpkr h) _, fun h => hstop (beyond_of_le hdbr h) _,
      fun h => hstop (beyond_of_le hibr h) _, fun h => hstop (beyond_of_le hpm h) _⟩
  case plainNat =>
    intro h1 hn
    simp only [List.forall_mem_cons]
    exact ⟨(hrun _).trans (plainRead_nat _ h1 hn _), (hrun _).trans (plainRead_nat _ h1 hn _), List.forall_mem_nil _⟩
  case plain =>
    intro h1 h3
    exact ⟨fun h => (hrun _).trans (plainRead_reserved _ h1 h3 (beyond_of_le hpm h) _),
      fun h => (hrun _).trans (plainRead_reserved _ h1 h3 (beyond_of_le hcpuid h) _)⟩

end Machine
end Sys2Proof
end

section
/-!
SUPPORT. A write of the serializable resources that stays in flight, once it has completed (70_reset_and_hazards.md R556).
-/
namespace Sys2Proof
namespace Machine

/-- The footprint of an instruction that leaves the old resources in flight, changes no PSR bit and does not branch. -/
structure Footprint.Pushes (f : Footprint) : Prop where
  psr : f.psr = 0
  data : f.data = true
  fetch : f.fetch = true
  jump : f.jump = false

/-- The old resources are in flight for both consumers, and nothing else has changed outside a footprint. -/
structure Pushed (f : Footprint) (s t : State) : Prop where
  data : s.sys.onPsr clearOneShot ∈ t.dataOld
  fetch : s.sys.onPsr clearOneShot ∈ t.fetchOld
  frame : Frame f s t

/-- An instruction that has put the resources in flight completes. -/
theorem Touch.pushes {f : Footprint} {s u : State} (h : Touch f s u) (hq : Quiet s) (hdata : u.dataOld = s.sys :: s.dataOld)
    (hfetch : u.fetchOld = s.sys :: s.fetchOld) (hf : f.Pushes := by exact ⟨rfl, rfl, rfl, rfl⟩) :
    finish s u = .next (advanced s u) ∧ Pushed f s (advanced s u) := by
  have hdw : u.dataWrites = s.dataWrites + 1 := by simpa [hf.data] using h.dataWrites
  have hfw : u.fetchWrites = s.fetchWrites + 1 := by simpa [hf.fetch] using h.fetchWrites
  exact ⟨h.completes hq (hf.psr ▸ it_zero) (hf.psr ▸ vm_zero), mem_advanced_dataOld hdata hdw,
    mem_advanced_fetchOld hfetch hfw, h.frame hf.jump⟩

/-- The same where the write of the resources is all that the instruction does. -/
theorem SysTouch.pushes {f : Footprint} {s : State} {g : Sys → Sys} (h : SysTouch f s.sys (g s.sys)) (hq : Quiet s)
    (hf : f.Pushes := by exact ⟨rfl, rfl, rfl, rfl⟩) :
    ∃ t, finish s (s.pushSys g) = .next t ∧ t.sys = (g s.sys).onPsr clearOneShot ∧ Pushed f s t := by
  have htouch : Touch f s (s.pushSys g) := .pushed s g h hf.data hf.fetch
  obtain ⟨hnext, hpushed⟩ := htouch.pushes hq rfl rfl hf
  exact ⟨_, hnext, advanced_sys .., hpushed⟩

end Machine
end Sys2Proof
end

section
/-!
The moves of the indirect registers (IndirectWrites, IndirectReads): what their checks let through, and the monitors
(42_translation_instructions.md R382 to R385; 41_cr_and_serialization_instructions.md R366 to R370).
-/
namespace Sys2Proof
namespace Machine

/-- A number below the implemented count. -/
theorem beyond_of_lt {v : Word} {least count : Nat} (h : (v.extractLsb' 0 8).toNat < count) :
    beyond (index8 v) least count = false := by
  have hn : ¬count ≤ index8 v := Nat.not_le.mpr h
  rw [beyond, decide_eq_false hn, Bool.and_false]

section
variable {s : State} {r1 r2 r3 : BitVec 7} {bad : Bool} (k : Out)

theorem indirectWrite_passes (hcpl : s.cpl = 0) (h3 : s.nat r3 = false) (h2 : s.nat r2 = false) (hvm : s.vm = false)
    (hbad : bad = false) : guarded s (indirectWriteChecks s r3 r2 bad) k = k :=
  guarded_pass (by simp [indirectWriteChecks, chkPriv, chkReserved, chkVirt, hcpl, h3, h2, hvm, hbad])

theorem indirectRead_passes (h1 : r1 ≠ 0) (hcpl : s.cpl = 0) (h3 : s.nat r3 = false) (hvm : s.vm = false)
    (hbad : bad = false) : guarded s (indirectReadChecks s r1 r3 bad) k = k := by
  refine guarded_pass ?_
  simpa [indirectReadChecks, chkTarget, chkPriv, chkNat, chkReserved, chkVirt, hcpl, h3, hvm, hbad] using h1

end

/-! The performance monitors. -/

theorem writePmd_touch (s : State) (i : Nat) (v : Word) :
    Touch { files := [.pmd], data := true, fetch := true } s (s.writePmd i v) := by
  have hfile : SysTouch { files := [.pmd], data := true, fetch := true } s.sys { s.sys with pmd := wr s.sys.pmd i v } := by
    constructor <;> simp
  have hpush : Touch { files := [.pmd], data := true, fetch := true } s
      (s.pushSys fun y => { y with pmd := wr y.pmd i v }) := .pushed s _ hfile
  exact { hpush with pmdKnown := by simp }

/-- A written monitor has a known value. -/
theorem writePmd_known {s : State} {i : Nat} (v : Word) (hi : i < 256) (j : Nat) :
    (s.writePmd i v).pmdKnown.getLsbD j = (s.pmdKnown.getLsbD j || decide (j = i)) := by
  have hbit : (1#256 <<< i).getLsbD j = decide (j = i) := by
    rw [← BitVec.twoPow_eq, BitVec.getLsbD_twoPow, decide_eq_true hi, Bool.true_and]
    exact decide_eq_decide.mpr eq_comm
  rw [← hbit]
  exact BitVec.getLsbD_or

theorem readPmd_secured {s : State} (i : Nat) (hsp : s.dpsr Psr.sp = true) (hcpl : s.cpl ≠ 0) : s.readPmd i = 0 :=
  if_pos (by rw [hsp, decide_eq_true hcpl, Bool.and_self])

theorem readPmd_visible {s : State} {i : Nat} (hvisible : s.dpsr Psr.sp = false ∨ s.cpl = 0)
    (hknown : s.pmdKnown.getLsbD i = true) :
    s.readPmd i = rd s.sys.pmd i 0 := by
  have hseen : ¬(s.dpsr Psr.sp && decide (s.cpl ≠ 0)) = true := by
    rcases hvisible with h | h <;> simp [h]
  rw [State.readPmd, if_neg hseen, if_pos hknown]

/-- Settles O34: behind the checks each move is one write in flight, of one register file. -/
theorem indirectWrites : Obligations.IndirectWrites := by
  unfold Obligations.IndirectWrites
  rintro qp r3 r2 s n hp hcpl h3 h2 hvm hq rfl
  have hrun {bad : Bool} (hbad : bad = false) (k : Out) :
      predicated qp s (guarded s (indirectWriteChecks s r3 r2 bad) k) = k :=
    (predicated_true hp).trans (indirectWrite_passes k hcpl h3 h2 hvm hbad)
  have hnum : ((s.val r3).extractLsb' 0 8).toNat < 256 := BitVec.isLt _
  have hwrite {f : Footprint} {g : Sys → Sys} {bad : Bool} (hbad : bad = false) (hg : SysTouch f s.sys (g s.sys))
      (hf : f.Pushes := by exact ⟨rfl, rfl, rfl, rfl⟩) :
      ∃ t, predicated qp s (guarded s (indirectWriteChecks s r3 r2 bad) (finish s (s.pushSys g))) = .next t ∧
        t.sys = (g s.sys).onPsr clearOneShot ∧ Pushed f s t := by
    rw [hrun hbad]
    exact hg.pushes hq hf
  refine ⟨fun hok => ?rr, fun hok => ?pkr, fun hlt => ?dbr, fun hlt => ?ibr, fun hlt => ?pmc, fun hlt => ?pmd⟩
  case rr =>
    obtain ⟨t, hnext, hsys, hdata, -, hframe⟩ := hwrite (f := { files := [.rr], data := true, fetch := true })
      (g := fun y => { y with rr := wr y.rr (vrnOf (s.val r3)).toNat (s.val r2) }) hok (by constructor <;> simp)
    exact ⟨t, hnext, congrArg Sys.rr hsys, hdata, hframe⟩
  case pkr =>
    obtain ⟨t, hnext, hsys, hdata, -, hframe⟩ := hwrite (f := { files := [.pkr], data := true, fetch := true })
      (g := writePkr (index8 (s.val r3)) (s.val r2)) hok (by constructor <;> simp [writePkr])
    have hpkr : t.sys.pkr = (writePkr ((s.val r3).extractLsb' 0 8).toNat (s.val r2) s.sys).pkr := by
      rw [hsys]
      rfl
    refine ⟨t, hnext, ?_, fun j hj hne => ?_, hdata, hframe⟩
    · rw [hpkr, rd_writePkr_self _ _ hnum]
    · rw [hpkr, rd_writePkr_ne _ _ hj hne]
      refine if_congr ?_ rfl rfl
      rw [Bool.and_eq_true, Bool.and_eq_true, decide_eq_true_eq, and_assoc]
      rfl
  case dbr =>
    obtain ⟨t, hnext, hsys, hdata, -, hframe⟩ := hwrite (f := { files := [.dbr], data := true, fetch := true })
      (g := fun y => { y with dbr := wr y.dbr (index8 (s.val r3)) (s.val r2) }) (beyond_of_lt hlt) (by constructor <;> simp)
    exact ⟨t, hnext, congrArg Sys.dbr hsys, hdata, hframe⟩
  case ibr =>
    obtain ⟨t, hnext, hsys, -, hfetch, hframe⟩ := hwrite (f := { files := [.ibr], data := true, fetch := true })
      (g := fun y => { y with ibr := wr y.ibr (index8 (s.val r3)) (s.val r2) }) (beyond_of_lt hlt) (by constructor <;> simp)
    exact ⟨t, hnext, congrArg Sys.ibr hsys, hfetch, hframe⟩
  case pmc =>
    obtain ⟨t, hnext, hsys, hdata, -, hframe⟩ := hwrite (f := { files := [.pmc], data := true, fetch := true })
      (g := fun y => { y with pmc := wr y.pmc (index8 (s.val r3)) (s.val r2) }) (beyond_of_lt hlt) (by constructor <;> simp)
    exact ⟨t, hnext, congrArg Sys.pmc hsys, hdata, hframe⟩
  case pmd =>
    obtain ⟨hnext, hdata, -, hframe⟩ :=
      (writePmd_touch s (index8 (s.val r3)) (s.val r2)).pushes hq rfl rfl
    refine ⟨_, (hrun (beyond_of_lt hlt) _).trans hnext, congrArg Sys.pmd (advanced_sys ..), fun j => ?_, hdata, hframe⟩
    rw [advanced_pmdKnown]
    exact writePmd_known _ hnum j

/-- Settles O35: behind the checks each move is the register's value moved to the target. -/
theorem indirectReads : Obligations.IndirectReads := by
  unfold Obligations.IndirectReads
  intro qp r1 r3 s hp
  have hrun (k : Out) : predicated qp s k = k := predicated_true hp
  refine ⟨fun h1 => ?gr0, fun h1 h3 hq hlt => ?pmd, fun h1 h3 hvm hq => ?others⟩
  case gr0 =>
    have hstop (l : List Check) (k : Out) : predicated qp s (guarded s (chkTarget r1 :: l) k) = raise s excIllegalOperation :=
      (hrun _).trans (guarded_raises (decide_eq_true h1))
    simp only [List.forall_mem_cons]
    exact ⟨hstop _ _, hstop _ _, hstop _ _, hstop _ _, hstop _ _, hstop _ _, hstop _ _, List.forall_mem_nil _⟩
  case pmd =>
    obtain ⟨t, hnext, hreg, hframe⟩ := setVal_completes (s.readPmd (index8 (s.val r3))) hq h1
    have hpass : ∀ c ∈ [chkTarget r1, chkNat s r3, chkReserved (beyond (index8 (s.val r3)) 8 Config.numPm)], c.1 = false := by
      simpa [chkTarget, chkNat, chkReserved, h3, beyond_of_lt hlt] using h1
    have hval : t.val r1 = s.readPmd (index8 (s.val r3)) := congrArg GReg.val hreg
    exact ⟨t, (hrun _).trans ((guarded_pass hpass).trans hnext), congrArg GReg.nat hreg,
      fun hsp hcpl => hval.trans (readPmd_secured _ hsp hcpl),
      fun hvisible hknown => hval.trans (readPmd_visible hvisible hknown), hframe⟩
  case others =>
    have hread {bad : Bool} (hcpl : s.cpl = 0) (hbad : bad = false) (v : Word) :
        ∃ t, predicated qp s (guarded s (indirectReadChecks s r1 r3 bad) (finish s (s.setVal r1 v))) = .next t ∧
          t.getGr r1 = { val := v, nat := false } ∧ Frame { gr := [r1] } s t := by
      rw [hrun, indirectRead_passes _ h1 hcpl h3 hvm hbad]
      exact setVal_completes v hq h1
    refine ⟨fun hcpl => hread hcpl rfl _, fun hcpl hlt => hread hcpl (beyond_of_lt hlt) _,
      fun hcpl hlt => hread hcpl (beyond_of_lt hlt) _, fun hcpl hlt => hread hcpl (beyond_of_lt hlt) _,
      fun hcpl hlt => hread hcpl (beyond_of_lt hlt) _, fun hlt => ?cpuid⟩
    case cpuid =>
      have hpass : ∀ c ∈ [chkTarget r1, chkNat s r3, chkReserved (beyond (index8 (s.val r3)) 1 Config.numCpuid), chkVirt s],
          c.1 = false := by
        simpa [chkTarget, chkNat, chkReserved, chkVirt, h3, hvm, beyond_of_lt hlt] using h1
      obtain ⟨t, hnext, hreg, hframe⟩ := setVal_completes (Config.cpuid (index8 (s.val r3))) hq h1
      exact ⟨t, (hrun _).trans ((guarded_pass hpass).trans hnext), hreg, hframe⟩

end Machine
end Sys2Proof
end

section
/-!
SUPPORT. The ordered checks of a non-access instruction, one at a time (20_memory.md R157; 60_exceptions.md R505).
-/
namespace Sys2Proof
namespace Machine

section
variable {s : State} {c : Check} {l : List Check} {k : Out}

theorem naChecks_raises (h : c.1 = true) : guarded s (naChecks (c :: l)) k = raise s c.2.nonAccess := if_pos h

theorem naChecks_skips (h : c.1 = false) : guarded s (naChecks (c :: l)) k = guarded s (naChecks l) k := guarded_skips h

theorem naChecks_pass (h : ∀ p ∈ l, p.1 = false) : guarded s (naChecks l) k = k := by
  refine guarded_pass fun p hp => ?_
  obtain ⟨q, hq, rfl⟩ := List.mem_map.mp hp
  exact h q hq

end

/-- Register NaT Consumption of a non-access instruction. -/
theorem regNat_nonAccess (na : Bool) :
    (excRegNat false false na).nonAccess = { off := 0x5600, code := 0x10, na := true, codeFree := 0xF } := by
  cases na <;> rfl

/-- Unimplemented Data Address of a non-access instruction. -/
theorem unimplData_nonAccess (va : Word) (na : Bool) :
    (excUnimplData va false false na false).nonAccess =
      { off := 0x5400, code := 0x30, na := true, codeFree := 0xF, ifa := some va } := by
  cases na <;> simp [excUnimplData, Exc.nonAccess]

/-- With nothing in flight a consumer sees the region register written last. -/
theorem Settled.rrAt_eq {s : State} (h : Settled s) (n u : Nat) : s.rrAt n u = rd s.sys.rr n 0 := by
  rw [State.rrAt, h.dview_eq]

end Machine
end Sys2Proof
end

section
/-!
The queries of the data TLB and of the VHPT (TranslationQueries; 42_translation_instructions.md R398 to R402).
-/
namespace Sys2Proof
namespace Machine

/-! The first fault of a reference, with and without its late checks. -/

/-- The faults of the breakpoint, alignment and support checks. -/
abbrev lateKinds : List DFault := [.debug, .unaligned, .unsupported]

theorem late_kind {s : State} {v : TransView} {ref : Ref} {attr : Attr} {p : DFault × Exc}
    (h : p ∈ failing (ref.late s v attr)) : p.1 ∈ lateKinds := by
  rw [mem_failing, Ref.late] at h
  split at h
  · simp only [lateFaults, List.mem_cons, Prod.mk.injEq, List.not_mem_nil, or_false] at h
    rcases h with ⟨hk, -⟩ | ⟨hk, -⟩ | ⟨hk, -⟩ <;> simp [hk]
  · cases h

/-- A first fault that is none of the late checks is the first fault without these checks too. -/
theorem afterSearch_unchecked {s : State} {v : TransView} {ref : Ref} {c : Checked} {f : DFault} {e : Exc}
    {rest : List (DFault × Exc)} (hf : c.faults = (f, e) :: rest) (hkind : f ∉ lateKinds) :
    ∀ x : Search, afterSearch s v ref x = .ok c →
      ∃ c' rest', afterSearch s v { ref with chk := false } x = .ok c' ∧ c'.faults = (f, e) :: rest' ∧ c'.st = c.st
  | .alternate, h | .vhptFault _, h | .miss _, h => by
    cases h
    cases hf
    exact ⟨_, _, rfl, rfl, rfl⟩
  | .found t _, h => by
    cases h
    have hsplit : failing (pageFaults s v ref t) ++ failing (ref.late s v (attrOf t.ma)) = (f, e) :: rest := by
      rw [← hf]
      exact List.filterMap_append.symm
    have hunchecked : failing (pageFaults s v ref t ++ []) = failing (pageFaults s v ref t) := by rw [List.append_nil]
    cases hpage : failing (pageFaults s v ref t) with
    | nil =>
      rw [hpage, List.nil_append] at hsplit
      exact absurd (late_kind (p := (f, e)) (hsplit ▸ List.mem_cons_self)) hkind
    | cons p l =>
      rw [hpage] at hsplit
      obtain ⟨rfl, -⟩ := List.cons.inj hsplit
      exact ⟨_, l, rfl, hunchecked.trans hpage, rfl⟩

section
variable {qp : BitVec 6} {r1 r3 : BitVec 7} {s : State}

/-! tpa. -/

/-- The checks of tpa, in their order. -/
def tpaChecks (s : State) (r1 r3 : BitVec 7) : List Check :=
  [chkTarget r1, chkPriv s, chkNat s r3,
    ((s.dataView 0).dt && unimplVa s.vm (s.val r3), excUnimplData (s.val r3) false false true false), chkVirt s]

theorem exec_tpa (hp : s.pred qp = true) :
    exec (.tpa qp r1 r3) s = guarded s (naChecks (tpaChecks s r1 r3)) (tpaOp r1 (s.val r3) s) := predicated_true hp

/-- At level 0, with a target and no NaT, the address is checked. -/
theorem exec_tpa_address (hp : s.pred qp = true) (h1 : r1 ≠ 0) (hcpl : s.cpl = 0) (hn : s.nat r3 = false) :
    exec (.tpa qp r1 r3) s =
      guarded s (naChecks [((s.dataView 0).dt && unimplVa s.vm (s.val r3), excUnimplData (s.val r3) false false true false),
        chkVirt s]) (tpaOp r1 (s.val r3) s) :=
  (exec_tpa hp).trans ((naChecks_skips (decide_eq_false h1)).trans
    ((naChecks_skips (chkPriv_of_level0 hcpl)).trans (naChecks_skips hn)))

theorem exec_tpa_passes (hp : s.pred qp = true) (h1 : r1 ≠ 0) (hcpl : s.cpl = 0) (hn : s.nat r3 = false) (hvm : s.vm = false)
    (hva : (s.dataView 0).dt = true → unimplVa s.vm (s.val r3) = false) :
    exec (.tpa qp r1 r3) s = tpaOp r1 (s.val r3) s := by
  have hunimpl : ((s.dataView 0).dt && unimplVa s.vm (s.val r3)) = false := Bool.and_eq_false_imp.mpr hva
  exact (exec_tpa_address hp h1 hcpl hn).trans ((naChecks_skips hunimpl).trans (naChecks_pass (by simp [chkVirt, hvm])))

theorem exec_tpa_unimplemented (hp : s.pred qp = true) (h1 : r1 ≠ 0) (hcpl : s.cpl = 0) (hn : s.nat r3 = false)
    (hdt : (s.dataView 0).dt = true) (hva : unimplVa s.vm (s.val r3) = true) :
    exec (.tpa qp r1 r3) s =
      raise s { off := 0x5400, code := 0x30, na := true, codeFree := 0xF, ifa := some (s.val r3) } := by
  have hunimpl : ((s.dataView 0).dt && unimplVa s.vm (s.val r3)) = true := by rw [hdt, hva, Bool.and_self]
  exact (exec_tpa_address hp h1 hcpl hn).trans ((naChecks_raises hunimpl).trans (congrArg _ (unimplData_nonAccess ..)))

/-- A query makes none of the late checks. -/
theorem withTranslation_unchecked (ref : Ref) (keep : DFault → Bool) (k : TlbEntry → State → Out) :
    withTranslation s ref keep k = withTranslation s { ref with chk := false } keep k := rfl

/-- tpa looks its address up as the reference of a non-access instruction. -/
theorem tpaOp_looksUp (hdt : (s.dataView 0).dt = true) :
    tpaOp r1 (s.val r3) s =
      withTranslation s (naRef s r3 false false false s.cpl) tpaTakes fun e t =>
        finish s (t.setVal r1 (BitVec.ofNat 64 (e.pa (s.val r3)))) :=
  (if_neg (by simp [hdt])).trans (withTranslation_unchecked (naRef s r3 false false true s.cpl) _ _)

/-- Of a present page that is no NaTPage tpa takes no fault. -/
theorem tpaTakes_eq_false {v : TransView} {ref : Ref} {e : TlbEntry} (hpresent : e.p = true) (hma : e.ma ≠ 7) :
    ∀ p ∈ failing (pageFaults s v ref e), tpaTakes p.1 = false := by
  rintro ⟨f, x⟩ h
  rw [mem_failing] at h
  cases f with
  | notPresent => simp [pageFaults, hpresent] at h
  | natPage =>
    have hpage : ¬e.ma = 7#3 := hma
    simp [pageFaults, hpage] at h
  | _ => rfl

theorem tpa_kinds :
    ∀ f ∈ [DFault.tlb, .notPresent, .natPage], f ∉ lateKinds ∧ (f ≠ .tlb → tpaTakes f = true) := by decide

theorem tpaOp_fault (hdt : (s.dataView 0).dt = true) (hva : unimplVa s.vm (s.val r3) = false) {c : Checked} {f : DFault}
    {e : Exc} {rest : List (DFault × Exc)} (hc : checkRef s 0 (naRef s r3 false false true s.cpl) = .ok c)
    (hf : c.faults = (f, e) :: rest) (hkind : f ∈ [DFault.tlb, .notPresent, .natPage]) :
    tpaOp r1 (s.val r3) s = raise c.st e ∧ e.na = true ∧ e.codeFree = 0xF := by
  obtain ⟨hlate, htakes⟩ := tpa_kinds f hkind
  have hsearch := hc
  rw [checkRef_searched (ref := naRef s r3 false false true s.cpl) hdt hva] at hsearch
  obtain ⟨c', rest', hc', hf', hst⟩ := afterSearch_unchecked hf hlate _ hsearch
  have hunchecked : checkRef s 0 (naRef s r3 false false false s.cpl) = .ok c' :=
    (checkRef_searched (ref := naRef s r3 false false false s.cpl) hdt hva).trans hc'
  rw [tpaOp_looksUp hdt, withTranslation_fault (ref := naRef s r3 false false false s.cpl) hdt hva rfl hunchecked hf' htakes, hst]
  exact ⟨rfl, firstFault_nonAccess hc hf rfl⟩

theorem tpaOp_answers (h1 : r1 ≠ 0) (hq : Quiet s) {e : TlbEntry} {u : State} (ht : Translates s (s.val r3) e u)
    (hpresent : e.p = true) (hma : e.ma ≠ 7) :
    ∃ t, tpaOp r1 (s.val r3) s = .next t ∧ t.getGr r1 = { val := BitVec.ofNat 64 (e.pa (s.val r3)), nat := false } ∧
      Left u t ∧ Frame { gr := [r1], tc := true, owed := true, lines := true } s t := by
  obtain ⟨hdt, -, hfound⟩ := ht
  obtain ⟨t, hnext, hreg, -, hleft, hframe⟩ :=
    (searchTlb_found hfound).loads (r3 := r3) (u := .none) h1 (.inl rfl) hq (BitVec.ofNat 64 (e.pa (s.val r3)))
  refine ⟨t, ?_, hreg, hleft, hframe⟩
  rw [tpaOp_looksUp hdt,
    withTranslation_found (ref := naRef s r3 false false false s.cpl) hfound (tpaTakes_eq_false hpresent hma)]
  exact hnext

/-! tak. -/

theorem exec_tak (hp : s.pred qp = true) :
    exec (.tak qp r1 r3) s = guarded s (naChecks [chkTarget r1, chkPriv s, chkNat s r3, chkVirt s]) (takOp r1 (s.val r3) s) :=
  predicated_true hp

theorem exec_tak_passes (hp : s.pred qp = true) (h1 : r1 ≠ 0) (hcpl : s.cpl = 0) (hn : s.nat r3 = false) (hvm : s.vm = false) :
    exec (.tak qp r1 r3) s = takOp r1 (s.val r3) s := by
  refine (exec_tak hp).trans (naChecks_pass ?_)
  simpa [chkTarget, chkPriv, chkNat, chkVirt, hcpl, hn, hvm] using h1

theorem takOp_absent {va : Word} (hdt : (s.dataView 0).dt = true)
    (h : unimplVa s.vm va = true ∨ (s.dataView 0).tlb.lookup .data (rrRid ((s.dataView 0).rrOf va)) va = []) :
    takOp r1 va s = finish s (s.setVal r1 1) := by
  refine (if_neg (by simp [hdt])).trans ?_
  by_cases hva : unimplVa s.vm va = true
  · exact if_pos hva
  · rw [if_neg hva, h.resolve_left hva]

/-- A key stands in bits 31:8 of the answer. -/
theorem takOp_key {va : Word} {e : TlbEntry} (hdt : (s.dataView 0).dt = true) (hva : unimplVa s.vm va = false)
    (h : (s.dataView 0).tlb.lookup .data (rrRid ((s.dataView 0).rrOf va)) va = [e]) :
    takOp r1 va s = finish s (s.setVal r1 (0#32 ++ e.key ++ 0#8)) := by
  have hword : e.key.setWidth 64 <<< 8 = 0#32 ++ e.key ++ 0#8 := by
    ext i hi
    grind
  refine (if_neg (by simp [hdt])).trans ((if_neg (by simp [hva])).trans ?_)
  rw [h, ← hword]

/-! thash and ttag. -/

theorem exec_thash (hp : s.pred qp = true) (h1 : r1 ≠ 0) (hvm : s.vm = false) :
    exec (.thash qp r1 r3) s = hashOp r1 r3 (fun rr va => thashValue (s.dcr 8) rr va) s :=
  (predicated_true hp).trans (naChecks_pass (by simpa [chkTarget, chkVirt, hvm] using h1))

theorem exec_ttag (hp : s.pred qp = true) (h1 : r1 ≠ 0) (hvm : s.vm = false) :
    exec (.ttag qp r1 r3) s = hashOp r1 r3 (fun rr va => vhptTag rr va) s :=
  (predicated_true hp).trans (naChecks_pass (by simpa [chkTarget, chkVirt, hvm] using h1))

/-- Of a NaT or unimplemented address the answer is a NaT. -/
theorem hashOp_nat (f : Word → Word → Word) (h1 : r1 ≠ 0) (hq : Quiet s)
    (h : s.nat r3 = true ∨ unimplVa s.vm (s.val r3) = true) :
    ∃ t, hashOp r1 r3 f s = .next t ∧ t.nat r1 = true ∧ Frame { gr := [r1] } s t := by
  have hop : hashOp r1 r3 f s = finish s (s.setGr r1 { val := Config.freeWord .thashValue s.tick, nat := true }) :=
    if_pos (by simpa using h)
  have htouch : Touch { gr := [r1] } s (s.setGr r1 { val := Config.freeWord .thashValue s.tick, nat := true }) :=
    (Touch.refl _ s).setGr _ List.mem_cons_self bn_zero
  refine ⟨_, hop.trans (htouch.completes hq it_zero vm_zero), ?_, htouch.frame⟩
  rw [State.nat, advanced_getGr, getGr_setGr_self h1]

theorem hashOp_value (f : Word → Word → Word) (h1 : r1 ≠ 0) (hq : Quiet s) (hs : Settled s) (hn : s.nat r3 = false)
    (hva : unimplVa s.vm (s.val r3) = false) :
    ∃ t, hashOp r1 r3 f s = .next t ∧ t.nat r1 = false ∧ t.val r1 = f (s.sys.rrOf (s.val r3)) (s.val r3) ∧
      Frame { gr := [r1] } s t := by
  obtain ⟨t, hnext, hreg, hframe⟩ := setVal_completes (f (s.sys.rrOf (s.val r3)) (s.val r3)) hq h1
  have hop : hashOp r1 r3 f s = finish s (s.setVal r1 (f (s.sys.rrOf (s.val r3)) (s.val r3))) := by
    rw [hashOp, if_neg (by simp [hn, hva]), hs.rrAt_eq]
    rfl
  exact ⟨t, hop.trans hnext, congrArg GReg.nat hreg, congrArg GReg.val hreg, hframe⟩

theorem bit_vhptTag (rr va : Word) : bit (vhptTag rr va) 63 = false := by
  rw [bit, vhptTag, BitVec.getLsbD_setWidth, BitVec.getLsbD_of_ge _ _ (Nat.le_refl 63), Bool.and_false]

end

/-- Settles O40: tpa and tak are looked up behind their checks, thash and ttag computed. -/
theorem translationQueries : Obligations.TranslationQueries := by
  unfold Obligations.TranslationQueries
  intro qp r1 r3 s hp
  refine ⟨?gr0, fun h1 hcpl hn => ?nat, fun h1 hcpl hn hvm hdt => ⟨?unimplemented, ?fault⟩,
    fun h1 hvm hq => ⟨fun hcpl hn hdt => ?physical, fun hcpl hn hdt => ⟨?tpa, ?tak⟩, fun h => ?hashNat,
      fun hn hva hs => ⟨?thash, ?ttag⟩⟩⟩
  case gr0 =>
    have hstop (l : List Check) (k : Out) :
        predicated qp s (guarded s (naChecks (chkTarget 0 :: l)) k) = raise s excIllegalOperation.nonAccess :=
      (predicated_true hp).trans (naChecks_raises rfl)
    simp only [List.forall_mem_cons]
    exact ⟨hstop _ _, hstop _ _, hstop _ _, hstop _ _, List.forall_mem_nil _⟩
  case nat =>
    have hstop (l : List Check) (k : Out) :
        predicated qp s (guarded s (naChecks (chkTarget r1 :: chkPriv s :: chkNat s r3 :: l)) k) =
          raise s { off := 0x5600, code := 0x10, na := true, codeFree := 0xF } :=
      (predicated_true hp).trans ((naChecks_skips (decide_eq_false h1)).trans
        ((naChecks_skips (chkPriv_of_level0 hcpl)).trans ((naChecks_raises hn).trans (congrArg _ (regNat_nonAccess _)))))
    simp only [List.forall_mem_cons]
    exact ⟨hstop _ _, hstop _ _, List.forall_mem_nil _⟩
  case unimplemented => exact exec_tpa_unimplemented hp h1 hcpl hn hdt
  case fault =>
    intro hva c f e rest hc hf hkind
    rw [exec_tpa_passes hp h1 hcpl hn hvm fun _ => hva]
    exact tpaOp_fault hdt hva hc hf hkind
  case physical =>
    have hoff : (!(s.dataView 0).dt) = true := by rw [hdt]; rfl
    rw [exec_tpa_passes hp h1 hcpl hn hvm (by simp [hdt]), exec_tak_passes hp h1 hcpl hn hvm]
    exact ⟨if_pos hoff, if_pos hoff⟩
  case tpa =>
    intro e u ht hpresent hma
    obtain ⟨-, hva, -⟩ := id ht
    rw [exec_tpa_passes hp h1 hcpl hn hvm fun _ => hva]
    exact tpaOp_answers h1 hq ht hpresent hma
  case tak =>
    rintro l rfl
    rw [exec_tak_passes hp h1 hcpl hn hvm]
    refine ⟨fun h => ?_, fun e hva h => ?_⟩
    · rw [takOp_absent hdt h]
      exact setVal_completes 1 hq h1
    · rw [takOp_key hdt hva h]
      exact setVal_completes _ hq h1
  case hashNat =>
    simp only [List.forall_mem_cons]
    rw [exec_thash hp h1 hvm, exec_ttag hp h1 hvm]
    exact ⟨hashOp_nat _ h1 hq h, hashOp_nat _ h1 hq h, List.forall_mem_nil _⟩
  case thash =>
    rw [exec_thash hp h1 hvm, ← hs.dcr_eq]
    exact hashOp_value _ h1 hq hs hn hva
  case ttag =>
    obtain ⟨t, hnext, hnat, hval, hframe⟩ := hashOp_value (fun rr va => vhptTag rr va) h1 hq hs hn hva
    exact ⟨t, (exec_ttag hp h1 hvm).trans hnext, hnat, hval, hval ▸ bit_vhptTag _ _, hframe⟩

end Machine
end Sys2Proof
end

section
/-!
SUPPORT. The translation resources: what a purge makes of them, and a write of them that stays in flight, with an owed machine
check and the ALAT (21_memory_translation.md R231; 42_translation_instructions.md R391 to R400).
-/
namespace Sys2Proof
namespace Machine

/-- A write that stays in flight, with another owed machine check and another ALAT where the footprint has them. -/
theorem Touch.pushedWith {f : Footprint} {s : State} {g : Sys → Sys} {b : Bool} {l : List AlatEntry}
    (hg : SysTouch f s.sys (g s.sys)) (hb : f.owed = true ∨ b = s.mcOwed) (hl : f.alat = true ∨ l = s.alat)
    (hd : f.data = true := by rfl) (hf : f.fetch = true := by rfl) :
    Touch f s { s.pushSys g with mcOwed := b, alat := l } :=
  { Touch.pushed s g hg hd hf with
    owed := fun h => hb.resolve_left (by simp [h])
    alat := fun h => hl.resolve_left (by simp [h]) }

/-- The file of the translation registers of a side. -/
def Side.file : Side → SysFile
  | .instr => .itr
  | .data => .dtr

theorem SysTouch.setTrs {f : Footprint} (y : Sys) {side : Side} (v : Vector (Option TlbEntry) 256)
    (hfile : side.file ∈ f.files) : SysTouch f y (y.setTrs side v) := by
  cases side
  all_goals
    simp only [Side.file] at hfile
    constructor <;> simp [Sys.setTrs, hfile]

theorem SysTouch.setTc {f : Footprint} (y : Sys) (side : Side) (l : List TlbEntry) (ht : f.tc = true) :
    SysTouch f y (y.setTc side l) := by
  cases side <;> exact .tcs ht ⟨_, _, rfl⟩

/-! The resources after a purge. -/

/-- What ptc makes of the resources. -/
def PurgeRange.cachesOf (p : PurgeRange) (tick : Nat) (y : Sys) : Sys :=
  { y with itcTlb := p.must tick y.itcTlb, dtcTlb := p.must tick y.dtcTlb }

/-- What ptr of a side makes of the resources. -/
def PurgeRange.regsOf (p : PurgeRange) (tick : Nat) (side : Side) (y : Sys) : Sys :=
  ((y.setTrs side (p.mustTrs tick (y.trs side))).setTc side (p.must tick (y.tc side))).setTc side.other
    (p.may tick (y.tc side.other))

theorem PurgeRange.regsOf_touch {f : Footprint} (p : PurgeRange) (tick : Nat) {side : Side} (y : Sys) (ht : f.tc = true)
    (hfile : side.file ∈ f.files) : SysTouch f y (p.regsOf tick side y) :=
  ((SysTouch.setTrs y _ hfile).trans (.setTc _ side _ ht)).trans (.setTc _ side.other _ ht)

/-- A machine check is owed for a register in the range. -/
def PurgeRange.clash (p : PurgeRange) (y : Sys) : Bool := trOverlaps y.itr p.rid p.off p.ps || trOverlaps y.dtr p.rid p.off p.ps

theorem oweForSize_eq (s : State) (p : PurgeRange) :
    s.oweForSize p = { s with mcOwed := (s.oweForSize p).mcOwed } := by
  unfold State.oweForSize
  split <;> rfl

theorem oweForSize_of_purgeable {s : State} {p : PurgeRange} (h : purgeable p.ps = true) : s.oweForSize p = s := if_pos h

theorem purgeCaches_eq (s : State) (p : PurgeRange) :
    s.purgeCaches p =
      { s.pushSys (p.cachesOf s.tick) with mcOwed := (s.oweForSize p).mcOwed || p.clash s.sys } := by
  rw [State.purgeCaches]
  dsimp only
  rw [oweForSize_eq]
  rfl

theorem purgeRegs_eq (s : State) (side : Side) (p : PurgeRange) :
    s.purgeRegs side p = { s.pushSys (p.regsOf s.tick side) with mcOwed := (s.oweForSize p).mcOwed } := by
  rw [State.purgeRegs, oweForSize_eq]
  rfl

section
variable {p : PurgeRange} {tick : Nat} {l : List TlbEntry} {e : TlbEntry}

/-- A purge adds no translation. -/
theorem mem_of_mem_must (h : e ∈ p.must tick l) : e ∈ l := by
  unfold PurgeRange.must at h
  split at h <;> exact List.mem_of_mem_filter h

theorem mem_of_mem_may (h : e ∈ p.may tick l) : e ∈ l := List.mem_of_mem_filter h

theorem must_of_purgeable (h : purgeable p.ps = true) : p.must tick l = l.filter fun e => !e.overlaps p.rid p.off p.ps :=
  if_pos h

theorem rd_mustTrs (h : purgeable p.ps = true) (v : Vector (Option TlbEntry) 256) (n : Nat) :
    rd (p.mustTrs tick v) n none = (rd v n none).filter fun e => !e.overlaps p.rid p.off p.ps := by
  rw [PurgeRange.mustTrs, if_pos h, purgeTrs, rd, rd, Vector.getElem?_map]
  rcases v[n]? with _ | _ | e
  · rfl
  · rfl
  · cases hov : e.overlaps p.rid p.off p.ps <;> simp [Option.filter, hov]

end

theorem Sys.onPsr_trs (f : Word → Word) (y : Sys) (side : Side) : (y.onPsr f).trs side = y.trs side := by
  cases side <;> rfl

theorem Sys.onPsr_tc (f : Word → Word) (y : Sys) (side : Side) : (y.onPsr f).tc side = y.tc side := by
  cases side <;> rfl

/-- The resources after ptr of a side, list by list. -/
theorem regsOf_side (p : PurgeRange) (tick : Nat) (side : Side) (y : Sys) :
    (p.regsOf tick side y).trs side = p.mustTrs tick (y.trs side) ∧ (p.regsOf tick side y).tc side = p.must tick (y.tc side) ∧
      (p.regsOf tick side y).tc side.other = p.may tick (y.tc side.other) := by
  cases side <;> exact ⟨rfl, rfl, rfl⟩

end Machine
end Sys2Proof
end

section
/-!
The purges (Purges; 42_translation_instructions.md R391 to R400).
-/
namespace Sys2Proof
namespace Machine

/-- A purge with operands: what it makes of the resources, the machine check that is owed after it, the ALAT after it. -/
inductive Purge (s : State) (qp : BitVec 6) (r3 r2 : BitVec 7) (p : PurgeRange) :
    Instr → (Sys → Sys) → Bool → List AlatEntry → Prop
  | ptcL : Purge s qp r3 r2 p (.ptcL qp r3 r2) (p.cachesOf s.tick) ((s.oweForSize p).mcOwed || p.clash s.sys) s.alat
  | ptcG : Purge s qp r3 r2 p (.ptcG qp r3 r2) (p.cachesOf s.tick) ((s.oweForSize p).mcOwed || p.clash s.sys) s.alat
  | ptcGa : Purge s qp r3 r2 p (.ptcGa qp r3 r2) (p.cachesOf s.tick) ((s.oweForSize p).mcOwed || p.clash s.sys)
      (s.purgeAlat p).alat
  | ptrD : Purge s qp r3 r2 p (.ptrD qp r3 r2) (p.regsOf s.tick .data) (s.oweForSize p).mcOwed s.alat
  | ptrI : Purge s qp r3 r2 p (.ptrI qp r3 r2) (p.regsOf s.tick .instr) (s.oweForSize p).mcOwed s.alat

section
variable {s : State} {qp : BitVec 6} {r3 r2 : BitVec 7} {p : PurgeRange} {i : Instr} {g : Sys → Sys} {b : Bool}
  {l : List AlatEntry}

theorem exists_purge (s : State) (p : PurgeRange)
    (h : i ∈ [Instr.ptcL qp r3 r2, .ptcG qp r3 r2, .ptcGa qp r3 r2, .ptrD qp r3 r2, .ptrI qp r3 r2]) :
    ∃ g b l, Purge s qp r3 r2 p i g b l := by
  simp only [List.mem_cons, List.not_mem_nil, or_false] at h
  rcases h with rfl | rfl | rfl | rfl | rfl
  · exact ⟨_, _, _, .ptcL⟩
  · exact ⟨_, _, _, .ptcG⟩
  · exact ⟨_, _, _, .ptcGa⟩
  · exact ⟨_, _, _, .ptrD⟩
  · exact ⟨_, _, _, .ptrI⟩

/-- Every purge is one write of the translation resources behind the same checks. -/
theorem Purge.exec_eq (h : Purge s qp r3 r2 (s.purgeRange r3 r2) i g b l) (hp : s.pred qp = true) :
    exec i s = guarded s (purgeChecks s r3 r2) (finish s { s.pushSys g with mcOwed := b, alat := l }) := by
  have halat (q : PurgeRange) : ((s.purgeAlat q).oweForSize q).mcOwed = (s.oweForSize q).mcOwed := by
    unfold State.oweForSize
    split <;> rfl
  cases h with
  | ptcL | ptcG => exact (predicated_true hp).trans (by rw [purgeCaches_eq]; rfl)
  | ptcGa => exact (predicated_true hp).trans (by rw [purgeCaches_eq, halat]; rfl)
  | ptrD | ptrI => exact (predicated_true hp).trans (by rw [purgeRegs_eq]; rfl)

theorem sizeFault_eq_false {ps : Nat} (h : purgeable ps = true ∨ Config.purgeSizeFaults = false) :
    (!purgeable ps && Config.purgeSizeFaults) = false := by
  rcases h with h | h <;> simp [h]

theorem Purge.nat (h : Purge s qp r3 r2 (s.purgeRange r3 r2) i g b l) (hp : s.pred qp = true) (hcpl : s.cpl = 0)
    (hn : s.nat r3 = true ∨ s.nat r2 = true) :
    exec i s = raise s { off := 0x5600, code := 0x10, na := true, codeFree := 0xF } := by
  have hnat : (s.nat r3 || s.nat r2) = true := by simpa using hn
  exact (h.exec_eq hp).trans ((naChecks_skips (chkPriv_of_level0 hcpl)).trans
    ((naChecks_raises hnat).trans (congrArg _ (regNat_nonAccess _))))

/-- At level 0 and without a NaT operand the page size and the address are checked. -/
theorem Purge.exec_operands (h : Purge s qp r3 r2 (s.purgeRange r3 r2) i g b l) (hp : s.pred qp = true) (hcpl : s.cpl = 0)
    (h3 : s.nat r3 = false) (h2 : s.nat r2 = false) :
    exec i s = guarded s
      (naChecks [chkReserved (!purgeable ((s.val r2).extractLsb' 2 6).toNat && Config.purgeSizeFaults),
        (unimplVa s.vm (s.val r3), excUnimplData (s.val r3) false false true false), chkVirt s])
      (finish s { s.pushSys g with mcOwed := b, alat := l }) :=
  (h.exec_eq hp).trans ((naChecks_skips (chkPriv_of_level0 hcpl)).trans (naChecks_skips (by rw [h3, h2]; rfl)))

theorem Purge.unimplemented (h : Purge s qp r3 r2 (s.purgeRange r3 r2) i g b l) (hp : s.pred qp = true) (hcpl : s.cpl = 0)
    (h3 : s.nat r3 = false) (h2 : s.nat r2 = false)
    (hsize : purgeable ((s.val r2).extractLsb' 2 6).toNat = true ∨ Config.purgeSizeFaults = false)
    (hva : unimplVa s.vm (s.val r3) = true) :
    exec i s = raise s { off := 0x5400, code := 0x30, na := true, codeFree := 0xF, ifa := some (s.val r3) } := by
  exact (h.exec_operands hp hcpl h3 h2).trans ((naChecks_skips (sizeFault_eq_false hsize)).trans
    ((naChecks_raises hva).trans (congrArg _ (unimplData_nonAccess ..))))

theorem Purge.reserved (h : Purge s qp r3 r2 (s.purgeRange r3 r2) i g b l) (hp : s.pred qp = true) (hok : PurgeOk s r3 r2)
    (hsize : purgeable ((s.val r2).extractLsb' 2 6).toNat = false) (hfaults : Config.purgeSizeFaults = true) :
    exec i s = raise s excReservedField.nonAccess := by
  obtain ⟨hcpl, h3, h2, -, -⟩ := hok
  have hbad : (!purgeable ((s.val r2).extractLsb' 2 6).toNat && Config.purgeSizeFaults) = true := by rw [hsize, hfaults]; rfl
  exact (h.exec_operands hp hcpl h3 h2).trans (naChecks_raises hbad)

/-- A purge that passes its checks completes with its write in flight. -/
theorem Purge.completes (h : Purge s qp r3 r2 (s.purgeRange r3 r2) i g b l) (hp : s.pred qp = true) (hok : PurgeOk s r3 r2)
    (hsize : purgeable ((s.val r2).extractLsb' 2 6).toNat = true ∨ Config.purgeSizeFaults = false) (hq : Quiet s)
    {f : Footprint} (hg : SysTouch f s.sys (g s.sys)) (hb : f.owed = true ∨ b = s.mcOwed) (hl : f.alat = true ∨ l = s.alat)
    (hf : f.Pushes := by exact ⟨rfl, rfl, rfl, rfl⟩) :
    ∃ t, exec i s = .next t ∧ t.sys = (g s.sys).onPsr clearOneShot ∧ t.mcOwed = b ∧ t.alat = l ∧
      Pushed f s t := by
  obtain ⟨hcpl, h3, h2, hva, hvm⟩ := hok
  have hpass : exec i s = finish s { s.pushSys g with mcOwed := b, alat := l } :=
    (h.exec_operands hp hcpl h3 h2).trans
      ((naChecks_skips (sizeFault_eq_false hsize)).trans ((naChecks_skips hva).trans (naChecks_skips hvm)))
  obtain ⟨hnext, hpushed⟩ := (Touch.pushedWith hg hb hl hf.data hf.fetch).pushes hq rfl rfl hf
  exact ⟨_, hpass.trans hnext, advanced_sys .., advanced_mcOwed .., advanced_alat .., hpushed⟩

/-- Whatever its page size, a purge changes the translation resources, the ALAT and the owed machine check only, and adds no
translation to a cache. -/
theorem Purge.shrinks (h : Purge s qp r3 r2 p i g b l) :
    SysTouch { files := [.itr, .dtr], tc := true, alat := true, owed := true, data := true, fetch := true } s.sys (g s.sys) ∧
      (∀ x ∈ (g s.sys).itcTlb, x ∈ s.sys.itcTlb) ∧ (∀ x ∈ (g s.sys).dtcTlb, x ∈ s.sys.dtcTlb) := by
  cases h with
  | ptcL | ptcG | ptcGa =>
    exact ⟨.tcs rfl ⟨_, _, rfl⟩, fun _ => mem_of_mem_must, fun _ => mem_of_mem_must⟩
  | ptrD =>
    exact ⟨PurgeRange.regsOf_touch _ _ _ rfl (by simp [Side.file]), fun _ => mem_of_mem_may, fun _ => mem_of_mem_must⟩
  | ptrI =>
    exact ⟨PurgeRange.regsOf_touch _ _ _ rfl (by simp [Side.file]), fun _ => mem_of_mem_must, fun _ => mem_of_mem_may⟩

/-- The ALAT after ptc.ga: the entries in the pages of the purged translations are gone. -/
theorem purgeAlat_alat (s : State) (p : PurgeRange) :
    (s.purgeAlat p).alat = s.alat.filter fun a => !(s.sys.itcTlb ++ s.sys.dtcTlb).any fun e =>
      e.overlaps p.rid p.off p.ps && rangesOverlap (e.pa 0) (2 ^ e.ps.toNat) a.pa a.size := by
  simp only [State.purgeAlat, List.any_filter]
  rfl

/-- The three forms of ptc differ in the ALAT only. -/
theorem purge_ptc (s : State) (p : PurgeRange) :
    ∀ i ∈ [Instr.ptcL qp r3 r2, .ptcG qp r3 r2, .ptcGa qp r3 r2],
      Purge s qp r3 r2 p i (p.cachesOf s.tick) ((s.oweForSize p).mcOwed || p.clash s.sys)
        (if i = .ptcGa qp r3 r2 then (s.purgeAlat p).alat else s.alat) := by
  simp only [List.forall_mem_cons, reduceCtorEq, if_false, if_true]
  exact ⟨.ptcL, .ptcG, .ptcGa, List.forall_mem_nil _⟩

/-- ptr of a side: the overlapping registers and cache entries of the side go. -/
theorem Purge.ptr_completes {side : Side}
    (h : Purge s qp r3 r2 (s.purgeRange r3 r2) i ((s.purgeRange r3 r2).regsOf s.tick side)
      (s.oweForSize (s.purgeRange r3 r2)).mcOwed s.alat)
    (hp : s.pred qp = true) (hok : PurgeOk s r3 r2) (hq : Quiet s) (hrange : s.purgeRange r3 r2 = p)
    (hsize : purgeable p.ps = true) :
    ∃ t, exec i s = .next t ∧
      (∀ n, rd (t.sys.trs side) n none = (rd (s.sys.trs side) n none).filter fun e => !e.overlaps p.rid p.off p.ps) ∧
      t.sys.tc side = ((s.sys.tc side).filter fun e => !e.overlaps p.rid p.off p.ps) ∧
      (∀ x ∈ t.sys.tc side.other, x ∈ s.sys.tc side.other) ∧
      Pushed { files := [side.file], tc := true, data := true, fetch := true } s t := by
  subst hrange
  have hunowed : (s.oweForSize (s.purgeRange r3 r2)).mcOwed = s.mcOwed := by rw [oweForSize_of_purgeable hsize]
  obtain ⟨t, hnext, hsys, -, -, hpushed⟩ := h.completes hp hok (.inl hsize) hq
    (f := { files := [side.file], tc := true, data := true, fetch := true })
    (PurgeRange.regsOf_touch _ _ _ rfl List.mem_cons_self) (.inr hunowed) (.inr rfl)
  obtain ⟨htrs, htc, hother⟩ := regsOf_side (s.purgeRange r3 r2) s.tick side s.sys
  refine ⟨t, hnext, fun n => ?_, ?_, fun x hx => ?_, hpushed⟩
  · rw [hsys, Sys.onPsr_trs, htrs]
    exact rd_mustTrs hsize _ n
  · rw [hsys, Sys.onPsr_tc, htc]
    exact must_of_purgeable hsize
  · rw [hsys, Sys.onPsr_tc, hother] at hx
    exact mem_of_mem_may hx

theorem exec_ptcE (hp : s.pred qp = true) :
    exec (.ptcE qp r3) s = guarded s (naChecks [chkPriv s, chkNat s r3, chkVirt s])
      (finish s (s.pushSys fun y => { y with itcTlb := [], dtcTlb := [] })) := predicated_true hp

end

/-- Settles O38: each purge with operands is one write of the translation resources behind the same checks, ptc.e another. -/
theorem purges : Obligations.Purges := by
  unfold Obligations.Purges
  intro qp r3 r2 s rid ps hp hs hq hrid hps
  have hrange : s.purgeRange r3 r2 = { rid := rid, off := (s.val r3).extractLsb' 0 61, ps := ps } := by
    rw [State.purgeRange, hs.rrAt_eq, hrid, hps]
    rfl
  refine ⟨fun hcpl => ⟨fun hn => ?natE, fun i hi => ?stops⟩, fun hok hsize i hi => ?otherSize,
    fun hok hsize => ⟨fun i hi => ?ptc, ?ptrD, ?ptrI⟩, fun hcpl hn hvm => ?ptcE⟩
  case natE =>
    exact (exec_ptcE hp).trans ((naChecks_skips (chkPriv_of_level0 hcpl)).trans
      ((naChecks_raises hn).trans (congrArg _ (regNat_nonAccess _))))
  case stops =>
    obtain ⟨g, b, l, hpurge⟩ := exists_purge s (s.purgeRange r3 r2) hi
    exact ⟨hpurge.nat hp hcpl, fun h3 h2 hsize => hpurge.unimplemented hp hcpl h3 h2 (hps ▸ hsize)⟩
  case otherSize =>
    obtain ⟨g, b, l, hpurge⟩ := exists_purge s (s.purgeRange r3 r2) hi
    obtain ⟨htouch, hitc, hdtc⟩ := hpurge.shrinks
    split
    next hfaults => exact hpurge.reserved hp hok (hps ▸ hsize) hfaults
    next hfaults =>
      obtain ⟨t, hnext, hsys, -, -, -, -, hframe⟩ :=
        hpurge.completes hp hok (.inr (by simpa using hfaults)) hq htouch (.inl rfl) (.inl rfl)
      exact ⟨t, hnext, hsys ▸ hitc, hsys ▸ hdtc, hframe⟩
  case ptc =>
    obtain ⟨t, hnext, hsys, howed, halat, hdata, -, hframe⟩ :=
      (purge_ptc s (s.purgeRange r3 r2) i hi).completes hp hok (.inl (hps ▸ hsize)) hq
        (f := { tc := true, alat := true, owed := true, data := true, fetch := true }) (.tcs rfl ⟨_, _, rfl⟩) (.inl rfl)
        (.inl rfl)
    rw [hrange] at hsys howed halat
    rw [oweForSize_of_purgeable hsize] at howed
    rw [purgeAlat_alat] at halat
    refine ⟨t, hnext, ?_, ?_, hdata, halat, howed, hframe⟩
    · rw [hsys]
      exact must_of_purgeable hsize
    · rw [hsys]
      exact must_of_purgeable hsize
  case ptrD =>
    obtain ⟨t, hnext, htrs, htc, hother, hdata, -, hframe⟩ := Purge.ptrD.ptr_completes hp hok hq hrange hsize
    exact ⟨t, hnext, htrs, htc, hother, hdata, hframe⟩
  case ptrI =>
    obtain ⟨t, hnext, htrs, htc, hother, -, hfetch, hframe⟩ := Purge.ptrI.ptr_completes hp hok hq hrange hsize
    exact ⟨t, hnext, htrs, htc, hother, hfetch, hframe⟩
  case ptcE =>
    have hpass : exec (.ptcE qp r3) s = finish s (s.pushSys fun y => { y with itcTlb := [], dtcTlb := [] }) :=
      (exec_ptcE hp).trans (naChecks_pass (by simp [chkPriv, chkNat, chkVirt, hcpl, hn, hvm]))
    have hcaches : SysTouch { tc := true, data := true, fetch := true } s.sys { s.sys with itcTlb := [], dtcTlb := [] } :=
      .tcs rfl ⟨_, _, rfl⟩
    obtain ⟨t, hnext, hsys, hdata, -, hframe⟩ :=
      hcaches.pushes (g := fun y => { y with itcTlb := [], dtcTlb := [] }) hq
    exact ⟨t, hpass.trans hnext, congrArg Sys.itcTlb hsys, congrArg Sys.dtcTlb hsys, hdata, hframe⟩

end Machine
end Sys2Proof
end

section
/-!
SUPPORT. The translation resources after an insert, and the entry that an insertion format describes
(21_memory_translation.md R225, R226, R231, R232).
-/
namespace Sys2Proof
namespace Machine

/-! The entry, whatever its page size: without a check at the insert no size is ruled out (11_state_control_registers.md R115). -/

section
variable (pte : Word) {ps : Nat} (key rid : BitVec 24) (va : Word) (h : ps < 64)
include h

theorem mkEntry_ps_of_lt : (mkEntry pte ps key rid va).ps.toNat = ps := Nat.mod_eq_of_lt h

theorem mkEntry_hits_of_lt : (mkEntry pte ps key rid va).hits rid va = true := by
  have hcovers : (mkEntry pte ps key rid va).covers (offOf va) = true := by
    rw [TlbEntry.covers, decide_eq_true_eq, mkEntry_ps_of_lt pte key rid va h, mkEntry_base, Nat.shiftRight_eq_div_pow,
      Nat.shiftRight_eq_div_pow, Nat.mul_div_cancel _ (by positivity)]
  simp only [TlbEntry.hits, hcovers, Bool.and_true, Bool.and_eq_true, Bool.or_eq_true, decide_eq_true_eq]
  exact ⟨rfl, .inl rfl⟩

/-- The page number gives the address bits above the page, also where the page is smaller than 4K. -/
theorem mkEntry_pa_of_lt :
    (mkEntry pte ps key rid va).pa va =
      (pte &&& 0x3FFFFFFFFF000#64).toNat / 2 ^ ps * 2 ^ ps + va.toNat % 2 ^ ps := by
  have hpage : (field pte 12 38).toNat >>> (ps - 12) * 2 ^ (ps - 12) * 4096 / 2 ^ ps =
      (field pte 12 38).toNat * 4096 / 2 ^ ps := by
    rcases Nat.le_total ps 12 with hsmall | hlarge
    · rw [Nat.sub_eq_zero_of_le hsmall, Nat.shiftRight_zero, Nat.pow_zero, Nat.mul_one]
    · obtain ⟨k, rfl⟩ := Nat.exists_eq_add_of_le hlarge
      rw [Nat.add_sub_cancel_left, show 2 ^ (12 + k) = 2 ^ k * 4096 by rw [Nat.pow_add, Nat.mul_comm],
        Nat.mul_div_mul_right _ _ (by decide), Nat.mul_div_mul_right _ _ (by decide), Nat.mul_div_cancel _ (by positivity),
        Nat.shiftRight_eq_div_pow]
  rw [TlbEntry.pa, mkEntry_ps_of_lt pte key rid va h, mkEntry_ppn, ppnBits_toNat, Nat.shiftRight_eq_div_pow _ ps, hpage]

end

theorem insertEntry_insertedAs {s : State} (hs : Settled s) (pte : Word) : InsertedAs s pte (insertEntry s pte) := by
  have hentry : insertEntry s pte = mkEntry pte ((s.sys.getCr 21).extractLsb' 2 6).toNat ((s.sys.getCr 21).extractLsb' 8 24)
      ((rd s.sys.rr ((s.sys.getCr 20).extractLsb' 61 3).toNat 0).extractLsb' 8 24) (s.sys.getCr 20) := by
    rw [insertEntry, hs.impliedCr_eq, hs.impliedCr_eq, hs.rrAt_eq]
    rfl
  have hlt : ((s.sys.getCr 21).extractLsb' 2 6).toNat < 64 := BitVec.isLt _
  rw [hentry]
  constructor
  case ps => exact (BitVec.ofNat_toNat ..).trans (BitVec.setWidth_eq _)
  case hits => exact mkEntry_hits_of_lt _ _ _ _ hlt
  case pa =>
    rw [mkEntry_ps_of_lt _ _ _ _ hlt]
    exact mkEntry_pa_of_lt _ _ _ _ hlt
  all_goals rfl

/-! The caches and the registers of the sides. -/

theorem mem_purgeList {l : List TlbEntry} {rid : BitVec 24} {off : BitVec 61} {ps : Nat} {x : TlbEntry} :
    x ∈ purgeList l rid off ps ↔ x ∈ l ∧ x.overlaps rid off ps = false := by
  rw [purgeList, List.mem_filter, Bool.not_eq_true']

theorem tcSize_pos (side : Side) : 1 ≤ tcSize side := by
  cases side <;> exact Nat.le_add_right ..

/-- Room for one more entry costs a part of the list, and nothing where the list is short. -/
theorem tcRoom_keptIn {n : Nat} (hn : 1 ≤ n) (tick : Nat) (l : List TlbEntry) : KeptIn n l (tcRoom n tick l) := by
  cases l with
  | nil => exact ⟨.refl [], hn, fun _ => rfl⟩
  | cons e t =>
    by_cases hroom : t.length + 1 < n
    · rw [tcRoom, if_pos hroom]
      exact ⟨.refl _, hroom, fun _ => rfl⟩
    · rw [tcRoom, if_neg hroom]
      refine ⟨(List.take_sublist _ _).trans (List.eraseIdx_sublist _ _), ?_, fun h => absurd h hroom⟩
      have hlen := List.length_take_le (n - 1) ((e :: t).eraseIdx (Config.freeNat .replaceTc tick % (t.length + 1)))
      omega

section
variable (tick : Nat) (side : Side) (e : TlbEntry) (y : Sys)

theorem purgeForInsert_side :
    (y.purgeForInsert tick side e).tc side = purgeList (y.tc side) e.rid e.base e.ps.toNat ∧
      (y.purgeForInsert tick side e).tc side.other =
        mayPurgeList (y.tc side.other) e.rid e.base e.ps.toNat tick := by
  cases side <;> exact ⟨rfl, rfl⟩

theorem insertTc_side :
    (Sys.insertTc tick side e y).tc side =
        e :: tcRoom (tcSize side) tick (purgeList (y.tc side) e.rid e.base e.ps.toNat) ∧
      (Sys.insertTc tick side e y).tc side.other = mayPurgeList (y.tc side.other) e.rid e.base e.ps.toNat tick := by
  cases side <;> exact ⟨rfl, rfl⟩

theorem insertTr_side (n : Nat) :
    (Sys.insertTr tick side n e y).trs side = wr (y.trs side) n (some e) ∧
      (Sys.insertTr tick side n e y).tc side = purgeList (y.tc side) e.rid e.base e.ps.toNat ∧
      (Sys.insertTr tick side n e y).tc side.other = mayPurgeList (y.tc side.other) e.rid e.base e.ps.toNat tick := by
  cases side <;> exact ⟨rfl, rfl, rfl⟩

variable {f : Footprint} (ht : f.tc = true)
include ht

theorem purgeForInsert_touch : SysTouch f y (y.purgeForInsert tick side e) :=
  (SysTouch.setTc y side.other _ ht).trans (.setTc _ side _ ht)

theorem insertTc_touch : SysTouch f y (Sys.insertTc tick side e y) := .tcs ht (Sys.insertTc_tc ..)

theorem insertTr_touch (n : Nat) (hfile : side.file ∈ f.files) : SysTouch f y (Sys.insertTr tick side n e y) :=
  (purgeForInsert_touch tick side e y ht).trans (.setTrs _ _ hfile)

end

end Machine
end Sys2Proof
end

section
/-!
The inserts (Inserts; 42_translation_instructions.md R386 to R390).
-/
namespace Sys2Proof
namespace Machine

/-- itc of a side. -/
def itcOf (qp : BitVec 6) (r2 : BitVec 7) : Side → Instr
  | .instr => .itcI qp r2
  | .data => .itcD qp r2

/-- itr of a side. -/
def itrOf (qp : BitVec 6) (r3 r2 : BitVec 7) : Side → Instr
  | .instr => .itrI qp r3 r2
  | .data => .itrD qp r3 r2

theorem exec_itcOf (qp : BitVec 6) (r2 : BitVec 7) (side : Side) (s : State) :
    exec (itcOf qp r2 side) s = insertCacheOp qp side r2 s := by
  cases side <;> rfl

theorem exec_itrOf (qp : BitVec 6) (r3 r2 : BitVec 7) (side : Side) (s : State) :
    exec (itrOf qp r3 r2 side) s = insertRegOp qp side r3 r2 s := by
  cases side <;> rfl

/-! The checks. -/

section
variable {s : State} {nat bad : Bool} {pte itir ifa : Word} {k : Out}

theorem insertChecks_ic (hic : s.dpsr Psr.ic = true) :
    guarded s (insertChecks s nat bad pte itir ifa) k = raise s excIllegalOperation.nonAccess := naChecks_raises hic

variable (hic : s.dpsr Psr.ic = false) (hcpl : s.cpl = 0)
include hic hcpl

theorem insertChecks_nat (hn : nat = true) :
    guarded s (insertChecks s nat bad pte itir ifa) k =
      raise s { off := 0x5600, code := 0x10, na := true, codeFree := 0xF } :=
  (naChecks_skips hic).trans ((naChecks_skips (chkPriv_of_level0 hcpl)).trans
    ((naChecks_raises hn).trans (congrArg _ (regNat_nonAccess _))))

theorem insertChecks_reserved (hn : nat = false) (h : bad = true ∨ insertReserved pte itir = true) :
    guarded s (insertChecks s nat bad pte itir ifa) k = raise s excReservedField.nonAccess := by
  refine (naChecks_skips hic).trans ((naChecks_skips (chkPriv_of_level0 hcpl)).trans ((naChecks_skips hn).trans ?_))
  cases hbad : bad with
  | true => exact naChecks_raises rfl
  | false => exact (naChecks_skips rfl).trans (naChecks_raises (h.resolve_left (by simp [hbad])))

/-- Operands without a NaT, a number out of range or a reserved field leave the addresses. -/
theorem insertChecks_addresses (hn : nat = false) (hbad : bad = false) (hres : insertReserved pte itir = false) :
    guarded s (insertChecks s nat bad pte itir ifa) k =
      guarded s (naChecks [(bit pte 0 && ppnUnimpl pte || (unimplVa s.vm ifa && !Config.ifaCheckAtMov),
        excUnimplData ifa false false false false), chkVirt s]) k :=
  (naChecks_skips hic).trans ((naChecks_skips (chkPriv_of_level0 hcpl)).trans
    ((naChecks_skips hn).trans ((naChecks_skips hbad).trans (naChecks_skips hres))))

theorem insertChecks_unimplemented (hn : nat = false) (hbad : bad = false) (hres : insertReserved pte itir = false)
    (h : bit pte 0 = true ∧ ppnUnimpl pte = true ∨ unimplVa s.vm ifa = true ∧ Config.ifaCheckAtMov = false) :
    guarded s (insertChecks s nat bad pte itir ifa) k =
      raise s { off := 0x5400, code := 0x30, na := true, codeFree := 0xF, ifa := some ifa } := by
  have hunimpl : (bit pte 0 && ppnUnimpl pte || (unimplVa s.vm ifa && !Config.ifaCheckAtMov)) = true := by
    simpa using h
  exact (insertChecks_addresses hic hcpl hn hbad hres).trans
    ((naChecks_raises hunimpl).trans (congrArg _ (unimplData_nonAccess ..)))

end

/-- A register number, compared with the implemented count. -/
theorem beyond_eq {least count : Nat} (h : least ≤ count) (n : Nat) : beyond n least count = decide (count ≤ n) := by
  by_cases hn : count ≤ n
  · simp [beyond, hn, h.trans hn]
  · simp [beyond, hn]

theorem numTr_ge (side : Side) : 8 ≤ numTr side := by
  cases side <;> exact Nat.le_add_right ..

section
variable {s : State} {qp : BitVec 6} {r3 r2 : BitVec 7}

/-- An insert that passes its checks. -/
theorem InsertOk.passes (h : InsertOk s r2) (hs : Settled s) {nat bad : Bool} {k : Out} (hn : nat = false) (hbad : bad = false) :
    guarded s (insertChecks s nat bad (s.val r2) (s.impliedCr 21) (s.impliedCr 20)) k = k := by
  obtain ⟨hic, hcpl, -, hvm, hres, hppn, hva⟩ := h
  rw [hs.impliedCr_eq, hs.impliedCr_eq, insertChecks_addresses hic hcpl hn hbad hres, hppn, hva]
  exact naChecks_pass (by simp [chkVirt, hvm])

theorem withPlatform_missing {pte : Word} {k : Out} (hpresent : bit pte 0 = true) (h : platformSupports (field pte 2 3) = false) :
    withPlatform pte k = .refused .platformAttribute := if_pos (by rw [hpresent, h]; rfl)

theorem withPlatform_has {pte : Word} {k : Out} (h : bit pte 0 = true → platformSupports (field pte 2 3) = true) :
    withPlatform pte k = k := by
  refine if_neg ?_
  cases hpresent : bit pte 0 with
  | false => exact Bool.false_ne_true
  | true => simp [h hpresent]

theorem exec_itcOf_passes (hp : s.pred qp = true) (hs : Settled s) (hok : InsertOk s r2) (side : Side) :
    exec (itcOf qp r2 side) s =
      withPlatform (s.val r2) (finish s (s.insertCache side (insertEntry s (s.val r2)))) := by
  obtain ⟨-, -, hn, -⟩ := id hok
  exact (exec_itcOf ..).trans ((predicated_true hp).trans (hok.passes hs hn rfl))

theorem exec_itrOf_passes (hp : s.pred qp = true) (hs : Settled s) (hok : InsertOk s r2) (h3 : s.nat r3 = false) {side : Side}
    (hlt : ((s.val r3).extractLsb' 0 8).toNat < numTr side) :
    exec (itrOf qp r3 r2 side) s =
      if (rd (s.sys.trs side) ((s.val r3).extractLsb' 0 8).toNat none).isSome then .refused .trSlotLive
      else withPlatform (s.val r2) (finish s
        (s.insertReg side ((s.val r3).extractLsb' 0 8).toNat (insertEntry s (s.val r2)))) := by
  obtain ⟨-, -, hn, -⟩ := id hok
  exact (exec_itrOf ..).trans ((predicated_true hp).trans (hok.passes hs (by rw [h3, hn]; rfl) (beyond_of_lt hlt)))

end

/-! The completions. -/

section
variable {s : State} (hq : Quiet s) (side : Side) (e : TlbEntry)
include hq

theorem insertClash_completes :
    ∃ t, finish s (s.insertClash side e) = .next t ∧ t.mcOwed = true ∧
      (∀ x ∈ t.sys.tc side, x = e ∨ x ∈ s.sys.tc side ∧ x.overlaps e.rid e.base e.ps.toNat = false) ∧
      (∀ x ∈ t.sys.tc side.other, x ∈ s.sys.tc side.other) ∧
      Pushed { tc := true, owed := true, data := true, fetch := true } s t := by
  obtain ⟨g, hg, htouch, hside, hother⟩ : ∃ g, s.insertClash side e = { s.pushSys g with mcOwed := true } ∧
      SysTouch { tc := true, owed := true, data := true, fetch := true } s.sys (g s.sys) ∧
      (∀ x ∈ (g s.sys).tc side, x = e ∨ x ∈ s.sys.tc side ∧ x.overlaps e.rid e.base e.ps.toNat = false) ∧
      (∀ x ∈ (g s.sys).tc side.other, x ∈ s.sys.tc side.other) := by
    unfold State.insertClash
    split
    · obtain ⟨hside, hother⟩ := insertTc_side s.tick side e s.sys
      refine ⟨_, rfl, insertTc_touch _ side e _ rfl, fun x hx => ?_, fun x hx => ?_⟩
      · rw [hside] at hx
        refine (List.mem_cons.mp hx).imp_right fun hkept => ?_
        obtain ⟨hsub, -⟩ := tcRoom_keptIn (tcSize_pos side) s.tick (purgeList (s.sys.tc side) e.rid e.base e.ps.toNat)
        exact mem_purgeList.mp (hsub.mem hkept)
      · rw [hother] at hx
        exact List.mem_of_mem_filter hx
    · obtain ⟨hside, hother⟩ := purgeForInsert_side s.tick side e s.sys
      refine ⟨_, rfl, purgeForInsert_touch _ side e _ rfl, fun x hx => .inr ?_, fun x hx => ?_⟩
      · rw [hside] at hx
        exact mem_purgeList.mp hx
      · rw [hother] at hx
        exact List.mem_of_mem_filter hx
  have hu : Touch { tc := true, owed := true, data := true, fetch := true } s { s.pushSys g with mcOwed := true } :=
    .pushedWith (l := s.alat) htouch (.inl rfl) (.inr rfl)
  obtain ⟨hnext, hpushed⟩ := hu.pushes hq rfl rfl
  rw [hg]
  refine ⟨_, hnext, advanced_mcOwed .., ?_, ?_, hpushed⟩
  · rw [advanced_sys, Sys.onPsr_tc]
    exact hside
  · rw [advanced_sys, Sys.onPsr_tc]
    exact hother

theorem insertCache_completes (hic : bit s.sys.psr Psr.ic = false) (hclear : s.trClash side e = false) :
    ∃ t kept, finish s (s.insertCache side e) = .next t ∧ t.sys.tc side = e :: kept ∧
      KeptIn (tcSize side) (purgeList (s.sys.tc side) e.rid e.base e.ps.toNat) kept ∧
      (∀ x ∈ t.sys.tc side.other, x ∈ s.sys.tc side.other) ∧ t.lastTc = some e ∧
      Pushed { tc := true, data := true, fetch := true } s t := by
  have hop : s.insertCache side e = { s.pushSys (Sys.insertTc s.tick side e) with lastTc := some e } :=
    if_neg (by simp [hclear])
  have hpush : Touch { tc := true, data := true, fetch := true } s (s.pushSys (Sys.insertTc s.tick side e)) :=
    .pushed s _ (insertTc_touch _ side e _ rfl)
  have hu : Touch { tc := true, data := true, fetch := true } s
      { s.pushSys (Sys.insertTc s.tick side e) with lastTc := some e } := { hpush with lastTc := by simp }
  obtain ⟨hside, hother⟩ := insertTc_side s.tick side e s.sys
  obtain ⟨hnext, hpushed⟩ := hu.pushes hq rfl rfl
  rw [hop]
  refine ⟨_, _, hnext, ?_, tcRoom_keptIn (tcSize_pos side) s.tick _, fun x hx => ?_, ?_, hpushed⟩
  · rw [advanced_sys, Sys.onPsr_tc]
    exact hside
  · rw [advanced_sys, Sys.onPsr_tc] at hx
    exact List.mem_of_mem_filter (hother ▸ hx)
  · rw [advanced_lastTc]
    exact if_neg (by simp [hic])

theorem insertReg_completes (n : Nat) (hclear : s.trClash side e = false) :
    ∃ t, finish s (s.insertReg side n e) = .next t ∧ t.sys.trs side = wr (s.sys.trs side) n (some e) ∧
      t.sys.tc side = (purgeList (s.sys.tc side) e.rid e.base e.ps.toNat) ∧
      (∀ x ∈ t.sys.tc side.other, x ∈ s.sys.tc side.other) ∧
      Pushed { files := [side.file], tc := true, data := true, fetch := true } s t := by
  have hop : s.insertReg side n e = s.pushSys (Sys.insertTr s.tick side n e) := if_neg (by simp [hclear])
  have htouch : SysTouch { files := [side.file], tc := true, data := true, fetch := true } s.sys
      (Sys.insertTr s.tick side n e s.sys) := insertTr_touch _ side e _ rfl n List.mem_cons_self
  obtain ⟨t, hnext, hsys, hpushed⟩ := htouch.pushes hq
  obtain ⟨htrs, hside, hother⟩ := insertTr_side s.tick side e s.sys n
  rw [hop]
  refine ⟨t, hnext, ?_, ?_, fun x hx => ?_, hpushed⟩
  · rw [hsys, Sys.onPsr_trs, htrs]
  · rw [hsys, Sys.onPsr_tc, hside]
  · rw [hsys, Sys.onPsr_tc, hother] at hx
    exact List.mem_of_mem_filter hx

end

theorem insertCache_of_clash {s : State} {side : Side} {e : TlbEntry} (h : s.trClash side e = true) :
    s.insertCache side e = s.insertClash side e := if_pos h

theorem insertReg_of_clash {s : State} {side : Side} {n : Nat} {e : TlbEntry} (h : s.trClash side e = true) :
    s.insertReg side n e = s.insertClash side e := if_pos h

/-! The instructions on a platform that supports what they insert. -/

section
variable {s : State} {qp : BitVec 6} {r3 r2 : BitVec 7} (hp : s.pred qp = true) (hs : Settled s) (hok : InsertOk s r2)
  (hplatform : bit (s.val r2) 0 = true → platformSupports (field (s.val r2) 2 3) = true)
include hp hs hok hplatform

theorem exec_itcOf_eq (side : Side) :
    exec (itcOf qp r2 side) s = finish s (s.insertCache side (insertEntry s (s.val r2))) :=
  (exec_itcOf_passes hp hs hok side).trans (withPlatform_has hplatform)

theorem exec_itrOf_eq {side : Side} (h3 : s.nat r3 = false) (hlt : ((s.val r3).extractLsb' 0 8).toNat < numTr side)
    (hfree : rd (s.sys.trs side) ((s.val r3).extractLsb' 0 8).toNat none = none) :
    exec (itrOf qp r3 r2 side) s =
      finish s (s.insertReg side ((s.val r3).extractLsb' 0 8).toNat (insertEntry s (s.val r2))) := by
  rw [exec_itrOf_passes hp hs hok h3 hlt, hfree]
  exact withPlatform_has hplatform

variable (hq : Quiet s) (side : Side) (hclear : s.trClash side (insertEntry s (s.val r2)) = false)
include hq hclear

theorem itcOf_inserts :
    ∃ t e kept, exec (itcOf qp r2 side) s = .next t ∧ InsertedAs s (s.val r2) e ∧ t.sys.tc side = e :: kept ∧
      KeptIn (tcSize side) (purgeList (s.sys.tc side) e.rid e.base e.ps.toNat) kept ∧
      (∀ x ∈ t.sys.tc side.other, x ∈ s.sys.tc side.other) ∧ t.lastTc = some e ∧
      Pushed { tc := true, data := true, fetch := true } s t := by
  have hic : bit s.sys.psr Psr.ic = false := by
    obtain ⟨hic, -⟩ := hok
    rwa [State.dpsr, hs.dview_eq] at hic
  obtain ⟨t, kept, hnext, hrest⟩ := insertCache_completes hq side _ hic hclear
  exact ⟨t, _, kept, (exec_itcOf_eq hp hs hok hplatform side).trans hnext, insertEntry_insertedAs hs _, hrest⟩

theorem itrOf_inserts (h3 : s.nat r3 = false) (hlt : ((s.val r3).extractLsb' 0 8).toNat < numTr side)
    (hfree : rd (s.sys.trs side) ((s.val r3).extractLsb' 0 8).toNat none = none) :
    ∃ t e, exec (itrOf qp r3 r2 side) s = .next t ∧ InsertedAs s (s.val r2) e ∧
      t.sys.trs side = wr (s.sys.trs side) ((s.val r3).extractLsb' 0 8).toNat (some e) ∧
      t.sys.tc side = (purgeList (s.sys.tc side) e.rid e.base e.ps.toNat) ∧
      (∀ x ∈ t.sys.tc side.other, x ∈ s.sys.tc side.other) ∧
      Pushed { files := [side.file], tc := true, data := true, fetch := true } s t := by
  obtain ⟨t, hnext, hrest⟩ := insertReg_completes hq side _ ((s.val r3).extractLsb' 0 8).toNat hclear
  exact ⟨t, _, (exec_itrOf_eq hp hs hok hplatform h3 hlt hfree).trans hnext, insertEntry_insertedAs hs _, hrest⟩

end

/-- Settles O37: the four inserts share their checks; behind them each is one write of the translation resources in flight. -/
theorem inserts : Obligations.Inserts := by
  unfold Obligations.Inserts
  intro qp r3 r2 s hp hs
  refine ⟨fun i nat bad hform => ?stops, fun hok hq => ⟨fun hpresent hlacks => ?platform, fun hplatform =>
    ⟨fun i side hform hclash => ?clash, fun hclear => ⟨?itcD, fun h3 hlt => ?itrD⟩,
      fun hclear => ⟨?itcI, fun h3 hlt => ?itrI⟩⟩⟩⟩
  case stops =>
    obtain ⟨k, hexec⟩ : ∃ k, exec i s =
        guarded s (insertChecks s nat bad (s.val r2) (s.sys.getCr 21) (s.sys.getCr 20)) k := by
      rw [← hs.impliedCr_eq, ← hs.impliedCr_eq]
      rcases hform with ⟨rfl | rfl, rfl, rfl⟩ | ⟨n, ⟨rfl, rfl⟩ | ⟨rfl, rfl⟩, rfl, rfl⟩
      · exact ⟨_, predicated_true hp⟩
      · exact ⟨_, predicated_true hp⟩
      · rw [← beyond_eq (show 8 ≤ Config.numDtr from numTr_ge .data)]
        exact ⟨_, predicated_true hp⟩
      · rw [← beyond_eq (show 8 ≤ Config.numItr from numTr_ge .instr)]
        exact ⟨_, predicated_true hp⟩
    rw [hexec]
    exact ⟨insertChecks_ic, fun hic hcpl => ⟨insertChecks_nat hic hcpl, insertChecks_reserved hic hcpl,
      insertChecks_unimplemented hic hcpl⟩⟩
  case platform =>
    have hstop (side : Side) : exec (itcOf qp r2 side) s = .refused .platformAttribute :=
      (exec_itcOf_passes hp hs hok side).trans (withPlatform_missing hpresent hlacks)
    exact ⟨hstop .data, hstop .instr⟩
  case clash =>
    have hexec : exec i s = finish s (s.insertClash side (insertEntry s (s.val r2))) := by
      rcases hform with ⟨rfl, rfl⟩ | ⟨rfl, rfl⟩ | ⟨h3, hfree, ⟨rfl, rfl, hlt⟩ | ⟨rfl, rfl, hlt⟩⟩
      · rw [← insertCache_of_clash hclash]
        exact exec_itcOf_eq hp hs hok hplatform .data
      · rw [← insertCache_of_clash hclash]
        exact exec_itcOf_eq hp hs hok hplatform .instr
      · rw [← insertReg_of_clash hclash]
        exact exec_itrOf_eq hp hs hok hplatform (side := .data) h3 hlt hfree
      · rw [← insertReg_of_clash hclash]
        exact exec_itrOf_eq hp hs hok hplatform (side := .instr) h3 hlt hfree
    obtain ⟨t, hnext, howed, htc, hother, hdata, hfetch, hframe⟩ :=
      insertClash_completes hq side (insertEntry s (s.val r2))
    exact ⟨t, _, hexec.trans hnext, insertEntry_insertedAs hs _, howed, htc, hother, hdata, hfetch, hframe⟩
  case itcD =>
    obtain ⟨t, e, kept, hnext, hentry, htc, hkept, hother, hlast, hdata, -, hframe⟩ :=
      itcOf_inserts hp hs hok hplatform hq .data hclear
    exact ⟨t, e, kept, hnext, hentry, htc, hkept, hother, hlast, hdata, hframe⟩
  case itcI =>
    obtain ⟨t, e, kept, hnext, hentry, htc, hkept, hother, hlast, -, hfetch, hframe⟩ :=
      itcOf_inserts hp hs hok hplatform hq .instr hclear
    exact ⟨t, e, kept, hnext, hentry, htc, hkept, hother, hlast, hfetch, hframe⟩
  case itrD =>
    split
    next hlive => exact (exec_itrOf_passes hp hs hok (side := .data) h3 hlt).trans (if_pos hlive)
    next hfree =>
      obtain ⟨t, e, hnext, hentry, htrs, htc, hother, hdata, -, hframe⟩ :=
        itrOf_inserts hp hs hok hplatform hq .data hclear h3 hlt (Option.not_isSome_iff_eq_none.mp hfree)
      exact ⟨t, e, hnext, hentry, htrs, htc, hother, hdata, hframe⟩
  case itrI =>
    split
    next hlive => exact (exec_itrOf_passes hp hs hok (side := .instr) h3 hlt).trans (if_pos hlive)
    next hfree =>
      obtain ⟨t, e, hnext, hentry, htrs, htc, hother, -, hfetch, hframe⟩ :=
        itrOf_inserts hp hs hok hplatform hq .instr hclear h3 hlt (Option.not_isSome_iff_eq_none.mp hfree)
      exact ⟨t, e, hnext, hentry, htrs, htc, hother, hfetch, hframe⟩

end Machine
end Sys2Proof
end

section
/-!
The 32-bit pointer additions (PointerAdds; 43_memory_instructions.md R456, R457) and the instructions that need a register stack
(RegisterStackRefused).
-/
namespace Sys2Proof
namespace Machine

/-- The four parts of a 32-bit pointer, from bit 63 down (20_memory.md R148). -/
theorem addp4Val_eq_append (off base : Word) :
    addp4Val off base = 0#1 ++ base.extractLsb' 30 2 ++ 0#29 ++ (off + base).extractLsb' 0 32 := by
  apply BitVec.eq_of_getLsbD_eq
  intro n hn
  simp only [addp4Val, field, BitVec.getLsbD_or, BitVec.getLsbD_shiftLeft, BitVec.getLsbD_setWidth, BitVec.getLsbD_append,
    BitVec.getLsbD_extractLsb', BitVec.getLsbD_zero]
  grind

/-- A register written by an instruction that does nothing else. -/
theorem setGr_completes {s : State} {r1 : BitVec 7} (g : GReg) (hq : Quiet s) (h1 : r1 ≠ 0) :
    ∃ t, finish s (s.setGr r1 g) = .next t ∧ t.getGr r1 = g ∧ Frame { gr := [r1] } s t := by
  have ht : Touch { gr := [r1] } s (s.setGr r1 g) := (Touch.refl _ s).setGr g List.mem_cons_self bn_zero
  exact ⟨_, ht.completes hq it_zero vm_zero, by rw [advanced_getGr, getGr_setGr_self h1], ht.frame⟩

/-- Settles O18: GR0 fails the one check; any other target receives the pointer, whose four parts `addp4Val_eq_append` names. -/
theorem pointerAdds : Obligations.PointerAdds := by
  unfold Obligations.PointerAdds
  intro qp r1 r2 r3 ct imm s hp
  constructor
  · rintro rfl
    have hgr0 : (chkTarget 0).1 = true := rfl
    exact ⟨(predicated_true hp).trans (guarded_raises hgr0), (predicated_true hp).trans (guarded_raises hgr0),
      (predicated_true hp).trans (guarded_raises hgr0)⟩
  · intro h1 hq
    simp only [← addp4Val_eq_append]
    rw [exec_of_completesTo (.addp4 qp r1 r2 r3 hp h1), exec_of_completesTo (.addp4Imm qp r1 imm r3 hp h1),
      exec_of_completesTo (.shladdp4 qp r1 r2 ct r3 hp h1)]
    exact ⟨setGr_completes _ hq h1, setGr_completes _ hq h1, setGr_completes _ hq h1⟩

/-- Settles O60: each of these has one arm that refuses, three of them behind their predicate. -/
theorem registerStackRefused : Obligations.RegisterStackRefused := by
  unfold Obligations.RegisterStackRefused
  intro r1 sof sol sor qp b1 imm p wh d s
  constructor
  · intro i hi
    simp only [List.mem_cons, List.not_mem_nil, or_false] at hi
    rcases hi with rfl | rfl | rfl | rfl | rfl <;> rfl
  · intro hp x hx
    simp only [List.mem_cons, List.not_mem_nil, or_false] at hx
    rcases hx with rfl | rfl | rfl <;> exact predicated_true hp

end Machine
end Sys2Proof
end

section
/-!
The speculation checks and the instructions on the ALAT (SpeculationChecks; 43_memory_instructions.md R444, R445).
-/
namespace Sys2Proof
namespace Machine

/-- An instruction that only changes the ALAT completes. -/
theorem alatTo_completes {s : State} (l : List AlatEntry) (hq : Quiet s) :
    ∃ t, finish s { s with alat := l } = .next t ∧ t.alat = l ∧ Frame { alat := true } s t := by
  have ht : Touch { alat := true } s { s with alat := l } := (Touch.refl _ s).alatTo l rfl
  exact ⟨_, ht.completes hq it_zero vm_zero, advanced_alat .., ht.frame⟩

theorem checkAlat_hit {s : State} {fp : Bool} {r : BitVec 7} (c : Bool) (imm : BitVec 21) (h : s.alatHit fp r = true) :
    checkAlat fp r c imm s = finish s { s with alat := if c then alatLess s fp r else s.alat } := by
  cases c <;> exact if_pos h

section
variable {qp : BitVec 6} {r : BitVec 7} {imm : BitVec 21} {s : State} (hp : s.pred qp = true)
include hp

theorem exec_chkA {fp c : Bool} {i : Instr}
    (hi : i = .chkANcR qp r imm ∧ fp = false ∧ c = false ∨ i = .chkAClrR qp r imm ∧ fp = false ∧ c = true ∨
      i = .chkANcF qp r imm ∧ fp = true ∧ c = false ∨ i = .chkAClrF qp r imm ∧ fp = true ∧ c = true) :
    exec i s = checkAlat fp r c imm s := by
  rcases hi with ⟨rfl, rfl, rfl⟩ | ⟨rfl, rfl, rfl⟩ | ⟨rfl, rfl, rfl⟩ | ⟨rfl, rfl, rfl⟩ <;> exact predicated_true hp

theorem exec_chkSM : exec (.chkSM qp r imm) s = if s.nat r then checkFails 0 imm s else finish s s := predicated_true hp

theorem exec_chkSF (he : FpEnabled s r) :
    exec (.chkSF qp r imm) s = if 2 ≤ r.toNat ∧ s.getFr r = Config.natVal then checkFails 0 imm s else finish s s :=
  (predicated_true hp).trans (guarded_pass (by simpa using chkFp_of_enabled he))

/-- A chk.s whose register holds no deferred exception does nothing. -/
theorem exec_chkS_passes {i : Instr} (hi : i = .chkSM qp r imm ∧ s.nat r = false ∨
      i = .chkSF qp r imm ∧ FpEnabled s r ∧ (2 ≤ r.toNat → s.getFr r ≠ Config.natVal)) : exec i s = finish s s := by
  rcases hi with ⟨rfl, hn⟩ | ⟨rfl, he, hv⟩
  · rw [exec_chkSM hp, hn, if_neg Bool.false_ne_true]
  · rw [exec_chkSF hp he, if_neg fun ⟨h2, hnat⟩ => hv h2 hnat]

/-- The failing checks share one outcome, with the code that tells them apart. -/
theorem exec_failing {i : Instr} {code : BitVec 16}
    (hi : (i = .chkANcR qp r imm ∨ i = .chkAClrR qp r imm) ∧ s.alatHit false r = false ∧ code = Config.chkACode ∨
      (i = .chkANcF qp r imm ∨ i = .chkAClrF qp r imm) ∧ s.alatHit true r = false ∧ code = Config.chkACode ∨
      i = .chkSM qp r imm ∧ s.nat r = true ∧ code = 0 ∨
      i = .chkSF qp r imm ∧ FpEnabled s r ∧ 2 ≤ r.toNat ∧ s.getFr r = Config.natVal ∧ code = 0) :
    exec i s = checkFails code imm s := by
  have miss {fp c : Bool} (h : s.alatHit fp r = false) : checkAlat fp r c imm s = checkFails Config.chkACode imm s := by
    rw [checkAlat, h, if_neg Bool.false_ne_true]
  rcases hi with ⟨rfl | rfl, ha, rfl⟩ | ⟨rfl | rfl, ha, rfl⟩ | ⟨rfl, hn, rfl⟩ | ⟨rfl, he, h2, hv, rfl⟩
  · exact (predicated_true hp).trans (miss ha)
  · exact (predicated_true hp).trans (miss ha)
  · exact (predicated_true hp).trans (miss ha)
  · exact (predicated_true hp).trans (miss ha)
  · rw [exec_chkSM hp, if_pos hn]
  · rw [exec_chkSF hp he, if_pos ⟨h2, hv⟩]

end

/-- The code of a failing chk.a is not that of a failing chk.s. -/
theorem chkACode_ne_zero : Config.chkACode ≠ 0 := by
  intro h
  have hwraps : (1 + Config.chkACodeRaw % 65535) % 65536 = 0 := congrArg BitVec.toNat h
  omega

/-- A failing check that branches completes at its recovery code. -/
theorem checkFails_completes {s : State} {imm : BitVec 21} (code : BitVec 16) (hb : Config.chkBranches = true)
    (hq : QuietBranch s (s.ip + (imm.signExtend 64 <<< 4))) :
    ∃ t, checkFails code imm s = .next t ∧ t.ip = (s.ip + (imm.signExtend 64 <<< 4)) &&& ~~~15#64 ∧ t.slot = 0 ∧
      Frame { jump := true } s t :=
  ⟨_, (checkFails_branches hb).trans (finishBranch_quiet hq rfl rfl), branched_ip .., branched_slot ..,
    (Touch.refl { jump := true } s).frame_branched _⟩

theorem checkFails_faults {s : State} (code : BitVec 16) (imm : BitVec 21) (hb : Config.chkBranches = false) :
    checkFails code imm s = raise s { off := 0x5700, code := code, iim := some (imm.setWidth 64) } := by
  rw [checkFails, hb, if_neg Bool.false_ne_true]
  rfl

/-- Settles O41: a check that passes completes, with the ALAT changed by a clearing chk.a only; the failing checks branch or fault
as one; each form of invala leaves a part of the ALAT. -/
theorem speculationChecks : Obligations.SpeculationChecks := by
  unfold Obligations.SpeculationChecks
  intro qp r imm s hp
  refine ⟨fun fp i c hi hhit hq => ?_, fun i hi hq => ?_, chkACode_ne_zero, fun i code hi => ?_, fun hq => ⟨?_, ?_, ?_⟩⟩
  · rw [exec_chkA hp hi, checkAlat_hit c imm hhit]
    exact alatTo_completes _ hq
  · rw [exec_chkS_passes hp hi]
    exact finish_does_nothing hq
  · rw [exec_failing hp hi]
    exact ⟨checkFails_completes code, checkFails_faults code imm⟩
  · rw [show exec (.invala qp) s = finish s { s with alat := [] } from predicated_true hp]
    exact alatTo_completes _ hq
  · rw [show exec (.invalaER qp r) s = finish s { s with alat := alatLess s false r } from predicated_true hp]
    exact alatTo_completes _ hq
  · rw [show exec (.invalaEF qp r) s = finish s { s with alat := alatLess s true r } from predicated_true hp]
    exact alatTo_completes _ hq

end Machine
end Sys2Proof
end

section
/-!
The flushes of a line and sync.i (CacheFlushes; 43_memory_instructions.md R436 to R439; log entry 8).
-/
namespace Sys2Proof
namespace Machine

/-! The old values that a fetch may return. -/

/-- After a flush of the line, a sync.i and the end of its group every old value of the line is synchronized. -/
theorem stage_of_flushed_line {st : List StaleByte} {pa : Nat} {e : StaleByte}
    (h : e ∈ staleEndGroup (staleSync (staleFlush pa st))) (hline : e.addr / 32 = pa / 32) : e.stage = .synced := by
  simp only [staleEndGroup, staleSync, staleFlush, List.map_map, List.mem_map, Function.comp_apply] at h
  obtain ⟨d, -, rfl⟩ := h
  have haddr : d.addr / 32 = pa / 32 := by
    rw [← hline]
    split_ifs <;> rfl
  cases hd : d.stage <;> simp [haddr, hd]

/-- A serialization ends what is synchronized. -/
theorem staleValues_staleSerialize_of_synced {st : List StaleByte} {a : Nat}
    (h : ∀ e ∈ st, e.addr = a → e.stage = .synced) : staleValues (staleSerialize st) a = [] := by
  rw [staleValues, List.map_eq_nil_iff, List.filter_eq_nil_iff]
  intro e he
  obtain ⟨d, hd, rfl⟩ := List.mem_map.mp he
  obtain ⟨hmem, hstage⟩ := List.mem_filter.mp hd
  have hkept : d.stage ≠ .synced := of_decide_eq_true hstage
  have haddr : d.addr ≠ a := fun hc => hkept (h d hmem hc)
  split_ifs <;> simpa using haddr

/-- Stages do not matter to a fetch. -/
theorem staleValues_map {g : StaleByte → StaleByte} (haddr : ∀ e, (g e).addr = e.addr) (hold : ∀ e, (g e).old = e.old)
    (st : List StaleByte) (a : Nat) : staleValues (st.map g) a = staleValues st a := by
  simp only [staleValues, List.filter_map, List.map_map, Function.comp_def, haddr, hold]

theorem staleValues_staleSync (st : List StaleByte) (a : Nat) : staleValues (staleSync st) a = staleValues st a :=
  staleValues_map (fun _ => by split_ifs <;> rfl) (fun _ => by split_ifs <;> rfl) st a

theorem staleValues_staleEndGroup (st : List StaleByte) (a : Nat) : staleValues (staleEndGroup st) a = staleValues st a :=
  staleValues_map (fun _ => by split_ifs <;> rfl) (fun _ => by split_ifs <;> rfl) st a

/-- A sync.i synchronizes nothing before the end of its group. -/
theorem staleSync_unsynced {st : List StaleByte} (h : ∀ e ∈ st, e.stage ≠ .synced) :
    ∀ e ∈ staleSync st, e.stage ≠ .synced := by
  intro e he
  obtain ⟨d, hd, rfl⟩ := List.mem_map.mp he
  split_ifs
  · exact Stage.noConfusion
  · exact h d hd

theorem staleValues_staleSerialize_of_unsynced {st : List StaleByte} (h : ∀ e ∈ st, e.stage ≠ .synced) (a : Nat) :
    staleValues (staleSerialize st) a = staleValues st a := by
  rw [staleSerialize, List.filter_eq_self.mpr fun e he => decide_eq_true (h e he), staleValues_staleEndGroup]

/-! The instructions. -/

/-- What a fetch may see after an instruction that left these old values. -/
theorem advanced_stale_after {s t : State} {l : List StaleByte} (hl : t.stale = l) (hs : t.srlzI = s.srlzI) :
    (advanced s t).stale = staleAfter {} { s with stale := l } := by
  simp [staleAfter, Footprint.ends, hl, hs]

theorem Touch.staleTo {f : Footprint} {s t : State} (h : Touch f s t) (l : List StaleByte) (hst : f.stale = true) :
    Touch f s { t with stale := l } := { h with stale := by simp [hst] }

theorem Touch.dropLine {f : Footprint} {s t : State} (h : Touch f s t) (pa : Nat) (ha : f.alat = true) (hc : f.lines = true) :
    Touch f s (dropLine pa t) := { h with alat := by simp [ha], lines := by simp [hc] }

theorem exec_fc (qp : BitVec 6) (r3 : BitVec 7) (s : State) : exec (.fc qp r3) s = flushOp qp r3 dropLine s := rfl

theorem exec_fcI (qp : BitVec 6) (r3 : BitVec 7) (s : State) : exec (.fcI qp r3) s = flushOp qp r3 (fun _ t => t) s := rfl

section
variable {qp : BitVec 6} {r3 : BitVec 7} {after : Nat → State → State} {s : State} (hp : s.pred qp = true)
include hp

theorem flushOp_nat (hn : s.nat r3 = true) :
    flushOp qp r3 after s = raise s { off := 0x5600, code := 0x10, r := true, na := true, codeFree := 0xF } :=
  (predicated_true hp).trans (guarded_raises hn)

/-- A flush of a register without NaT makes its reference. -/
theorem flushOp_references (hn : s.nat r3 = false) :
    flushOp qp r3 after s = withRef s 0 (naRef s r3 true false false s.cpl) fun c =>
      finish s (after c.pa { c.st with stale := staleFlush c.pa c.st.stale }) :=
  (predicated_true hp).trans (guarded_skips hn)

theorem flushOp_fault (hn : s.nat r3 = false) {c : Checked} {f : DFault} {e : Exc} {rest : List (DFault × Exc)}
    (hc : checkRef s 0 (naRef s r3 true false false s.cpl) = .ok c) (hf : c.faults = (f, e) :: rest) :
    flushOp qp r3 after s = raise c.st e ∧ e.na = true ∧ e.codeFree = 0xF :=
  ⟨(flushOp_references hp hn).trans (withRef_fault hc hf), firstFault_nonAccess hc hf rfl⟩

theorem flushOp_accessible (hn : s.nat r3 = false) {pa : Nat} {attr : Attr} {u : State}
    (ha : Accessible s (naRef s r3 true false false s.cpl) pa attr u) :
    flushOp qp r3 after s = finish s (after pa { u with stale := staleFlush pa s.stale }) := by
  obtain ⟨-, -, -, -, -, -, -, hstale⟩ := ha.walked.same
  rw [flushOp_references hp hn, withRef_accessible ha, hstale]

theorem fc_completes (hn : s.nat r3 = false) {pa : Nat} {attr : Attr} {u : State}
    (ha : Accessible s (naRef s r3 true false false s.cpl) pa attr u) (hq : Quiet s) :
    ∃ t, exec (.fc qp r3) s = .next t ∧ t.alat = (s.alat.filter fun a => !rangesOverlap a.pa a.size (pa / 32 * 32) 32) ∧
      t.stale = staleAfter {} { s with stale := staleFlush pa s.stale } ∧
      t.lines = u.lines.filter (fun l => decide (l.1 ≠ pa / 32)) ∧ Searched u t ∧
      Frame { tc := true, owed := true, alat := true, stale := true, lines := true } s t := by
  obtain ⟨-, -, -, -, halat, -⟩ := ha.walked.same
  have hsearch : Touch { tc := true, owed := true, alat := true, stale := true, lines := true } s u :=
    ha.walked.touch rfl rfl rfl
  have htouch := (hsearch.staleTo (staleFlush pa s.stale) rfl).dropLine pa rfl rfl
  rw [exec_fc, flushOp_accessible hp hn ha,
    htouch.completes hq it_zero vm_zero]
  exact ⟨_, rfl, by simp [Machine.dropLine, alatWithout, halat], advanced_stale_after rfl (htouch.srlzI rfl),
    by simp [Machine.dropLine], by simp [Searched, Machine.dropLine], htouch.frame⟩

theorem fcI_completes (hn : s.nat r3 = false) {pa : Nat} {attr : Attr} {u : State}
    (ha : Accessible s (naRef s r3 true false false s.cpl) pa attr u) (hq : Quiet s) :
    ∃ t, exec (.fcI qp r3) s = .next t ∧ t.stale = staleAfter {} { s with stale := staleFlush pa s.stale } ∧ Left u t ∧
      Frame { tc := true, owed := true, stale := true, lines := true } s t := by
  have hsearch : Touch { tc := true, owed := true, stale := true, lines := true } s u := ha.walked.touch rfl rfl rfl
  have htouch := hsearch.staleTo (staleFlush pa s.stale) rfl
  rw [exec_fcI, flushOp_accessible hp hn ha,
    htouch.completes hq it_zero vm_zero]
  exact ⟨_, rfl, advanced_stale_after rfl (htouch.srlzI rfl), by simp [Left, Searched], htouch.frame⟩

theorem syncI_completes (hq : Quiet s) :
    ∃ t, exec (.syncI qp) s = .next t ∧ t.stale = staleAfter {} { s with stale := staleSync s.stale } ∧
      Frame { stale := true } s t := by
  have htouch := (Touch.refl { stale := true } s).staleTo (staleSync s.stale) rfl
  exact ⟨_, (predicated_true hp).trans (htouch.completes hq it_zero vm_zero), advanced_stale_after rfl rfl, htouch.frame⟩

end

/-- Settles O42: both flushes make one reference and leave their line flushed; the stages of the old values then say what a
serialization ends. -/
theorem cacheFlushes : Obligations.CacheFlushes := by
  unfold Obligations.CacheFlushes
  refine ⟨fun qp r3 s u pa attr hp hn ha hq => ⟨fc_completes hp hn ha hq, fcI_completes hp hn ha hq⟩,
    fun qp r3 s hp i hi => ?_, fun qp s hp hq => syncI_completes hp hq, fun st pa a hline => ?_, fun st a hst => ?_⟩
  · obtain ⟨after, hexec⟩ : ∃ after, exec i s = flushOp qp r3 after s := by
      simp only [List.mem_cons, List.not_mem_nil, or_false] at hi
      rcases hi with rfl | rfl
      · exact ⟨_, exec_fc qp r3 s⟩
      · exact ⟨_, exec_fcI qp r3 s⟩
    rw [hexec]
    exact ⟨flushOp_nat hp, fun hn _ _ _ _ => flushOp_fault hp hn⟩
  · exact staleValues_staleSerialize_of_synced fun e he haddr => stage_of_flushed_line he (haddr ▸ hline)
  · rw [staleValues_staleSerialize_of_unsynced (staleSync_unsynced hst), staleValues_staleSync]

end Machine
end Sys2Proof
end

section
/-!
When a data reference is accessible (AccessibleReferences; 43_memory_instructions.md R421, 21_memory_translation.md R284).
-/
namespace Sys2Proof
namespace Machine

theorem failing_eq_nil {l : List (DFault × Bool × Exc)} (h : ∀ p ∈ l, p.2.1 = false) : failing l = [] := by
  rw [List.eq_nil_iff_forall_not_mem]
  intro p hp
  exact absurd (h _ (mem_failing.mp hp)) (by simp)

section
variable {s : State} {ref : Ref} {e : TlbEntry}

/-- A page that allows the reference stops it by no check. -/
theorem pageFaults_pass (hpresent : e.p = true) (hma : e.ma ≠ 7) (hkey : KeyAllows (s.dataView 0) ref e)
    (hread : ref.r = true → rights e.ar e.pl ref.pl .r = true) (hwrite : ref.w = true → rights e.ar e.pl ref.pl .w = true)
    (hdirty : ref.dirty = true → e.d = true ∨ s.psrNow Psr.da = true) (haccess : e.a = true ∨ s.psrNow Psr.da = true) :
    ∀ p ∈ pageFaults s (s.dataView 0) ref e, p.2.1 = false := by
  have hheld : ((s.dataView 0).pk && (matchingPkrs (s.dataView 0).pkr e.key).isEmpty) = false :=
    Bool.and_eq_false_imp.mpr fun hpk => by simpa using (hkey hpk).1
  have hallowed : ((s.dataView 0).pk && (matchingPkrs (s.dataView 0).pkr e.key).any
      fun w => (ref.r && pkrDisables w .r) || (ref.w && pkrDisables w .w)) = false := by
    refine Bool.and_eq_false_imp.mpr fun hpk => List.any_eq_false.mpr fun w hw => ?_
    obtain ⟨hr, hwr⟩ := (hkey hpk).2 w hw
    rw [Bool.not_eq_true, Bool.or_eq_false_iff]
    exact ⟨Bool.and_eq_false_imp.mpr hr, Bool.and_eq_false_imp.mpr hwr⟩
  have hrights : ((ref.r && !rights e.ar e.pl ref.pl .r) || (ref.w && !rights e.ar e.pl ref.pl .w)) = false :=
    Bool.or_eq_false_iff.mpr ⟨Bool.and_eq_false_imp.mpr fun h => by simp [hread h],
      Bool.and_eq_false_imp.mpr fun h => by simp [hwrite h]⟩
  have hd : (ref.dirty && !e.d && !s.psrNow Psr.da) = false := by
    rw [Bool.and_assoc, Bool.and_eq_false_imp]
    intro h
    rcases hdirty h with h | h <;> simp [h]
  have ha : (!e.a && !s.psrNow Psr.da) = false := by rcases haccess with h | h <;> simp [h]
  intro p hp
  simp only [pageFaults, List.mem_cons, List.not_mem_nil, or_false] at hp
  rcases hp with rfl | rfl | rfl | rfl | rfl | rfl | rfl
  · simp [hpresent]
  · exact decide_eq_false hma
  · exact hheld
  · exact hallowed
  · exact hrights
  · exact hd
  · exact ha

/-- Without a breakpoint, with an alignment that does not stop it and of a page that supports it, a reference passes its late
checks. -/
theorem lateFaults_pass {attr : Attr} (hbreak : ¬Breakpoint s ref) (halign : ¬AlignmentStops s ref)
    (hsupport : ¬Unsupported ref.sup attr) : ∀ p ∈ lateFaults s (s.dataView 0) ref attr, p.2.1 = false := by
  intro p hp
  simp only [lateFaults, List.mem_cons, List.not_mem_nil, or_false] at hp
  rcases hp with rfl | rfl | rfl
  · rw [Bool.eq_false_iff]
    intro hc
    exact hbreak (by simpa [Breakpoint, and_assoc] using hc)
  · rw [Bool.eq_false_iff]
    intro hc
    exact halign (by simpa [AlignmentStops, or_assoc] using hc)
  · dsimp only
    cases hsup : ref.sup with
    | any => rfl
    | writeBackOnly => simpa [hsup, Unsupported] using hsupport
    | fetchadd => simpa [hsup, Unsupported, or_iff_not_imp_left] using hsupport
    | tenByte => simpa [hsup, Unsupported] using hsupport

theorem late_pass {attr : Attr}
    (h : ref.chk = true → ¬Breakpoint s ref ∧ ¬AlignmentStops s ref ∧ ¬Unsupported ref.sup attr) :
    ∀ p ∈ ref.late s (s.dataView 0) attr, p.2.1 = false := by
  unfold Ref.late
  split
  next hchk =>
    obtain ⟨hbreak, halign, hsupport⟩ := h hchk
    exact lateFaults_pass hbreak halign hsupport
  · simp

end

/-- Settles O44: with PSR.dt = 0 only the late checks are left, with PSR.dt = 1 the search finds the one entry and the checks of
its page pass too. -/
theorem accessibleReferences : Obligations.AccessibleReferences := by
  unfold Obligations.AccessibleReferences
  intro s ref pa attr hmapped hlate
  have hpass := late_pass hlate
  rcases hmapped with ⟨hdt, himpl, rfl, rfl⟩ |
    ⟨hdt, himpl, e, hlookup, hpresent, hma, hkey, hread, hwrite, hdirty, haccess, rfl, rfl⟩
  · have hphysical : checkRef s 0 ref = .ok (unsearched s (s.dataView 0) ref) := by
      rw [checkRef, hdt]
      rfl
    rw [Accessible, hphysical, unsearched]
    simp only [hdt, himpl, Bool.or_self, Bool.false_eq_true, if_false, failing_eq_nil hpass]
  · have hfound : searchTlb s (s.dataView 0) (s.dataView 100) .data ref.va = .found e s := by
      rw [searchTlb, hlookup]
    have hnone : failing (pageFaults s (s.dataView 0) ref e ++ ref.late s (s.dataView 0) (attrOf e.ma)) = [] :=
      failing_eq_nil fun p hp => (List.mem_append.mp hp).elim
        (pageFaults_pass hpresent hma hkey hread hwrite hdirty haccess p) (hpass p)
    rw [Accessible, checkRef_searched hdt himpl, hfound, afterSearch, hnone]

end Machine
end Sys2Proof
end

section
/-!
SUPPORT. What a load raises, whatever its target: a NaT address, the first fault of its reference.
-/
namespace Sys2Proof
namespace Machine

section
variable {p : LoadSpec} {r3 : BitVec 7} {u : BaseUpd} {s : State}

/-- A load that no ALAT entry satisfies references memory. -/
theorem loadOp_references (hmiss : p.flav.checks = true → s.alatHit p.fp p.reg = false) : loadOp p r3 u s = loadRef p r3 u s := by
  have hhit : ¬(p.flav.checks && s.alatHit p.fp p.reg) = true := by
    cases hc : p.flav.checks with
    | false => simp
    | true => simp [hmiss hc]
  rw [loadOp, if_neg hhit]

theorem loadOp_nat (hmiss : p.flav.checks = true → s.alatHit p.fp p.reg = false) (hs : p.flav.speculative = false)
    (hn : s.nat r3 = true) : loadOp p r3 u s = raise s { off := 0x5600, code := 0x10, r := true } := by
  rw [loadOp_references hmiss, loadRef, if_pos hn, hs, if_neg Bool.false_ne_true]
  rfl

/-- A load takes the first fault of its reference, a speculative one where it is not deferred. -/
theorem loadOp_fault (hmiss : p.flav.checks = true → s.alatHit p.fp p.reg = false) (hn : s.nat r3 = false) {c : Checked}
    {k : DFault} {e : Exc} {rest : List (DFault × Exc)} (hc : checkRef s 0 (p.ref s r3) = .ok c) (hf : c.faults = (k, e) :: rest)
    (hspec : p.flav.speculative = true → s.psrNow Psr.ed = false ∧ ¬FaultDeferred s k) : loadOp p r3 u s = raise c.st e := by
  cases hs : p.flav.speculative with
  | true =>
    obtain ⟨hed, hk⟩ := hspec hs
    exact loadOp_raises hs hn hed hc hf hk
  | false =>
    rw [loadOp_references hmiss, loadRef, hn, hs, hc]
    simp only [orRefuse, hf, Bool.false_eq_true, Bool.false_and, if_false]

end

end Machine
end Sys2Proof
end

section
/-!
The integer loads (IntegerLoads, LoadCompleters; 43_memory_instructions.md R423 to R429, R441 to R443).
-/
namespace Sys2Proof
namespace Machine

/-- What an integer load may change, whichever of its outcomes it has: a hitting one leaves its target out. -/
abbrev intFootprint (targets : List (BitVec 7)) (r3 : BitVec 7) (u : BaseUpd) : Footprint :=
  { gr := targets ++ baseGr r3 u, tc := true, owed := true, alat := true, lines := true }

theorem intFootprint_room (targets : List (BitVec 7)) (r3 : BitVec 7) (u : BaseUpd) : Room (intFootprint targets r3 u) r3 u :=
  .of (fun _ h => List.mem_append_right _ h) (.inl rfl)

theorem intFootprint_inside (n : Nat) (flav : LoadFlavour) (r1 r3 : BitVec 7) (u : BaseUpd) (s : State) :
    (intSpec n flav r1).Inside (intFootprint [r1] r3 u) s := intSpec_inside n flav List.mem_cons_self bn_zero

/-- An integer load with a legal target and base update comes to its load. -/
theorem exec_intLoad_passes {i : Instr} {f : LoadForm} {s : State} (hform : intLoadForm i = some f) (hp : s.pred f.qp = true)
    (h1 : f.r1 ≠ 0) (hb : BaseOk f.r3 (some f.r1) f.upd) :
    exec i s = loadOp (intSpec f.size f.flav f.r1) f.r3 f.upd s := by
  have hlegal : ∀ p ∈ [chkIllegal (decide (f.r1 = 0) || updIllegal f.r3 (some f.r1) f.upd)], p.1 = false := by
    simpa [chkIllegal, updIllegal_ok hb] using h1
  rw [exec_intLoadForm hform, intLoad, predicated_true hp, guarded_spChecks hlegal]

/-- The target of a load after its base update, which may not change it. -/
theorem getGr_loaded {s v : State} {r1 r3 : BitVec 7} {u : BaseUpd} {g : GReg} (h1 : r1 ≠ 0) (hb : BaseOk r3 (some r1) u) :
    (advanced s (s.updBase r3 u (v.setGr r1 g))).getGr r1 = g := by
  rw [advanced_getGr, getGr_updBase hb, getGr_setGr_self h1]

/-- Settles O50: a load that is performed leaves the bytes of its reference in its target. -/
theorem integerLoads : Obligations.IntegerLoads := by
  unfold Obligations.IntegerLoads
  intro i f s u pa attr hform hp h1 hb hn ha ho hperf hq
  obtain ⟨t, w, hexec, -, -, rfl, hbase, halat, hreached, hframe⟩ :=
    loadOp_performed (intFootprint_inside f.size f.flav f.r1 f.r3 f.upd s) (intFootprint_room [f.r1] f.r3 f.upd)
      rfl rfl rfl (.inl rfl) hb hq hn hperf ha ho
  exact ⟨_, (exec_intLoad_passes hform hp h1 hb).trans hexec, getGr_loaded h1 hb, hbase, halat, hreached, hframe⟩

/-- Settles O51: the outcomes of a load that brings no datum, by its completer. -/
theorem loadCompleters : Obligations.LoadCompleters := by
  unfold Obligations.LoadCompleters
  intro i f s hform hp h1 hb
  have hinside := intFootprint_inside f.size f.flav f.r1 f.r3 f.upd s
  have hroom := intFootprint_room [f.r1] f.r3 f.upd
  rw [exec_intLoad_passes hform hp h1 hb]
  refine ⟨fun hs hd hq => ?deferred, fun hs hn hed c k e rest hc hf hk => loadOp_raises hs hn hed hc hf hk,
    fun hflav hn hq pa attr u ha hattr => ?failed, fun hchecks hhit hn hq pa attr u ha => ?hit⟩
  case deferred =>
    obtain ⟨t, w, hexec, -, rfl, hbase, halat, hframe⟩ :=
      loadOp_deferred hinside hroom rfl (.inl ⟨rfl, rfl, rfl⟩) hb hq hs hd
    exact ⟨_, hexec, congrArg GReg.nat (getGr_loaded h1 hb), hbase, halat, hframe⟩
  case failed =>
    obtain ⟨t, w, hexec, -, rfl, hbase, halat, hleft, hframe⟩ :=
      loadOp_failed hinside hroom rfl rfl rfl rfl hb hq hflav hn ha hattr
    exact ⟨_, hexec, getGr_loaded h1 hb, hbase, halat, hleft, hframe⟩
  case hit =>
    obtain ⟨t, w, hexec, -, hgr, -, hpsr, rfl, hbase, halat, hframe⟩ :=
      loadOp_hits (f := intFootprint [] f.r3 f.upd) (p := intSpec f.size f.flav f.r1)
        (fun v hv => ⟨hv, rfl, rfl, rfl, rfl, rfl⟩) (intFootprint_room [] f.r3 f.upd) rfl rfl rfl rfl hb hq hchecks hhit hn ha
    have htarget : w.getGr f.r1 = s.getGr f.r1 := getGr_congr hgr (congrArg (bit · Psr.bn) hpsr)
    exact ⟨_, hexec, by rw [advanced_getGr, getGr_updBase hb]; exact htarget, hbase, halat, hframe⟩

end Machine
end Sys2Proof
end

section
/-!
The integer stores (IntegerStores; 43_memory_instructions.md R432, R433).
-/
namespace Sys2Proof
namespace Machine

/-- What a store of n bytes may change. -/
abbrev storeFootprint (pa n : Nat) (r3 : BitVec 7) (u : BaseUpd) : Footprint :=
  { gr := baseGr r3 u, tc := true, owed := true, alat := true, bytes := inBytes pa n, stale := true, lines := true }

/-- A store that writes nothing besides its bytes completes. -/
theorem storeOp_plain {n align v : Nat} {sup : Support} {r3 : BitVec 7} {u : BaseUpd} {s w : State} {pa : Nat} {attr : Attr}
    (hb : BaseOk r3 none u) (hq : Quiet s) (hm : MemoryOk s)
    (ha : Accessible s { va := s.val r3, size := n, align := align, w := true, dirty := true, sup := sup, pl := s.cpl } pa attr w)
    (ho : Ordinary w attr pa n) :
    ∃ t, storeOp n align false sup v r3 u id s = .next t ∧ readBytes (s.dpsr Psr.be) t.mem pa n = v % 256 ^ n ∧
      NewBase s t r3 u ∧ t.alat = (s.alat.filter fun a => !rangesOverlap a.pa a.size pa n) ∧ Reached w t attr pa n ∧
      Frame (storeFootprint pa n r3 u) s t := by
  obtain ⟨t, -, hexec, -, -, -, -, hread, hbase, halat, hreached, hframe⟩ :=
    storeOp_stored (f := storeFootprint pa n r3 u) (extra := id) (fun _ ht => ht) (fun _ => ⟨rfl, rfl, rfl, rfl, rfl⟩)
      (fun _ => rfl) (.of (fun _ hr => hr) (.inl rfl)) rfl rfl rfl rfl rfl (fun _ h => h) hb hq hm ha ho
  exact ⟨t, hexec, hread, hbase, halat, hreached, hframe⟩

/-- Settles O54: the checks pass, and the store writes the low bytes of its register. -/
theorem integerStores : Obligations.IntegerStores := by
  unfold Obligations.IntegerStores
  intro i f s u pa attr hform hp hb h3 h2 ha ho hm hq
  have hpass : ∀ p ∈ [chkIllegal (updIllegal f.r3 none f.upd), (s.nat f.r3 || s.nat f.r2, excRegNat true false false)],
      p.1 = false := by
    simp [chkIllegal, updIllegal_ok hb, h3, h2]
  obtain ⟨t, hexec, hread, hrest⟩ :=
    storeOp_plain (v := lowBytes f.size (s.val f.r2)) hb hq hm ha ho
  rw [exec_intStoreForm hform, intStore, predicated_true hp, guarded_pass hpass]
  exact ⟨t, hexec, hread.trans (Nat.mod_mod _ _), hrest⟩

end Machine
end Sys2Proof
end

section
/-!
SUPPORT. The memory in parts: what a slice of read bytes and the halves of a stored number are.
-/
namespace Sys2Proof
namespace Machine

/-- A slice of the bytes of a range is the bytes of the slice. -/
theorem readList_slice (m : List Host.Cell) (a : Nat) {j k n : Nat} (h : j + k ≤ n) :
    ((readList m a n).drop j).take k = readList m (a + j) k := by
  obtain ⟨l, rfl⟩ := Nat.exists_eq_add_of_le h
  rw [Nat.add_assoc, readList_drop, readList_take]

/-- The little-endian bytes of a number are those of its low part, then those of its high part. -/
theorem leBytes_append (n k v : Nat) : leBytes (n + k) v = leBytes n v ++ leBytes k (v / 256 ^ n) := by
  induction n generalizing v with
  | zero => simp [leBytes]
  | succ n ih =>
    rw [Nat.succ_add, leBytes, ih, leBytes, List.cons_append, Nat.div_div_eq_div_mul, Nat.pow_succ']

section
variable {m : List Host.Cell} (hm : Memory.wf m = true) (pa n k v : Nat)
include hm

theorem readList_stored : readList (writeList m pa (leBytes (n + k) v)) pa (n + k) = leBytes n v ++ leBytes k (v / 256 ^ n) := by
  have hread := readList_writeList (bs := leBytes (n + k) v) (a := pa) hm
  rw [leBytes_length] at hread
  rw [hread, leBytes_append]

/-- The lower bytes of a stored number. -/
theorem readBytes_stored_low : readBytes false (writeList m pa (leBytes (n + k) v)) pa n = v % 256 ^ n := by
  rw [readBytes, ← readList_take _ _ n k, readList_stored hm, List.take_left' (leBytes_length ..)]
  exact leVal_leBytes n v

/-- The upper bytes of a stored number. -/
theorem readBytes_stored_high :
    readBytes false (writeList m pa (leBytes (n + k) v)) (pa + n) k = v / 256 ^ n % 256 ^ k := by
  rw [readBytes, ← readList_drop _ _ n k, readList_stored hm, List.drop_left' (leBytes_length ..)]
  exact leVal_leBytes k _

end

end Machine
end Sys2Proof
end

section
/-!
The semaphores (Exchanges, FetchAndAdds; 43_memory_instructions.md R449 to R453).
-/
namespace Sys2Proof
namespace Machine

/-! How a semaphore ends: its old value in the target, with or without stored bytes. -/

/-- What a semaphore that stores nothing may change. -/
abbrev semReadFootprint (r1 : BitVec 7) : Footprint := { gr := [r1], tc := true, owed := true, lines := true }

/-- What a semaphore that stores n bytes may change. -/
abbrev semFootprint (r1 : BitVec 7) (pa n : Nat) : Footprint :=
  { gr := [r1], tc := true, owed := true, alat := true, bytes := inBytes pa n, stale := true, lines := true }

/-- Lines used before a store and after it are used once. -/
theorem storeBytes_touch_twice (u : State) (attr : Attr) (pa n : Nat) (bs : List Byte) :
    ((u.touch attr pa n).storeBytes pa bs).touch attr pa n = (u.storeBytes pa bs).touch attr pa n := by
  simp [State.touch, State.storeBytes, useLines_idem]

section
variable {r1 : BitVec 7} {s u : State} (h1 : r1 ≠ 0) (hq : Quiet s)
include h1 hq

theorem Walked.semReads (hw : Walked s u) (attr : Attr) (pa n : Nat) (v : Word) :
    ∃ t, finish s ((u.touch attr pa n).setVal r1 v) = .next t ∧ t.getGr r1 = { val := v, nat := false } ∧
      Reached u t attr pa n ∧ Frame (semReadFootprint r1) s t := by
  have hsearch : Touch (semReadFootprint r1) s u := hw.touch rfl rfl rfl
  have htouch := (hsearch.touch attr pa n rfl).setVal v List.mem_cons_self bn_zero
  exact ⟨_, htouch.completes hq it_zero vm_zero, by rw [advanced_getGr]; exact getGr_setGr_self h1,
    by simp [Reached, Searched], htouch.frame⟩

theorem Walked.semWrites (hw : Walked s u) (attr : Attr) (pa : Nat) {n : Nat} {bs : List Byte} (hn : bs.length = n) (v : Word) :
    ∃ t, finish s (((u.storeBytes pa bs).touch attr pa n).setVal r1 v) = .next t ∧
      t.getGr r1 = { val := v, nat := false } ∧ t.mem = writeList s.mem pa bs ∧
      t.alat = (s.alat.filter fun a => !rangesOverlap a.pa a.size pa n) ∧ Reached u t attr pa n ∧
      Frame (semFootprint r1 pa n) s t := by
  subst hn
  obtain ⟨-, -, -, hmem, halat, -⟩ := hw.same
  have hsearch : Touch (semFootprint r1 pa bs.length) s u := hw.touch rfl rfl rfl
  have hstore := (hsearch.storeBytes pa bs rfl rfl fun _ h => h).touch attr pa bs.length rfl
  have htouch := hstore.setVal v List.mem_cons_self bn_zero
  exact ⟨_, htouch.completes hq it_zero vm_zero, by rw [advanced_getGr]; exact getGr_setGr_self h1, by simp [hmem],
    by simp [halat, alatWithout], by simp [Reached, Searched], htouch.frame⟩

end

section
variable {r1 r3 : BitVec 7} {s u : State} {pa n : Nat} {attr : Attr} {sup : Support} {new : Nat → Option Nat}
  (ha : Accessible s (semRef s r3 n sup) pa attr u) (ho : Ordinary u attr pa n)
include ha ho

theorem semOp_of_none (hwb : attr.writeBack = true) (hnew : new (readBytes (s.dpsr Psr.be) s.mem pa n) = none) :
    semOp n sup r1 r3 new s =
      finish s ((u.touch attr pa n).setVal r1 (BitVec.ofNat 64 (readBytes (s.dpsr Psr.be) s.mem pa n))) := by
  obtain ⟨-, -, -, hmem, -⟩ := ha.walked.same
  rw [readBytes] at hnew ⊢
  refine (withRef_accessible ha).trans ?_
  simp only [hwb, if_true, memLoad_ordinary ho, orRefuse, hmem, hnew]

theorem semOp_of_some (hwb : attr.writeBack = true) {v : Nat} (hnew : new (readBytes (s.dpsr Psr.be) s.mem pa n) = some v) :
    semOp n sup r1 r3 new s =
      finish s (((u.storeBytes pa (valBytes (s.dpsr Psr.be 1) n v)).touch attr pa n).setVal r1
        (BitVec.ofNat 64 (readBytes (s.dpsr Psr.be) s.mem pa n))) := by
  obtain ⟨-, -, -, hmem, -⟩ := ha.walked.same
  rw [readBytes] at hnew ⊢
  refine (withRef_accessible ha).trans ?_
  simp only [hwb, if_true, memLoad_ordinary ho, orRefuse, hmem, hnew, memStore_ordinary ho.touch,
    storeBytes_touch_twice]

theorem semOp_of_exported (hwb : attr.writeBack = false) :
    semOp n sup r1 r3 new s =
      finish s (((u.storeBytes pa (leBytes n (Config.freeWord .uceStore s.tick).toNat)).touch attr pa n).setVal r1
        (BitVec.ofNat 64 ((Config.freeWord .uceReply s.tick).toNat % 256 ^ n))) := by
  obtain ⟨hpop, hpib, halias⟩ := ho
  refine (withRef_accessible ha).trans ?_
  simp only [hwb, uceExport, halias, hpib, hpop, Option.isSome_none, Bool.false_eq_true, if_false]

variable (h1 : r1 ≠ 0) (hq : Quiet s)
include h1 hq

/-- A semaphore that keeps the old bytes. -/
theorem semOp_keeps (hwb : attr.writeBack = true) (hnew : new (readBytes (s.dpsr Psr.be) s.mem pa n) = none) :
    ∃ t, semOp n sup r1 r3 new s = .next t ∧
      t.getGr r1 = { val := BitVec.ofNat 64 (readBytes (s.dpsr Psr.be) s.mem pa n), nat := false } ∧
      Reached u t attr pa n ∧ Frame (semReadFootprint r1) s t := by
  rw [semOp_of_none ha ho hwb hnew]
  exact ha.walked.semReads h1 hq ..

/-- A semaphore that stores. -/
theorem semOp_stores (hwb : attr.writeBack = true) (hm : MemoryOk s) {v : Nat}
    (hnew : new (readBytes (s.dpsr Psr.be) s.mem pa n) = some v) :
    ∃ t, semOp n sup r1 r3 new s = .next t ∧
      t.getGr r1 = { val := BitVec.ofNat 64 (readBytes (s.dpsr Psr.be) s.mem pa n), nat := false } ∧
      readBytes (s.dpsr Psr.be 1) t.mem pa n = v % 256 ^ n ∧
      t.alat = (s.alat.filter fun a => !rangesOverlap a.pa a.size pa n) ∧ Reached u t attr pa n ∧
      Frame (semFootprint r1 pa n) s t := by
  rw [semOp_of_some ha ho hwb hnew]
  obtain ⟨t, hexec, hgr, hmem, hrest⟩ := ha.walked.semWrites h1 hq attr pa (valBytes_length (s.dpsr Psr.be 1) n v)
    (BitVec.ofNat 64 (readBytes (s.dpsr Psr.be) s.mem pa n))
  exact ⟨t, hexec, hgr, by rw [hmem, readBytes_stored hm], hrest⟩

/-- A fetchadd of another page is exported: the platform replies n bytes and stores n bytes. -/
theorem semOp_exported (hwb : attr.writeBack = false) :
    ∃ t, semOp n sup r1 r3 new s = .next t ∧ t.nat r1 = false ∧ (t.val r1).toNat < 256 ^ n ∧ Reached u t attr pa n ∧
      t.alat = (s.alat.filter fun a => !rangesOverlap a.pa a.size pa n) ∧ Frame (semFootprint r1 pa n) s t := by
  rw [semOp_of_exported ha ho hwb]
  obtain ⟨t, hexec, hgr, -, halat, hreached, hframe⟩ := ha.walked.semWrites h1 hq attr pa
    (leBytes_length n (Config.freeWord .uceStore s.tick).toNat)
    (BitVec.ofNat 64 ((Config.freeWord .uceReply s.tick).toNat % 256 ^ n))
  refine ⟨t, hexec, by rw [State.nat, hgr], ?_, hreached, halat, hframe⟩
  rw [State.val, hgr, BitVec.toNat_ofNat]
  exact (Nat.mod_le _ _).trans_lt (Nat.mod_lt _ (by positivity))

end

/-! The instructions. -/

theorem semChecks_pass {s : State} {r1 r3 : BitVec 7} {nat2 : Bool} {k : Out} (h1 : r1 ≠ 0) (h3 : s.nat r3 = false)
    (h2 : nat2 = false) : guarded s (semChecks s r1 r3 nat2) k = k := by
  have hr1 : ¬r1 = 0#7 := h1
  exact guarded_pass (by simp [semChecks, chkTarget, hr1, h3, h2])

section
variable {i : Instr} {f : SemForm} {s : State} (hp : s.pred f.qp = true) (h1 : f.r1 ≠ 0) (h3 : s.nat f.r3 = false)
  (h2 : s.nat f.r2 = false)
include hp h1 h3 h2

theorem exec_xchg_passes (hform : xchgForm i = some f) :
    exec i s = semOp f.size .writeBackOnly f.r1 f.r3 (fun _ => some (lowBytes f.size (s.val f.r2))) s := by
  rw [exec_xchgForm hform, xchgOp, predicated_true hp, semChecks_pass h1 h3 h2]

theorem exec_cmpxchg_passes (hform : cmpxchgForm i = some f) :
    exec i s = semOp f.size .writeBackOnly f.r1 f.r3
      (fun old => if old = lowBytes f.size (s.getAr Ar.ccv) then some (lowBytes f.size (s.val f.r2)) else none) s := by
  rw [exec_cmpxchgForm hform, cmpxchgOp, predicated_true hp, semChecks_pass h1 h3 h2]

/-- xchg, and cmpxchg where the old bytes equal CCV's, store by one rule. -/
theorem exec_exchange_passes {old : Nat}
    (hform : xchgForm i = some f ∨ cmpxchgForm i = some f ∧ old = (s.getAr 32).toNat % 256 ^ f.size) :
    ∃ new, exec i s = semOp f.size .writeBackOnly f.r1 f.r3 new s ∧ new old = some (lowBytes f.size (s.val f.r2)) := by
  rcases hform with hform | ⟨hform, hccv⟩
  · exact ⟨_, exec_xchg_passes hp h1 h3 h2 hform, rfl⟩
  · exact ⟨_, exec_cmpxchg_passes hp h1 h3 h2 hform, if_pos hccv⟩

/-- The 8 bytes that cmp8xchg16 compares lie in the 16 bytes it reads. -/
theorem exec_cmp8xchg16_passes (hform : cmp8xchg16Form i = some f) {pa : Nat} {attr : Attr} {u : State}
    (ha : Accessible s (pairSemRef s f.r3) pa attr u) (ho : Ordinary u attr (pa / 16 * 16) 16) :
    exec i s =
      if readBytes (s.dpsr Psr.be) s.mem pa 8 = (s.getAr 32).toNat then
        finish s (((u.storeBytes (pa / 16 * 16) (leBytes 16 (pairData s f.r2))).touch attr (pa / 16 * 16) 16).setVal f.r1
          (BitVec.ofNat 64 (readBytes (s.dpsr Psr.be) s.mem pa 8)))
      else finish s ((u.touch attr (pa / 16 * 16) 16).setVal f.r1 (BitVec.ofNat 64 (readBytes (s.dpsr Psr.be) s.mem pa 8))) := by
  obtain ⟨-, -, -, hmem, -⟩ := ha.walked.same
  have hpa : pa % 8 = 0 := ha.pa_aligned (ha.aligned rfl rfl)
  have hslice : ((readList s.mem (pa / 16 * 16) 16).drop (pa % 16)).take 8 = readList s.mem pa 8 := by
    rw [readList_slice _ _ (by omega), Nat.div_add_mod']
  rw [exec_cmp8xchg16Form hform, cmp8xchg16Op, predicated_true hp, semChecks_pass h1 h3 h2]
  refine (withRef_accessible ha).trans ?_
  simp only [memLoad_ordinary ho, orRefuse, hmem, hslice, memStore_ordinary ho.touch, storeBytes_touch_twice]
  rfl

end

/-- The two registers that cmp8xchg16 stores with PSR.be = 0 read back from their halves. -/
theorem pairData_stored {s : State} (hm : MemoryOk s) (hbe : s.dpsr Psr.be 1 = false) (r2 : BitVec 7) (pa : Nat) :
    readBytes false (writeList s.mem pa (leBytes 16 (pairData s r2))) pa 8 = (s.val r2).toNat ∧
      readBytes false (writeList s.mem pa (leBytes 16 (pairData s r2))) (pa + 8) 8 = (s.getAr 25).toNat := by
  have hpair : pairData s r2 = (s.val r2).toNat + 2 ^ 64 * (s.getAr 25).toNat := by
    rw [pairData, hbe, if_neg Bool.false_ne_true]
  have hlow := readBytes_stored_low hm pa 8 8 (pairData s r2)
  have hhigh := readBytes_stored_high hm pa 8 8 (pairData s r2)
  have hval := (s.val r2).isLt
  have hcsd := (s.getAr 25).isLt
  exact ⟨hlow.trans (by rw [hpair]; omega), hhigh.trans (by rw [hpair]; omega)⟩

/-- Settles O55: the exchanges that store, the compare that fails, and cmp8xchg16 with both of its outcomes. -/
theorem exchanges : Obligations.Exchanges := by
  unfold Obligations.Exchanges
  intro i f s u pa attr hp h1 h3 h2 hm hq
  refine ⟨fun ha ho hwb => ⟨fun hform => ?stores, fun hform hne => ?keeps⟩, fun hform ha ho => ?cmp8xchg16⟩
  case stores =>
    obtain ⟨new, hexec, hnew⟩ := exec_exchange_passes hp h1 h3 h2 hform
    obtain ⟨t, hnext, hgr, hread, hrest⟩ := semOp_stores ha ho h1 hq hwb hm hnew
    exact ⟨t, hexec.trans hnext, hgr, hread.trans (Nat.mod_mod _ _), hrest⟩
  case keeps =>
    rw [exec_cmpxchg_passes hp h1 h3 h2 hform]
    exact semOp_keeps ha ho h1 hq hwb (if_neg hne)
  case cmp8xchg16 =>
    rw [exec_cmp8xchg16_passes hp h1 h3 h2 hform ha ho]
    split
    next heq =>
      obtain ⟨t, hnext, hgr, hmem, halat, hreached, hframe⟩ :=
        ha.walked.semWrites h1 hq attr (pa / 16 * 16) (leBytes_length 16 (pairData s f.r2)) _
      exact ⟨t, hnext, hgr, hreached, fun _ => ⟨fun hbe => hmem ▸ pairData_stored hm hbe f.r2 _, halat, hframe⟩,
        fun hne => absurd heq hne⟩
    next hne =>
      obtain ⟨t, hnext, hgr, hreached, hframe⟩ := ha.walked.semReads h1 hq attr (pa / 16 * 16) 16 _
      exact ⟨t, hnext, hgr, hreached, fun heq => absurd heq hne, fun _ => hframe⟩

/-- The increments that fetchadd names, as the bytes it adds to count them (30_encoding.md R312). -/
theorem fetchInc_mod {n : Nat} (hn : n = 4 ∨ n = 8) (inc : BitVec 3) :
    (fetchInc inc).toNat ≡ (if inc.getLsbD 2 then 256 ^ n - [16, 8, 4, 1].getD (inc.toNat % 4) 0
      else [16, 8, 4, 1].getD (inc.toNat % 4) 0) [MOD 256 ^ n] := by
  rcases hn with rfl | rfl <;> revert inc <;> decide

/-- Settles O56: a fetchadd of a write-back page stores the sum, one of another page is exported. -/
theorem fetchAndAdds : Obligations.FetchAndAdds := by
  unfold Obligations.FetchAndAdds
  intro i qp n r1 r3 inc s u pa attr hform hp h1 h3 ha ho hm hq
  obtain ⟨hn, hexec⟩ := exec_fetchaddForm hform s
  rw [hexec, fetchaddOp, predicated_true hp, semChecks_pass h1 h3 rfl]
  refine ⟨fun hwb => ?_, fun hwb => semOp_exported ha ho h1 hq hwb⟩
  obtain ⟨t, hnext, hgr, hread, hrest⟩ := semOp_stores ha ho h1 hq hwb hm
    (new := fun old => some ((old + (fetchInc inc).toNat) % 256 ^ n)) rfl
  refine ⟨t, hnext, hgr, hread.trans ((Nat.mod_mod _ _).trans ?_), hrest⟩
  exact (fetchInc_mod hn inc).add_left _

end Machine
end Sys2Proof
end

section
/-!
SUPPORT. Floating-point targets: the checks of a load and of a store, one at a time (10_state.md R50, R51), and what a written
register and its mark are after the completion.
-/
namespace Sys2Proof
namespace Machine

section
variable {s : State} {r3 : BitVec 7} {u : BaseUpd} {k : Out} {sp : Bool}

theorem fpChecks_illegal {l : List (BitVec 7)} (h : (∃ f ∈ l, f.toNat < 2) ∨ ¬BaseOk r3 none u) :
    guarded s (spChecks sp (fpChecks s l r3 u)) k = raise s { excIllegalOperation with sp := sp } := by
  have hfails : (l.any badFpTarget || updIllegal r3 none u) = true := by
    rw [Bool.or_eq_true, List.any_eq_true]
    exact h.imp (fun ⟨f, hf, hlt⟩ => ⟨f, hf, decide_eq_true hlt⟩) updIllegal_of_not_baseOk
  exact guarded_raises hfails

theorem fpChecks_disabled {l : List (BitVec 7)} {code : BitVec 16} (h2 : ∀ f ∈ l, 2 ≤ f.toNat) (hb : BaseOk r3 none u)
    (hd : chkFp s l = (true, excDisabledFp code)) :
    guarded s (spChecks sp (fpChecks s l r3 u)) k = raise s { off := 0x5500, code := code, sp := sp } := by
  have hlegal : (l.any badFpTarget || updIllegal r3 none u) = false := by
    rw [updIllegal_ok hb, Bool.or_false, List.any_eq_false]
    intro f hf
    rw [badFpTarget, decide_eq_true_eq, not_lt]
    exact h2 f hf
  rw [fpChecks, hd]
  exact (guarded_skips hlegal).trans (guarded_raises rfl)

/-- A register of the low set, where that is disabled. -/
theorem chkFp_low {f : BitVec 7} (h2 : 2 ≤ f.toNat) (h32 : f.toNat < 32) (hd : s.dpsr Psr.dfl = true) :
    chkFp s [f] = (true, excDisabledFp 1) := by
  simp [chkFp, hd, h2, h32, Nat.not_le.mpr h32]

/-- A register of the high set, where that is disabled. -/
theorem chkFp_high {f : BitVec 7} (h32 : 32 ≤ f.toNat) (hd : s.dpsr Psr.dfh = true) :
    chkFp s [f] = (true, excDisabledFp 2) := by
  simp [chkFp, hd, h32, Nat.not_lt.mpr h32]

/-- Two registers, of which a disabled set holds one: the code names the disabled sets. -/
theorem chkFp_pair {f1 f2 : BitVec 7} {low high : Bool} (h1 : 2 ≤ f1.toNat) (h2 : 2 ≤ f2.toNat)
    (hlow : low = (s.dpsr Psr.dfl && (decide (f1.toNat < 32) || decide (f2.toNat < 32))))
    (hhigh : high = (s.dpsr Psr.dfh && (decide (32 ≤ f1.toNat) || decide (32 ≤ f2.toNat)))) (h : low = true ∨ high = true) :
    chkFp s [f1, f2] = (true, excDisabledFp ((if low then 1 else 0) + (if high then 2 else 0))) := by
  have hsets : chkFp s [f1, f2] = (low || high, excDisabledFp ((if low then 1 else 0) ||| (if high then 2 else 0))) := by
    simp [chkFp, h1, h2, hlow, hhigh]
  rw [hsets]
  cases low <;> cases high <;> simp_all

end

/-- The floating-point registers after the completion of a load. -/
theorem getFr_completed (s x : State) (r3 : BitVec 7) (u : BaseUpd) (f : BitVec 7) :
    (advanced s (s.updBase r3 u x)).getFr f = x.getFr f := getFr_congr (by simp)

/-- A register written twice with one value. -/
theorem getFr_setFr_both {v : State} {f1 f2 : BitVec 7} {x : FWord} (h1 : 2 ≤ f1.toNat) :
    ((v.setFr f1 x).setFr f2 x).getFr f1 = x := by
  by_cases h : f1 = f2
  · subst h
    exact getFr_setFr_self h1
  · rw [getFr_setFr_ne h, getFr_setFr_self h1]

theorem setFr_psr {s : State} {f : BitVec 7} (v : FWord) (h : 2 ≤ f.toNat) :
    (s.setFr f v).sys.psr = markFpWritten f s.sys.psr := by
  rw [State.setFr, if_neg (Nat.not_lt.mpr h)]
  rfl

/-- The marks of the register sets after a load: its own is set, the other as before. -/
theorem bit_fpLoaded {s w : State} {r3 : BitVec 7} {u : BaseUpd} {f : BitVec 7} (v : FWord) (h : 2 ≤ f.toNat)
    (hpsr : w.sys.psr = s.sys.psr) :
    bit (advanced s (s.updBase r3 u (w.setFr f v))).sys.psr (if f.toNat < 32 then Psr.mfl else Psr.mfh) = true ∧
      bit (advanced s (s.updBase r3 u (w.setFr f v))).sys.psr (if f.toNat < 32 then Psr.mfh else Psr.mfl) =
        bit s.sys.psr (if f.toNat < 32 then Psr.mfh else Psr.mfl) := by
  have hkept {n : Nat} (hn : bit oneShotMask n = false) :
      bit (advanced s (s.updBase r3 u (w.setFr f v))).sys.psr n = bit (markFpWritten f s.sys.psr) n := by
    rw [advanced_sys, Sys.onPsr_psr, bit_clearOneShot hn, State.updBase_sys, setFr_psr v h, hpsr]
  obtain ⟨hown, hother⟩ := bit_markFpWritten (p := s.sys.psr) h
  exact ⟨(hkept (by split <;> decide)).trans hown, (hkept (by split <;> decide)).trans hother⟩

/-- What a floating-point load may change, whichever of its outcomes it has: a hitting one leaves its targets out. -/
abbrev fpFootprint (targets : List (BitVec 7)) (r3 : BitVec 7) (u : BaseUpd) : Footprint :=
  { gr := baseGr r3 u, fr := targets, psr := fpMarks, tc := true, owed := true, alat := true, lines := true }

theorem fpFootprint_room (targets : List (BitVec 7)) (r3 : BitVec 7) (u : BaseUpd) : Room (fpFootprint targets r3 u) r3 u :=
  .of (fun _ h => h) (.inr rfl)

end Machine
end Sys2Proof
end

section
/-!
The single floating-point loads (FloatLoads; 43_memory_instructions.md R455).
-/
namespace Sys2Proof
namespace Machine

/-- The load of a form. -/
abbrev FpForm.spec (f : FpForm) : LoadSpec := fpSpec f.size f.align f.sup f.fmt f.flav f.f

theorem FpForm.spec_inside (f : FpForm) (s : State) : f.spec.Inside (fpFootprint [f.f] f.r3 f.upd) s :=
  fpSpec_inside f.size f.align f.sup f.fmt f.flav List.mem_cons_self rfl

section
variable {i : Instr} {f : FpForm} {s : State} (hform : fpLoadForm i = some f) (hp : s.pred f.qp = true)
include hform hp

theorem exec_fpLoad_illegal (h : f.f.toNat < 2 ∨ ¬BaseOk f.r3 none f.upd) :
    exec i s = raise s { excIllegalOperation with sp := f.flav.speculative } := by
  rw [exec_fpLoadForm hform, predicated_true hp]
  exact fpChecks_illegal (h.imp_left fun hlt => ⟨f.f, List.mem_cons_self, hlt⟩)

theorem exec_fpLoad_disabled (h2 : 2 ≤ f.f.toNat) (hb : BaseOk f.r3 none f.upd) {code : BitVec 16}
    (hd : chkFp s [f.f] = (true, excDisabledFp code)) :
    exec i s = raise s { off := 0x5500, code := code, sp := f.flav.speculative } := by
  rw [exec_fpLoadForm hform, predicated_true hp]
  exact fpChecks_disabled (by simpa using h2) hb hd

theorem exec_fpLoad_passes (h2 : 2 ≤ f.f.toNat) (he : FpEnabled s f.f) (hb : BaseOk f.r3 none f.upd) :
    exec i s = loadOp f.spec f.r3 f.upd s := by
  rw [exec_fpLoadForm hform, predicated_true hp, fpChecks_ok (by simpa using h2) (by simpa using he) hb]

end

/-- Settles O57: the checks in their order, then the outcomes of the load, by its completer. -/
theorem floatLoads : Obligations.FloatLoads := by
  unfold Obligations.FloatLoads
  intro i f s hform hp
  refine ⟨exec_fpLoad_illegal hform hp,
    fun hb h2 h32 hd => exec_fpLoad_disabled hform hp h2 hb (chkFp_low h2 h32 hd),
    fun hb h32 hd => exec_fpLoad_disabled hform hp (by omega) hb (chkFp_high h32 hd), fun h2 he hb => ?_⟩
  have hinside := f.spec_inside s
  have hroom := fpFootprint_room [f.f] f.r3 f.upd
  rw [exec_fpLoad_passes hform hp h2 he hb]
  refine ⟨fun hn hs hmiss => loadOp_nat hmiss hs hn,
    fun c k e rest hn hc hf hmiss hspec => loadOp_fault hmiss hn hc hf hspec, fun hs hd hq => ?deferred,
    fun v pa attr hn ha hq => ⟨fun ho hperf => ?performed, fun hflav hattr => ?failed, fun hchecks hhit => ?hit⟩⟩
  case deferred =>
    obtain ⟨t, w, hexec, -, rfl, hbase, halat, hframe⟩ :=
      loadOp_deferred hinside hroom rfl (.inl ⟨rfl, rfl, rfl⟩) hb hq hs hd
    exact ⟨_, hexec, (getFr_completed ..).trans (getFr_setFr_self h2), hbase, halat, hframe⟩
  case performed =>
    obtain ⟨t, w, hexec, -, hpsr, rfl, hbase, halat, hreached, hframe⟩ :=
      loadOp_performed hinside hroom rfl rfl rfl (.inl rfl) hb hq hn hperf ha ho
    obtain ⟨hown, hother⟩ := bit_fpLoaded (r3 := f.r3) (u := f.upd)
      (Config.fpFromMem f.fmt (readBytes (s.dpsr Psr.be) s.mem pa f.size)) h2 hpsr
    exact ⟨_, hexec, (getFr_completed ..).trans (getFr_setFr_self h2), hown, hother, hbase, halat, hreached, hframe⟩
  case failed =>
    obtain ⟨t, w, hexec, -, rfl, hbase, halat, -, hframe⟩ :=
      loadOp_failed hinside hroom rfl rfl rfl rfl hb hq hflav hn ha hattr
    exact ⟨_, hexec, (getFr_completed ..).trans (getFr_setFr_self h2), hbase, halat, hframe⟩
  case hit =>
    obtain ⟨t, w, hexec, -, -, hfr, -, rfl, hbase, halat, hframe⟩ :=
      loadOp_hits (f := fpFootprint [] f.r3 f.upd) (p := f.spec) (fun v hv => ⟨hv.markFp _ rfl, keeps_markFp _ _⟩)
        (fpFootprint_room [] f.r3 f.upd) rfl rfl rfl rfl hb hq hchecks hhit hn ha
    exact ⟨_, hexec, (getFr_completed ..).trans (getFr_congr hfr), hbase, halat, hframe⟩

end Machine
end Sys2Proof
end

section
/-!
The floating-point pair loads (FloatPairLoads; 43_memory_instructions.md R455).
-/
namespace Sys2Proof
namespace Machine

/-- The load of a form. -/
abbrev PairForm.spec (f : PairForm) : LoadSpec := pairSpec f.fmt f.flav f.f1 f.f2

theorem PairForm.spec_inside (f : PairForm) (s : State) : f.spec.Inside (fpFootprint [f.f1, f.f2] f.r3 f.upd) s :=
  pairSpec_inside f.fmt f.flav List.mem_cons_self (List.mem_cons_of_mem _ List.mem_cons_self) rfl

section
variable {i : Instr} {f : PairForm} {s : State} (hform : fpPairForm i = some f) (hp : s.pred f.qp = true)
include hform hp

theorem exec_fpPair_illegal (h : f.f1.toNat < 2 ∨ f.f2.toNat < 2 ∨ ¬BaseOk f.r3 none f.upd) :
    exec i s = raise s { excIllegalOperation with sp := f.flav.speculative } := by
  rw [exec_fpPairForm hform, predicated_true hp]
  refine fpChecks_illegal ?_
  rcases h with h1 | h2 | hb
  · exact .inl ⟨f.f1, by simp, h1⟩
  · exact .inl ⟨f.f2, by simp, h2⟩
  · exact .inr hb

variable (h1 : 2 ≤ f.f1.toNat) (h2 : 2 ≤ f.f2.toNat) (hb : BaseOk f.r3 none f.upd)
include h1 h2 hb

theorem exec_fpPair_disabled {code : BitVec 16} (hd : chkFp s [f.f1, f.f2] = (true, excDisabledFp code)) :
    exec i s = raise s { off := 0x5500, code := code, sp := f.flav.speculative } := by
  rw [exec_fpPairForm hform, predicated_true hp]
  exact fpChecks_disabled (by simp [h1, h2]) hb hd

theorem exec_fpPair_passes (he1 : FpEnabled s f.f1) (he2 : FpEnabled s f.f2) :
    exec i s = loadOp f.spec f.r3 f.upd s := by
  rw [exec_fpPairForm hform, predicated_true hp, fpChecks_ok (by simp [h1, h2]) (by simp [he1, he2]) hb]

end

/-- The datum of each target of a pair: the first takes the lower half of the bytes. -/
theorem getFr_pairPut {f : PairForm} {m : List Host.Cell} {be : Bool} {pa : Nat} {w : State} :
    (2 ≤ f.f1.toNat → f.f1 ≠ f.f2 → (f.spec.put be (readList m pa f.spec.size) w).getFr f.f1 =
        Config.fpFromMem f.fmt.config (readBytes be m pa f.fmt.bytes)) ∧
      (2 ≤ f.f2.toNat → (f.spec.put be (readList m pa f.spec.size) w).getFr f.f2 =
        Config.fpFromMem f.fmt.config (readBytes be m (pa + f.fmt.bytes) f.fmt.bytes)) := by
  have hsize : f.spec.size = f.fmt.bytes + f.fmt.bytes := Nat.two_mul _
  rw [hsize, readBytes, readBytes, ← readList_take m pa f.fmt.bytes f.fmt.bytes, ← readList_drop m pa f.fmt.bytes f.fmt.bytes]
  exact ⟨fun h1 hne => (getFr_setFr_ne hne).trans (getFr_setFr_self h1), fun h2 => getFr_setFr_self h2⟩

/-- Settles O58: the checks in their order, then the outcomes of the load, by its completer, for both targets. -/
theorem floatPairLoads : Obligations.FloatPairLoads := by
  unfold Obligations.FloatPairLoads
  intro i f s hform hp
  refine ⟨exec_fpPair_illegal hform hp,
    fun low high hb h1 h2 hlow hhigh h => exec_fpPair_disabled hform hp h1 h2 hb (chkFp_pair h1 h2 hlow hhigh h),
    fun h1 h2 he1 he2 hb => ?_⟩
  have hinside := f.spec_inside s
  have hroom := fpFootprint_room [f.f1, f.f2] f.r3 f.upd
  rw [exec_fpPair_passes hform hp h1 h2 hb he1 he2]
  refine ⟨fun hn hs hmiss => loadOp_nat hmiss hs hn,
    fun c k e rest hn hc hf hmiss hspec => loadOp_fault hmiss hn hc hf hspec, fun hs hd hq => ?deferred,
    fun v pa attr hn ha hq => ⟨fun ho hperf => ?performed, fun hflav hattr => ?failed, fun hchecks hhit => ?hit⟩⟩
  case deferred =>
    obtain ⟨t, w, hexec, -, rfl, hbase, halat, hframe⟩ :=
      loadOp_deferred hinside hroom rfl (.inl ⟨rfl, rfl, rfl⟩) hb hq hs hd
    exact ⟨_, hexec, (getFr_completed ..).trans (getFr_setFr_both h1), (getFr_completed ..).trans (getFr_setFr_self h2), hbase,
      halat, hframe⟩
  case performed =>
    obtain ⟨t, w, hexec, -, -, rfl, hbase, halat, hreached, hframe⟩ :=
      loadOp_performed hinside hroom rfl rfl rfl (.inl rfl) hb hq hn hperf ha ho
    obtain ⟨hfirst, hsecond⟩ := getFr_pairPut (f := f) (m := s.mem) (be := s.dpsr Psr.be) (pa := pa) (w := w)
    exact ⟨_, hexec, fun hne => (getFr_completed ..).trans (hfirst h1 hne), (getFr_completed ..).trans (hsecond h2), hbase, halat,
      hreached, hframe⟩
  case failed =>
    obtain ⟨t, w, hexec, -, rfl, hbase, halat, -, hframe⟩ :=
      loadOp_failed hinside hroom rfl rfl rfl rfl hb hq hflav hn ha hattr
    exact ⟨_, hexec, (getFr_completed ..).trans (getFr_setFr_both h1), (getFr_completed ..).trans (getFr_setFr_self h2), hbase,
      halat, hframe⟩
  case hit =>
    obtain ⟨t, w, hexec, -, -, hfr, -, rfl, hbase, halat, hframe⟩ :=
      loadOp_hits (f := fpFootprint [] f.r3 f.upd) (p := f.spec)
        (fun v hv => ⟨(hv.markFp _ rfl).markFp _ rfl, (keeps_markFp _ _).trans (keeps_markFp _ _)⟩)
        (fpFootprint_room [] f.r3 f.upd) rfl rfl rfl rfl hb hq hchecks hhit hn ha
    exact ⟨_, hexec, (getFr_completed ..).trans (getFr_congr hfr), (getFr_completed ..).trans (getFr_congr hfr), hbase, halat,
      hframe⟩

end Machine
end Sys2Proof
end

section
/-!
The floating-point stores (FloatStores; 43_memory_instructions.md R455).
-/
namespace Sys2Proof
namespace Machine

section
variable {i : Instr} {f : FpForm} {s : State} (hform : fpStoreForm i = some f) (hp : s.pred f.qp = true)
include hform hp

theorem exec_fpStore_illegal (hb : ¬BaseOk f.r3 none f.upd) : exec i s = raise s excIllegalOperation := by
  rw [exec_fpStoreForm hform, predicated_true hp]
  exact guarded_raises (updIllegal_of_not_baseOk hb)

variable (hb : BaseOk f.r3 none f.upd)
include hb

theorem exec_fpStore_disabled {code : BitVec 16} (hd : chkFp s [f.f] = (true, excDisabledFp code)) :
    exec i s = raise s { off := 0x5500, code := code } := by
  rw [exec_fpStoreForm hform, predicated_true hp, fpStoreChecks, hd]
  exact (guarded_skips (updIllegal_ok hb)).trans (guarded_raises rfl)

/-- An enabled source leaves the check of the address. -/
theorem exec_fpStore_enabled (he : FpEnabled s f.f) :
    exec i s = guarded s [(s.nat f.r3, excRegNat true false false)]
      (storeOp f.size f.align false f.sup (Config.fpToMem f.fmt (s.getFr f.f)) f.r3 f.upd id s) := by
  rw [exec_fpStoreForm hform, predicated_true hp]
  exact (guarded_skips (updIllegal_ok hb)).trans (guarded_skips (chkFp_of_enabled he))

theorem exec_fpStore_nat (he : FpEnabled s f.f) (hn : s.nat f.r3 = true) :
    exec i s = raise s { off := 0x5600, code := 0x10, w := true } :=
  (exec_fpStore_enabled hform hp hb he).trans (guarded_raises hn)

theorem exec_fpStore_passes (he : FpEnabled s f.f) (hn : s.nat f.r3 = false) :
    exec i s = storeOp f.size f.align false f.sup (Config.fpToMem f.fmt (s.getFr f.f)) f.r3 f.upd id s :=
  (exec_fpStore_enabled hform hp hb he).trans (guarded_skips hn)

end

/-- Settles O59: the checks in their order, then the store of the memory form of its register, or the fault of its reference. -/
theorem floatStores : Obligations.FloatStores := by
  unfold Obligations.FloatStores
  intro i f s hform hp
  refine ⟨exec_fpStore_illegal hform hp, fun hb => ⟨exec_fpStore_nat hform hp hb, fun he hn => ?_,
    fun h2 h32 hd => exec_fpStore_disabled hform hp hb (chkFp_low h2 h32 hd),
    fun h32 hd => exec_fpStore_disabled hform hp hb (chkFp_high h32 hd)⟩⟩
  rw [exec_fpStore_passes hform hp hb he hn]
  exact ⟨fun v pa attr ha ho hm hq => storeOp_plain hb hq hm ha ho, fun c k e rest hc hf => withRef_fault hc hf⟩

end Machine
end Sys2Proof
end

section
/-!
SUPPORT. The first of several checks that fails, and the first fault of a data reference (21_memory_translation.md R284;
60_exceptions.md R505).
-/
namespace Sys2Proof
namespace Machine

/-! The first check that fails. -/

/-- Of these checks this is the first that fails. -/
def FirstFailing (l : List (DFault × Bool × Exc)) (p : DFault × Exc) : Prop := ∃ rest, failing l = p :: rest

theorem failing_append (l r : List (DFault × Bool × Exc)) : failing (l ++ r) = failing l ++ failing r := List.filterMap_append

namespace FirstFailing
variable {l r : List (DFault × Bool × Exc)} {p : DFault × Exc} {k : DFault} {c : Bool} {e : Exc}

theorem of_fails (h : c = true) : FirstFailing ((k, c, e) :: l) (k, e) := by
  subst h
  exact ⟨_, rfl⟩

theorem of_passes (hc : c = false) (h : FirstFailing l p) : FirstFailing ((k, c, e) :: l) p := by
  subst hc
  exact h

theorem append (h : FirstFailing l p) : FirstFailing (l ++ r) p := by
  obtain ⟨rest, hl⟩ := h
  exact ⟨rest ++ failing r, by rw [failing_append, hl, List.cons_append]⟩

theorem after (hl : ∀ q ∈ l, q.2.1 = false) (h : FirstFailing r p) : FirstFailing (l ++ r) p := by
  obtain ⟨rest, hr⟩ := h
  exact ⟨rest, by rw [failing_append, failing_eq_nil hl, List.nil_append, hr]⟩

end FirstFailing

/-! The fields of ITIR. -/

/-- ITIR of a Key Miss: the page size of the region register, the key of the entry (60_exceptions.md R489). -/
theorem keyMissItir_eq (rr : Word) (key : BitVec 24) :
    (defaultItir rr &&& (0xFC : Word)) ||| (key.setWidth 64 <<< 8 : Word) = (rr &&& 0xFC) ||| (0#32 ++ key ++ 0#8 : Word) := by
  have hsize : (defaultItir rr &&& 0xFC : Word) = rr &&& 0xFC := by
    rw [defaultItir, BitVec.and_assoc]
    rfl
  have hkey : (key.setWidth 64 <<< 8 : Word) = 0#32 ++ key ++ 0#8 := by
    apply BitVec.eq_of_getLsbD_eq
    intro i hi
    simp only [BitVec.getLsbD_shiftLeft, BitVec.getLsbD_append, BitVec.getLsbD_setWidth, BitVec.getLsbD_zero]
    by_cases hlow : i < 8
    · simp [hlow]
    · by_cases hhigh : i - 8 < 24
      · simp [hlow, hhigh, hi, show i - 8 < 64 by omega]
      · simp [hlow, hhigh, BitVec.getLsbD_of_ge key (i - 8) (by omega)]
  rw [hsize, hkey]

/-! The checks of a page. -/

section
variable {s : State} {ref : Ref} {e : TlbEntry} {k : DFault} {x : Exc}

/-- With PSR.dt = 1 the one matching entry decides by its page, and then by the late checks. -/
theorem FaultsWith.of_found (hdt : (s.dataView 0).dt = true) (hva : unimplVa s.vm ref.va = false)
    (hlookup : (s.dataView 0).tlb.lookup .data (rrRid ((s.dataView 0).rrOf ref.va)) ref.va = [e])
    (h : FirstFailing (pageFaults s (s.dataView 0) ref e ++ ref.late s (s.dataView 0) (attrOf e.ma)) (k, x)) :
    FaultsWith s ref k x := by
  have hfound : searchTlb s (s.dataView 0) (s.dataView 100) .data ref.va = .found e s := by
    rw [searchTlb, hlookup]
  obtain ⟨rest, hfaults⟩ := h
  exact ⟨_, rest, by rw [checkRef_searched hdt hva, hfound]; rfl, rfl, hfaults⟩

/-- A mapped reference is left to its late checks. -/
theorem FaultsWith.of_late {pa : Nat} {attr : Attr} (hmapped : Mapped s ref pa attr) (hchk : ref.chk = true)
    (h : FirstFailing (lateFaults s (s.dataView 0) ref attr) (k, x)) : FaultsWith s ref k x := by
  have hlate : FirstFailing (ref.late s (s.dataView 0) attr) (k, x) := by rwa [Ref.late, if_pos hchk]
  rcases hmapped with ⟨hdt, himpl, rfl, rfl⟩ |
    ⟨hdt, himpl, e, hlookup, hpresent, hma, hkey, hread, hwrite, hdirty, haccess, rfl, rfl⟩
  · obtain ⟨rest, hfaults⟩ := hlate
    have hphysical : checkRef s 0 ref = .ok (unsearched s (s.dataView 0) ref) := by
      rw [checkRef, hdt]
      rfl
    refine ⟨_, rest, hphysical, ?_, ?_⟩ <;> simp [unsearched, hdt, himpl, hfaults]
  · exact .of_found hdt himpl hlookup (hlate.after (pageFaults_pass hpresent hma hkey hread hwrite hdirty haccess))

end

end Machine
end Sys2Proof
end

section
/-!
The first fault of a data reference, in the order of Figure 4-16 (PageFaults; 60_exceptions.md R481, R485 to R495).
-/
namespace Sys2Proof
namespace Machine

section
variable {s : State} {ref : Ref} {e : TlbEntry}

/-! The conditions of the checks, one by one. -/

theorem keyMissing_iff {v : TransView} :
    (v.pk && (matchingPkrs v.pkr e.key).isEmpty) = true ↔ v.pk = true ∧ matchingPkrs v.pkr e.key = [] := by
  simp

theorem keyDenied_iff {v : TransView} :
    (v.pk && (matchingPkrs v.pkr e.key).any fun w => (ref.r && pkrDisables w .r) || (ref.w && pkrDisables w .w)) = true ↔
      v.pk = true ∧ ∃ w ∈ matchingPkrs v.pkr e.key,
        ref.r = true ∧ pkrDisables w .r = true ∨ ref.w = true ∧ pkrDisables w .w = true := by
  simp

theorem rightsDenied_iff :
    ((ref.r && !rights e.ar e.pl ref.pl .r) || (ref.w && !rights e.ar e.pl ref.pl .w)) = true ↔
      ref.r = true ∧ rights e.ar e.pl ref.pl .r = false ∨ ref.w = true ∧ rights e.ar e.pl ref.pl .w = false := by
  simp

theorem keyHeld {v : TransView} (h : KeyAllows v ref e) : (v.pk && (matchingPkrs v.pkr e.key).isEmpty) = false := by
  rw [Bool.eq_false_iff, ne_eq, keyMissing_iff]
  rintro ⟨hpk, hnone⟩
  exact (h hpk).1 hnone

theorem keyAllowed {v : TransView} (h : KeyAllows v ref e) :
    (v.pk && (matchingPkrs v.pkr e.key).any fun w => (ref.r && pkrDisables w .r) || (ref.w && pkrDisables w .w)) = false := by
  rw [Bool.eq_false_iff, ne_eq, keyDenied_iff]
  rintro ⟨hpk, w, hw, hdenied⟩
  obtain ⟨hr, hwr⟩ := (h hpk).2 w hw
  rcases hdenied with ⟨hread, hd⟩ | ⟨hwrite, hd⟩
  · rw [hr hread] at hd; cases hd
  · rw [hwr hwrite] at hd; cases hd

theorem rightsGranted (hread : ref.r = true → rights e.ar e.pl ref.pl .r = true)
    (hwrite : ref.w = true → rights e.ar e.pl ref.pl .w = true) :
    ((ref.r && !rights e.ar e.pl ref.pl .r) || (ref.w && !rights e.ar e.pl ref.pl .w)) = false := by
  rw [Bool.eq_false_iff, ne_eq, rightsDenied_iff]
  rintro (⟨h, hd⟩ | ⟨h, hd⟩)
  · rw [hread h] at hd; cases hd
  · rw [hwrite h] at hd; cases hd

/-! The first fault of a page, in the order of Figure 4-16. -/

section
variable {v : TransView}

theorem pageFaults_notPresent (hp : e.p = false) :
    FirstFailing (pageFaults s v ref e) (.notPresent, faultOf ref 0x5000 0 (some (s.faultRr ref.va &&& 0xFFFFFFFC))) :=
  .of_fails (by simp [hp])

variable (hp : e.p = true)
include hp

theorem pageFaults_natPage (hma : e.ma = 7) :
    FirstFailing (pageFaults s v ref e) (.natPage, faultOf ref 0x5600 0x20 (some (s.faultRr ref.va &&& 0xFFFFFFFC))) :=
  .of_passes (by simp [hp]) (.of_fails (by simp [hma]))

variable (hma : e.ma ≠ 7)
include hma

/-- What is left of the checks of a page that is present and holds no NaT. -/
theorem pageFaults_valid {p : DFault × Exc} (h : FirstFailing ((pageFaults s v ref e).drop 2) p) :
    FirstFailing (pageFaults s v ref e) p :=
  .of_passes (by simp [hp]) (.of_passes (decide_eq_false hma) h)

theorem pageFaults_keyMiss (hpk : v.pk = true) (hnone : matchingPkrs v.pkr e.key = []) :
    FirstFailing (pageFaults s v ref e)
      (.keyMiss, faultOf ref 0x1C00 0 (some ((s.faultRr ref.va &&& 0xFC) ||| (0#32 ++ e.key ++ 0#8)))) := by
  rw [← keyMissItir_eq]
  exact pageFaults_valid hp hma (.of_fails (keyMissing_iff.mpr ⟨hpk, hnone⟩))

theorem pageFaults_keyPermission (hpk : v.pk = true) (hdenied : ∃ w ∈ matchingPkrs v.pkr e.key,
      ref.r = true ∧ pkrDisables w .r = true ∨ ref.w = true ∧ pkrDisables w .w = true) :
    FirstFailing (pageFaults s v ref e) (.keyPermission, faultOf ref 0x5100 0 (some (s.faultRr ref.va &&& 0xFFFFFFFC))) := by
  have hheld : (v.pk && (matchingPkrs v.pkr e.key).isEmpty) = false := by
    obtain ⟨w, hw, -⟩ := hdenied
    simp [List.ne_nil_of_mem hw]
  exact pageFaults_valid hp hma (.of_passes hheld (.of_fails (keyDenied_iff.mpr ⟨hpk, hdenied⟩)))

variable (hkey : KeyAllows v ref e)
include hkey

/-- What is left of them where the page allows the reference by its key. -/
theorem pageFaults_keyed {p : DFault × Exc} (h : FirstFailing ((pageFaults s v ref e).drop 4) p) :
    FirstFailing (pageFaults s v ref e) p :=
  pageFaults_valid hp hma (.of_passes (keyHeld hkey) (.of_passes (keyAllowed hkey) h))

theorem pageFaults_accessRights (hdenied : ref.r = true ∧ rights e.ar e.pl ref.pl .r = false ∨
      ref.w = true ∧ rights e.ar e.pl ref.pl .w = false) :
    FirstFailing (pageFaults s v ref e) (.accessRights, faultOf ref 0x5300 0 (some (s.faultRr ref.va &&& 0xFFFFFFFC))) :=
  pageFaults_keyed hp hma hkey (.of_fails (rightsDenied_iff.mpr hdenied))

variable (hread : ref.r = true → rights e.ar e.pl ref.pl .r = true)
  (hwrite : ref.w = true → rights e.ar e.pl ref.pl .w = true) (hda : s.psrNow Psr.da = false)
include hread hwrite hda

theorem pageFaults_dirtyBit (hdirty : ref.dirty = true) (hd : e.d = false) :
    FirstFailing (pageFaults s v ref e) (.dirtyBit, faultOf ref 0x2000 0 (some (s.faultRr ref.va &&& 0xFFFFFFFC))) :=
  pageFaults_keyed hp hma hkey (.of_passes (rightsGranted hread hwrite) (.of_fails (by simp [hdirty, hd, hda])))

theorem pageFaults_accessBit (hdirty : ref.dirty = true → e.d = true) (ha : e.a = false) :
    FirstFailing (pageFaults s v ref e) (.accessBit, faultOf ref 0x2800 0 (some (s.faultRr ref.va &&& 0xFFFFFFFC))) := by
  have hclean : (ref.dirty && !e.d && !s.psrNow Psr.da) = false := by
    cases hr : ref.dirty
    · rfl
    · simp [hdirty hr]
  exact pageFaults_keyed hp hma hkey (.of_passes (rightsGranted hread hwrite) (.of_passes hclean
    (.of_fails (by simp [ha, hda]))))

end

/-! The first of the late checks. -/

section
variable {attr : Attr}

theorem lateFaults_debug (h : Breakpoint s ref) :
    FirstFailing (lateFaults s (s.dataView 0) ref attr) (.debug, faultOf ref 0x5900 0 none) := by
  obtain ⟨hdb, hdd, hmatch⟩ := h
  exact .of_fails (by simp [hdb, hdd, hmatch])

variable (hbreak : ¬Breakpoint s ref)
include hbreak

theorem lateFaults_unbroken {p : DFault × Exc} (h : FirstFailing ((lateFaults s (s.dataView 0) ref attr).drop 1) p) :
    FirstFailing (lateFaults s (s.dataView 0) ref attr) p := by
  refine .of_passes ?_ h
  rw [Bool.eq_false_iff]
  intro hc
  exact hbreak (by simpa [Breakpoint, and_assoc] using hc)

theorem lateFaults_unaligned (h : AlignmentStops s ref) :
    FirstFailing (lateFaults s (s.dataView 0) ref attr) (.unaligned, faultOf ref 0x5A00 0 none) :=
  lateFaults_unbroken hbreak (.of_fails (by simpa [AlignmentStops, or_assoc] using h))

theorem lateFaults_unsupported (halign : ¬AlignmentStops s ref) (h : Unsupported ref.sup attr) :
    FirstFailing (lateFaults s (s.dataView 0) ref attr) (.unsupported, faultOf ref 0x5B00 0 none) := by
  refine lateFaults_unbroken hbreak (.of_passes ?aligned (.of_fails ?unsupported))
  case aligned =>
    rw [Bool.eq_false_iff]
    intro hc
    exact halign (by simpa [AlignmentStops, or_assoc] using hc)
  case unsupported =>
    cases hsup : ref.sup with
    | any => simp [hsup, Unsupported] at h
    | writeBackOnly => simpa [hsup, Unsupported] using h
    | fetchadd => simpa [hsup, Unsupported, or_iff_not_imp_left] using h
    | tenByte => simpa [hsup, Unsupported] using h

end

/-- An address that is not implemented is the first fault of its reference. -/
theorem FaultsWith.of_unimplemented
    (h : (if (s.dataView 0).dt then unimplVa s.vm ref.va else unimplPa ref.va) = true) :
    FaultsWith s ref .unimplemented (faultOf ref 0x5400 0x30 none) := by
  have hsearch : ((s.dataView 0).dt && !unimplVa (s.dataView 0).vm ref.va) = false := by
    rw [show (s.dataView 0).vm = s.vm from rfl]
    split at h
    · rw [h, Bool.not_true, Bool.and_false]
    next hdt => rw [Bool.eq_false_of_not_eq_true hdt, Bool.false_and]
  have hstops : ((s.dataView 0).dt || unimplPa ref.va) = true := by
    split at h
    next hdt => rw [hdt, Bool.true_or]
    · rw [h, Bool.or_true]
  have hcheck : checkRef s 0 ref = .ok (unsearched s (s.dataView 0) ref) := if_neg (by simp [hsearch])
  rw [unsearched, hstops, if_pos rfl] at hcheck
  exact ⟨_, [], hcheck, rfl, rfl⟩

end

end Machine

open Machine in
/-- Settles O46: an unimplemented address has no search; the checks of the one page found, and then the late checks, fail in their
order. (In Machine this name is the model's own.) -/
theorem pageFaults : Obligations.PageFaults := by
  unfold Obligations.PageFaults
  intro s ref rr
  refine ⟨fun hs => hs.rrAt_eq _ _, .of_unimplemented, fun e hdt hva hrr hlookup => ?page,
    fun pa attr hm hchk => ⟨fun hb => .of_late hm hchk (lateFaults_debug hb),
      fun hb hal => .of_late hm hchk (lateFaults_unaligned hb hal),
      fun hb hal hsup => .of_late hm hchk (lateFaults_unsupported hb hal hsup)⟩⟩
  case page =>
    subst hrr
    have hpage {k : DFault} {x : Exc} (h : FirstFailing (Machine.pageFaults s (s.dataView 0) ref e) (k, x)) :
        FaultsWith s ref k x := .of_found hdt hva hlookup h.append
    refine ⟨fun hp => hpage (pageFaults_notPresent hp), fun hp hma => hpage (pageFaults_natPage hp hma),
      fun hp hma => ⟨fun hpk hnone => hpage (pageFaults_keyMiss hp hma hpk hnone),
        fun hpk hdenied => hpage (pageFaults_keyPermission hp hma hpk hdenied), fun hkey =>
        ⟨fun hdenied => hpage (pageFaults_accessRights hp hma hkey hdenied), fun hr hw =>
          ⟨fun hdirty hd hda => hpage (pageFaults_dirtyBit hp hma hkey hr hw hda hdirty hd),
            fun hdirty ha hda => hpage (pageFaults_accessBit hp hma hkey hr hw hda hdirty ha)⟩⟩⟩⟩

end Sys2Proof
end

section
/-!
Taking an interruption with PSR.ic = 1 and with PSR.ic = 0 (InterruptionEntry, InterruptionEntryNotCollected; 60_exceptions.md
R487, R500, R502; 10_state.md R61).
-/
namespace Sys2Proof
namespace Machine

/-! The new PSR. -/

/-- The PSR bits that an interruption keeps (10_state.md R61). -/
theorem bit_keptMask {n : Nat} (hn : n < 64) : bit keptMask n = true ↔
    n = Psr.up ∨ n = Psr.mfl ∨ n = Psr.mfh ∨ n = Psr.pk ∨ n = Psr.dt ∨ n = Psr.rt ∨ n = Psr.mc ∨ n = Psr.it := by
  revert n
  decide

theorem bit_interruptPsr_eq (be pp : Bool) (p : Word) {n : Nat} (hn : n < 64) :
    bit (interruptPsr be pp p) n =
      if n = Psr.be then be else if n = Psr.pp then pp
      else if n = Psr.up ∨ n = Psr.mfl ∨ n = Psr.mfh ∨ n = Psr.pk ∨ n = Psr.dt ∨ n = Psr.rt ∨ n = Psr.mc ∨ n = Psr.it
        then bit p n
      else false := by
  rw [interruptPsr, bit_setBit hn, bit_setBit hn, bit_and]
  split
  next hpp => rw [hpp, if_neg (by decide)]
  next hpp =>
    simp only [← bit_keptMask hn]
    split
    · rfl
    · cases bit keptMask n <;> simp

section
variable {s : State} (hs : Settled s)
include hs

/-! What an interruption sees with nothing in flight. -/

theorem Settled.icInFlight_eq (fetch : Bool) : s.icInFlight fetch = false := by
  cases fetch
  · rw [State.icInFlight, if_neg Bool.false_ne_true, hs.1, List.any_nil]
  · rw [State.icInFlight, if_pos rfl, hs.2, List.any_nil]

theorem Settled.excIsr_eq {e : Exc} (he : e.codeFree = 0) (ei : BitVec 2) :
    excIsr s e ei =
      isrWord e.code e.x e.w e.r e.na e.sp (!s.psrNow Psr.ic) (s.ctx.translated && s.ctx.ed) ei := by
  simp only [excIsr, he, if_true, hs.icCollect_eq, hs.icInFlight_eq, Bool.or_false, State.isrEd]

theorem Settled.interrupted_ip (e : Exc) (iip : Word) (ri ei : BitVec 2) (nested : Bool) :
    (interrupted s e iip ri ei nested).ip =
      (s.sys.getCr 2 &&& 0xFFFFFFFFFFFF8000) ||| (if nested then 0x1400 else e.off) := by
  rw [interrupted, hs.fcr_eq]

theorem Settled.interrupted_psr_bit (e : Exc) (iip : Word) (ri ei : BitVec 2) (nested : Bool) {n : Nat} (hn : n < 64) :
    bit (interrupted s e iip ri ei nested).sys.psr n =
      if n = Psr.be then bit (s.sys.getCr 0) 1 else if n = Psr.pp then bit (s.sys.getCr 0) 0
      else if n = Psr.up ∨ n = Psr.mfl ∨ n = Psr.mfh ∨ n = Psr.pk ∨ n = Psr.dt ∨ n = Psr.rt ∨ n = Psr.mc ∨ n = Psr.it
        then bit s.sys.psr n
      else false := by
  rw [interrupted_psr, bit_interruptPsr_eq _ _ _ hn, hs.dcr_eq, hs.dcr_eq]

end

/-! The control registers. -/

section
variable (s : State) (e : Exc) (iip : Word) (ri ei : BitVec 2)

/-- An interruption that is not nested writes ISR. -/
theorem interrupted_isr : (interrupted s e iip ri ei false).sys.getCr 17 = excIsr s e ei := by
  simp only [interrupted, interruptSys, Bool.false_eq_true, if_false, Sys.getCr_onPsr]
  exact (Sys.getCr_setCr (by decide)).trans (if_pos rfl)

/-- A control register that is no interruption register stays. -/
theorem interrupted_getCr_other (nested : Bool) {n : Nat} (hn : n ∉ interruptFootprint.cr) :
    (interrupted s e iip ri ei nested).sys.getCr n = s.sys.getCr n := by
  have hstays := (interruptSys_touch s e iip ri ei nested).cr n hn
  simp only [Sys.getCr, rd]
  exact congrArg (·.getD 0) hstays

variable {s} (hs : Settled s) (hic : s.psrNow Psr.ic = false)
include hs hic

/-- With PSR.ic = 0 every data TLB miss is nested. -/
theorem isNested_of_not_collected : isNested s e = e.dataMiss := by
  simp [isNested, hs.icCollect_eq, hs.icInFlight_eq, hic]

/-- With PSR.ic = 0 an interruption writes ISR at most. -/
theorem interruptSys_of_not_collected (nested : Bool) :
    interruptSys s e iip ri ei nested =
      (if nested then s.sys else s.sys.setCr 17 (excIsr s e ei)).onPsr
        (interruptPsr (bit (s.dcr 0 2) 1) (bit (s.dcr 0 1) 0)) := by
  simp only [interruptSys, hs.icCollect_eq, hic, Bool.false_and, Bool.false_eq_true, if_false]

/-- A nested one writes no control register. -/
theorem interrupted_nested_cr : (interrupted s e iip ri ei true).sys.cr = s.sys.cr := by
  rw [interrupted, interruptSys_of_not_collected e iip ri ei hs hic]
  rfl

theorem interrupted_getCr_of_not_collected (nested : Bool) {n : Nat} (hn : n ≠ 17) :
    (interrupted s e iip ri ei nested).sys.getCr n = s.sys.getCr n := by
  rw [interrupted, interruptSys_of_not_collected e iip ri ei hs hic, Sys.getCr_onPsr]
  cases nested
  · exact (Sys.getCr_setCr (by decide)).trans (if_neg hn)
  · rfl

theorem deliver_of_not_collected (hiva : ivaBad s (s.sys.getCr 2 &&& 0xFFFFFFFFFFFF8000) = false) :
    deliver s e iip ri ei = .next (interrupted s e iip ri ei e.dataMiss) := by
  rw [deliver_eq, hs.fcr_eq, hiva, isNested_of_not_collected e hs hic, if_neg Bool.false_ne_true]

end

/-- Settles O9: the delivery, read off register by register and bit by bit. -/
theorem interruptionEntry : Obligations.InterruptionEntry := by
  unfold Obligations.InterruptionEntry
  intro s e iip ri ei hs hic hiva
  refine ⟨interrupted s e iip ri ei false, deliver_of_collected hs hic hiva .., ?ipsr, ?iip, ?iipa, ?ifs, fun v hv => ?ifa,
    fun v hv => ?itir, fun v hv => ?iim, fun v hv => ?iha, fun hcode => ?isr, fun n hn => hs.interrupted_psr_bit e iip ri ei _ hn,
    hs.interrupted_ip .., rfl, fun n hn => ?other, rfl, rfl, interrupted_settled .., interrupted_undisturbed ..⟩
  case ipsr => simp [interrupted_getCr hs hic, collect, Sys.getCr_setCr, collectedPsr]
  case iip => simp [interrupted_getCr hs hic, collect, Sys.getCr_setCr]
  case iipa => simp [interrupted_getCr hs hic, collect, Sys.getCr_setCr]
  case ifs =>
    have hifs : (interrupted s e iip ri ei false).sys.getCr 23 = Config.freeWord .undefIfs s.tick &&& 0x3FFFFFFFFF := by
      simp [interrupted_getCr hs hic, collect, Sys.getCr_setCr]
    rw [hifs, bit_and, show bit 0x3FFFFFFFFF 63 = false by decide, Bool.and_false]
  case ifa => simp [interrupted_getCr hs hic, collect, Sys.getCr_setCr, listedOr, hv]
  case itir => simp [interrupted_getCr hs hic, collect, Sys.getCr_setCr, hv]
  case iim => simp [interrupted_getCr hs hic, collect, Sys.getCr_setCr, listedOr, hv]
  case iha => simp [interrupted_getCr hs hic, collect, Sys.getCr_setCr, listedOr, hv]
  case isr => rw [interrupted_isr, hs.excIsr_eq hcode, hic, Bool.not_true]
  case other =>
    refine interrupted_getCr_other s e iip ri ei false ?_
    simp only [interruptFootprint, List.mem_cons, List.not_mem_nil, or_false]
    omega

/-- Settles O10: only ISR and the PSR are written, and ISR is not where the interruption is a nested miss. -/
theorem interruptionEntryNotCollected : Obligations.InterruptionEntryNotCollected := by
  unfold Obligations.InterruptionEntryNotCollected
  intro s e iip ri ei hs hic hiva
  have hoff {n : Nat} (hn : n < 64) (hbe : n ≠ Psr.be) (hpp : n ≠ Psr.pp) (hkept : bit keptMask n = false) :
      bit (interrupted s e iip ri ei e.dataMiss).sys.psr n = false := by
    rw [interrupted_psr]
    exact bit_interruptPsr hn hbe hpp hkept
  refine ⟨interrupted s e iip ri ei e.dataMiss, deliver_of_not_collected e iip ri ei hs hic hiva,
    fun n hn => interrupted_getCr_of_not_collected e iip ri ei hs hic _ hn, ?entry, rfl, interrupted_ic ..,
    hoff (by decide) (by decide) (by decide) (by decide), hoff (by decide) (by decide) (by decide) (by decide),
    interrupted_cpl .., rfl, rfl, interrupted_settled .., interrupted_undisturbed ..⟩
  case entry =>
    cases hmiss : e.dataMiss with
    | true => exact ⟨congrArg (rd · 17 0) (interrupted_nested_cr e iip ri ei hs hic), hs.interrupted_ip ..⟩
    | false =>
      exact ⟨fun hcode => by rw [interrupted_isr, hs.excIsr_eq hcode, hic, Bool.not_false], hs.interrupted_ip ..⟩

end Machine
end Sys2Proof
end

section
/-!
External interrupts at a boundary, and how long they wait (ExternalInterruptTaken; 60_exceptions.md R514; log entry 19).
-/
namespace Sys2Proof
namespace Machine

/-! What the machine does by itself counts no boundary. -/

theorem volatile_waited (s : State) : s.volatile.waited = s.waited := by
  unfold State.volatile
  split
  · rw [State.mapSys_waited]
  · rfl

theorem Walked.waited {s t : State} (h : Walked s t) : t.waited = s.waited := by
  obtain ⟨b, c, rfl | ⟨n, side, e, rfl⟩⟩ := h <;> rfl

theorem countLoss_waited {s t : State} (h : t.waited = s.waited) : (s.countLoss t).waited = s.waited := by
  unfold State.countLoss
  split
  · split
    · rfl
    · exact h
  · exact h

/-- A walk by itself inserts a translation or leaves the lines it read. -/
theorem selfWalk_waited (s : State) : s.selfWalk.waited = s.waited := by
  unfold State.selfWalk
  extract_lets va side v
  split
  · split
    next e t hfound =>
      have hends := walk_ends s v side va
      rw [hfound] at hends
      exact countLoss_waited (Walked.waited hends)
    all_goals rfl
  · rfl

theorem monitors_waited (s : State) : s.monitors.waited = s.waited := by
  unfold State.monitors
  split <;> rfl

/-- At the end of a step the boundary before the next one is counted, where an interrupt is pending there. -/
theorem tickOver_waited (s : State) :
    (tickOver s).waited = if (tickOver s).interruptPending then s.waited + 1 else 0 := by
  have hkept : s.advanceTimer.volatile.evict.selfWalk.monitors.corrected.waited = s.waited := by
    calc s.advanceTimer.volatile.evict.selfWalk.monitors.corrected.waited
        = s.advanceTimer.volatile.evict.selfWalk.waited := monitors_waited _
      _ = s.advanceTimer.volatile.waited := selfWalk_waited _
      _ = s.waited := volatile_waited _
  rw [← hkept]
  rfl

/-- Where nothing of a higher priority is owed, a pending interrupt is delivered, or the next instruction is fetched. -/
theorem withBoundary_of_pending {s : State} (hmc : s.mcOwed = false ∨ s.psrNow Psr.mc = true) (hpal : s.palOwed = false)
    (his : s.psrNow Psr.is = false) (hirq : s.interruptPending = true) (k : State → Out) :
    withBoundary s k =
      if Config.freeBit .takeInterrupt s.tick = true ∨ Config.maxLatency < s.waited
      then deliver { s with ctx := Ctx.none } excExternal s.ip s.slot s.slot else k s := by
  have howed : (s.mcOwed && !s.psrNow Psr.mc) = false := by
    rcases hmc with h | h <;> simp [h]
  simp only [withBoundary, howed, hpal, his, hirq, Bool.true_and, Bool.or_eq_true, decide_eq_true_eq, Bool.false_eq_true,
    if_false]

/-- Settles O11: the boundary delivers the interrupt or fetches, and the end of each step counts the wait. -/
theorem externalInterruptTaken : Obligations.ExternalInterruptTaken := by
  unfold Obligations.ExternalInterruptTaken
  exact ⟨fun s hmc hpal his hirq => congrArg ticked (withBoundary_of_pending hmc hpal his hirq _), tickOver_waited⟩

end Machine
end Sys2Proof
end

section
/-!
The faults of an instruction fetch, in their order (InstructionFaults; 60_exceptions.md R483 to R493, R497; 21_memory_translation.md
R284).
-/
namespace Sys2Proof
namespace Machine

/-! What the fetch sees with nothing in flight. -/

section
variable {s : State} (hs : Settled s)
include hs

theorem Settled.fview_eq (c : Config.Site) : s.fview c = s.sys := by
  rw [State.fview, hs.2, pick]

theorem Settled.fetchFaultRr_eq (va : Word) : s.fetchFaultRr va = rd s.sys.rr (vrnOf va).toNat 0 := by
  rw [State.fetchFaultRr, hs.fview_eq]

/-- An instruction breakpoint fires by the registers written last. -/
theorem Settled.instrDebug_fires (hdb : s.psrNow Psr.db = true) (hid : s.psrNow Psr.id = false)
    (hbreak : Config.instrBreak s.sys.ibr.toList s.ip s.cpl = true) : (instrDebug s (s.fetchView 0)).1 = true := by
  have hview : (s.fetchView 0).db = true := by
    change s.fpsr Psr.db 20 = true
    rwa [State.fpsr, hs.fview_eq]
  simp only [instrDebug, hview, hid, pickFile, hs.2, hbreak, Bool.not_false, Bool.and_self]

end

/-! The fetch that faults. -/

section
variable {s : State} (hf : Fetches s)
include hf

/-- The fetch of an unimplemented address. -/
theorem step_of_unimplInstr (hu : unimplInstr s s.ip = true) :
    step s = ticked (deliver { s with ctx := Ctx.none } excUnimplInstr (uiaIip s s.ip) s.slot s.slot) := by
  rw [step_of_fetches hf, withFetched, withInstrAddress, hu, if_pos rfl]

variable (hu : unimplInstr s s.ip = false) (he : s.fetchesEarly = false) (hit : s.psrNow Psr.it = true)
include hu he hit

/-- The fetch of an address that no translation matches, with the walker off. -/
theorem step_of_instrMiss (hlookup : (s.fetchView 0).tlb.lookup .instr (rrRid ((s.fetchView 0).rrOf s.ip)) s.ip = [])
    (hoff : walkerEnabled (s.fetchView 100) .instr s.ip = false) :
    step s = ticked (raise { s with ctx := Ctx.none } (instrExc s 0x0C00 0 (some (defaultItir (s.fetchFaultRr s.ip)))
      (if Config.altMissWritesIha then s.fetchFaultIha s.ip else none))) := by
  have hsearch : searchTlb { s with ctx := Ctx.none } (s.fetchView 0) (s.fetchView 100) .instr s.ip = .alternate := by
    rw [searchTlb, hlookup]
    simp only [hoff, Bool.false_eq_true, if_false]
  rw [step_of_fetches hf, withFetched, withInstrAddress]
  simp only [hu, he, hit, hsearch, Bool.not_true, Bool.false_eq_true, if_false]

/-- The fetch of an address that one entry matches goes through the checks of that entry. -/
theorem step_of_instrFound {e : TlbEntry} {u : State}
    (hlookup : (s.fetchView 0).tlb.lookup .instr (rrRid ((s.fetchView 0).rrOf s.ip)) s.ip = [e])
    (hctx : u = { s with ctx := { Ctx.none with translated := true, ed := e.ed, ar := e.ar, pl := e.pl } }) :
    ∃ k, step s = ticked (guarded u (instrFaults s (s.fetchView 0) e ++ [instrDebug s (s.fetchView 0)]) k) := by
  have hsearch : searchTlb { s with ctx := Ctx.none } (s.fetchView 0) (s.fetchView 100) .instr s.ip =
      .found e { s with ctx := Ctx.none } := by
    rw [searchTlb, hlookup]
  have hchecks (k : Nat → Attr → State → Out) : withInstrAddress s k =
      guarded u (instrFaults s (s.fetchView 0) e ++ [instrDebug s (s.fetchView 0)]) (k (e.pa s.ip) (attrOf e.ma) u) := by
    simp only [withInstrAddress, hu, he, hit, hsearch, hctx, Bool.not_true, Bool.false_eq_true, if_false]
  exact ⟨_, (step_of_fetches hf).trans (congrArg ticked (hchecks _))⟩

end

/-! The checks of the entry, in their order. -/

section
variable {s u : State} {v : TransView} {e : TlbEntry} {l : List Check} {k : Out}

theorem instrFaults_notPresent (hp : e.p = false) : guarded u (instrFaults s v e ++ l) k =
    raise u (fetchFault 0x5000 0 (some s.ip) (some (s.fetchFaultRr s.ip &&& 0xFFFFFFFC))) :=
  guarded_raises (by simp [hp])

variable (hp : e.p = true)
include hp

theorem instrFaults_natPage (hma : e.ma = 7) : guarded u (instrFaults s v e ++ l) k =
    raise u (fetchFault 0x5600 0x20 (some s.ip) (some (s.fetchFaultRr s.ip &&& 0xFFFFFFFC))) :=
  (guarded_skips (by simp [hp])).trans (guarded_raises (by simp [hma]))

variable (hma : e.ma ≠ 7)
include hma

/-- What is left of the checks of a page that is present and holds no NaT. -/
theorem instrFaults_valid :
    guarded u (instrFaults s v e ++ l) k = guarded u ((instrFaults s v e).drop 2 ++ l) k :=
  (guarded_skips (by simp [hp])).trans (guarded_skips (decide_eq_false hma))

theorem instrFaults_keyMiss (hpk : v.pk = true) (hnone : matchingPkrs v.pkr e.key = []) :
    guarded u (instrFaults s v e ++ l) k =
      raise u (fetchFault 0x1800 0 (some s.ip) (some ((s.fetchFaultRr s.ip &&& 0xFC) ||| (0#32 ++ e.key ++ 0#8)))) := by
  rw [← keyMissItir_eq]
  exact (instrFaults_valid hp hma).trans (guarded_raises (by simp [hpk, hnone]))

theorem instrFaults_keyPermission (hpk : v.pk = true) (hdenied : ∃ w ∈ matchingPkrs v.pkr e.key, pkrDisables w .x = true) :
    guarded u (instrFaults s v e ++ l) k =
      raise u (fetchFault 0x5100 0 (some s.ip) (some (s.fetchFaultRr s.ip &&& 0xFFFFFFFC))) := by
  have hheld : (v.pk && (matchingPkrs v.pkr e.key).isEmpty) = false := by
    obtain ⟨w, hw, -⟩ := hdenied
    simp [List.ne_nil_of_mem hw]
  exact (instrFaults_valid hp hma).trans ((guarded_skips hheld).trans (guarded_raises (by simpa [hpk] using hdenied)))

variable (hkey : v.pk = true → matchingPkrs v.pkr e.key ≠ [] ∧ ∀ w ∈ matchingPkrs v.pkr e.key, pkrDisables w .x = false)
include hkey

/-- What is left of them where the page allows the fetch by its key. -/
theorem instrFaults_keyed :
    guarded u (instrFaults s v e ++ l) k = guarded u ((instrFaults s v e).drop 4 ++ l) k := by
  have hheld : (v.pk && (matchingPkrs v.pkr e.key).isEmpty) = false :=
    Bool.and_eq_false_imp.mpr fun hpk => by simpa using (hkey hpk).1
  have hallowed : (v.pk && (matchingPkrs v.pkr e.key).any fun w => pkrDisables w .x) = false :=
    Bool.and_eq_false_imp.mpr fun hpk => by simpa using (hkey hpk).2
  exact (instrFaults_valid hp hma).trans ((guarded_skips hheld).trans (guarded_skips hallowed))

theorem instrFaults_accessRights (hdenied : rights e.ar e.pl s.cpl .x = false) : guarded u (instrFaults s v e ++ l) k =
    raise u (fetchFault 0x5200 0 (some s.ip) (some (s.fetchFaultRr s.ip &&& 0xFFFFFFFC))) :=
  (instrFaults_keyed hp hma hkey).trans (guarded_raises (by simp [hdenied]))

variable (hgranted : rights e.ar e.pl s.cpl .x = true)
include hgranted

theorem instrFaults_accessBit (ha : e.a = false) (hia : s.psrNow Psr.ia = false) : guarded u (instrFaults s v e ++ l) k =
    raise u (fetchFault 0x2400 0 (some s.ip) (some (s.fetchFaultRr s.ip &&& 0xFFFFFFFC))) :=
  (instrFaults_keyed hp hma hkey).trans ((guarded_skips (by simp [hgranted])).trans (guarded_raises (by simp [ha, hia])))

theorem instrFaults_pass (ha : e.a = true) : guarded u (instrFaults s v e ++ l) k = guarded u l k :=
  (instrFaults_keyed hp hma hkey).trans ((guarded_skips (by simp [hgranted])).trans (guarded_skips (by simp [ha])))

end

/-- Settles O47: an unimplemented address and a miss stop the fetch before its checks; the checks of the one entry found, and then
the breakpoint, stop it in their order. -/
theorem instructionFaults : Obligations.InstructionFaults := by
  unfold Obligations.InstructionFaults
  intro s rr hf
  refine ⟨fun hs => hs.fetchFaultRr_eq _, fun hu => step_of_unimplInstr hf hu, fun hu he hit hrr => ?_⟩
  subst hrr
  refine ⟨fun hlookup hoff => ⟨_, step_of_instrMiss hf hu he hit hlookup hoff⟩, fun e u hlookup hctx => ?_⟩
  obtain ⟨k, hstep⟩ := step_of_instrFound hf hu he hit hlookup hctx
  rw [hstep]
  refine ⟨fun hp => congrArg ticked (instrFaults_notPresent hp), fun hp hma => congrArg ticked (instrFaults_natPage hp hma),
    fun hp hma => ⟨fun hpk hnone => congrArg ticked (instrFaults_keyMiss hp hma hpk hnone),
      fun hpk hdenied => congrArg ticked (instrFaults_keyPermission hp hma hpk hdenied), fun hkey =>
      ⟨fun hdenied => congrArg ticked (instrFaults_accessRights hp hma hkey hdenied), fun hgranted =>
        ⟨fun ha hia => congrArg ticked (instrFaults_accessBit hp hma hkey hgranted ha hia),
          fun ha hs hdb hid hbreak => congrArg ticked ?debug⟩⟩⟩⟩
  case debug =>
    rw [instrFaults_pass hp hma hkey hgranted ha]
    exact guarded_raises (hs.instrDebug_fires hdb hid hbreak)

end Machine
end Sys2Proof
end

section
/-!
SUPPORT. What the special loads and stores share: the check of a target and a base update, what a plain load raises, application
registers after the completion of an instruction.
-/
namespace Sys2Proof
namespace Machine

section
variable {r1 r3 : BitVec 7} {u : BaseUpd}

/-- GR0 as the target of a load, or an illegal base update, fails the check of the operands. -/
theorem targetIllegal (h : r1 = 0 ∨ ¬BaseOk r3 (some r1) u) : (decide (r1 = 0) || updIllegal r3 (some r1) u) = true := by
  rcases h with h | h
  · rw [h]
    rfl
  · rw [updIllegal_of_not_baseOk h, Bool.or_true]

theorem targetLegal (h1 : r1 ≠ 0) (hb : BaseOk r3 (some r1) u) : (decide (r1 = 0) || updIllegal r3 (some r1) u) = false := by
  rw [decide_eq_false h1, updIllegal_ok hb, Bool.or_self]

end

/-! A plain load. -/

section
variable {p : LoadSpec} {r3 : BitVec 7} {u : BaseUpd} {s : State} (hflav : p.flav = .plain)
include hflav

theorem loadOp_plain_nat (hn : s.nat r3 = true) : loadOp p r3 u s = raise s { off := 0x5600, code := 0x10, r := true } :=
  loadOp_nat (by simp [hflav, LoadFlavour.checks]) (by rw [hflav]; rfl) hn

theorem loadOp_plain_fault (hn : s.nat r3 = false) {c : Checked} {k : DFault} {e : Exc} {rest : List (DFault × Exc)}
    (hc : checkRef s 0 (p.ref s r3) = .ok c) (hf : c.faults = (k, e) :: rest) : loadOp p r3 u s = raise c.st e :=
  loadOp_fault (by simp [hflav, LoadFlavour.checks]) hn hc hf (by simp [hflav, LoadFlavour.speculative])

end

/-- An application register after the completion of an instruction that wrote it. -/
theorem getAr_completed (s x : State) (r3 : BitVec 7) (u : BaseUpd) {n : Nat} (v : Word) (hn : n < 128) (hi : n ≠ Ar.itc) :
    (advanced s (s.updBase r3 u (x.setAr n v))).getAr n = v := by
  rw [getAr_congr hi (t := advanced s (s.updBase r3 u (x.setAr n v))) (s := x.setAr n v) (by simp)]
  exact getAr_setAr_self hn hi

end Machine
end Sys2Proof
end

section
/-!
ld8.fill and st8.spill (FillAndSpill; 43_memory_instructions.md R430, R434).
-/
namespace Sys2Proof
namespace Machine

/-! ld8.fill. -/

/-- The load of ld8.fill: its target's NaT bit comes from UNAT. -/
def fillSpec (s : State) (r1 r3 : BitVec 7) : LoadSpec :=
  { intSpec 8 .plain r1 with
    put := fun be bs t => t.setGr r1
      { val := BitVec.ofNat 64 (bytesVal be bs), nat := bit (s.getAr Ar.unat) (unatBit (s.val r3)) } }

theorem fillSpec_inside {r1 r3 : BitVec 7} {f : Footprint} {s : State} (hr : r1 ∈ f.gr) (hb : bit f.psr Psr.bn = false) :
    (fillSpec s r1 r3).Inside f s :=
  { intSpec_inside 8 .plain hr hb with
    put := fun _ _ _ h => ⟨h.setGr _ hr hb, by constructor <;> simp [fillSpec]⟩ }

section
variable {i : Instr} {f : StoreForm} {s : State} (hform : fillForm i = some f) (hp : s.pred f.qp = true)
include hform hp

theorem exec_fill_checks : exec i s =
    guarded s [chkIllegal (decide (f.r2 = 0) || updIllegal f.r3 (some f.r2) f.upd)]
      (loadOp (fillSpec s f.r2 f.r3) f.r3 f.upd s) := by
  rw [(exec_fillForm hform s).2, fillLoad, predicated_true hp]
  rfl

theorem exec_fill_illegal (h : f.r2 = 0 ∨ ¬BaseOk f.r3 (some f.r2) f.upd) : exec i s = raise s excIllegalOperation :=
  (exec_fill_checks hform hp).trans (guarded_raises (targetIllegal h))

theorem exec_fill_passes (h1 : f.r2 ≠ 0) (hb : BaseOk f.r3 (some f.r2) f.upd) :
    exec i s = loadOp (fillSpec s f.r2 f.r3) f.r3 f.upd s :=
  (exec_fill_checks hform hp).trans (guarded_skips (targetLegal h1 hb))

end

/-! st8.spill. -/

/-- What st8.spill writes besides memory: the NaT bit of its source to UNAT. -/
def spillUnat (s : State) (r2 r3 : BitVec 7) (t : State) : State :=
  t.setAr Ar.unat (setBit (t.getAr Ar.unat) (unatBit (s.val r3)) (s.nat r2))

/-- The value that st8.spill stores. -/
def spillData (s : State) (r2 : BitVec 7) : Nat :=
  (if s.nat r2 then Config.freeWord .spillValue s.tick else s.val r2).toNat

section
variable {i : Instr} {f : StoreForm} {s : State} (hform : spillForm i = some f) (hp : s.pred f.qp = true)
include hform hp

theorem exec_spill_checks : exec i s =
    guarded s [chkIllegal (updIllegal f.r3 none f.upd), (s.nat f.r3, excRegNat true false false)]
      (storeOp 8 8 false .any (spillData s f.r2) f.r3 f.upd (spillUnat s f.r2 f.r3) s) := by
  rw [(exec_spillForm hform s).2, spillStore, predicated_true hp]
  rfl

theorem exec_spill_illegal (h : ¬BaseOk f.r3 none f.upd) : exec i s = raise s excIllegalOperation :=
  (exec_spill_checks hform hp).trans (guarded_raises (updIllegal_of_not_baseOk h))

variable (hb : BaseOk f.r3 none f.upd)
include hb

theorem exec_spill_nat (hn : s.nat f.r3 = true) : exec i s = raise s { off := 0x5600, code := 0x10, w := true } :=
  (exec_spill_checks hform hp).trans ((guarded_skips (updIllegal_ok hb)).trans (guarded_raises hn))

theorem exec_spill_passes (hn : s.nat f.r3 = false) :
    exec i s = storeOp 8 8 false .any (spillData s f.r2) f.r3 f.upd (spillUnat s f.r2 f.r3) s :=
  (exec_spill_checks hform hp).trans ((guarded_skips (updIllegal_ok hb)).trans (guarded_skips hn))

end

/-- The bits of UNAT after st8.spill. -/
theorem bit_spilled {s x : State} (hx : x.ar = s.ar) (r2 r3 : BitVec 7) (u : BaseUpd) {k : Nat} (hk : k < 64) :
    bit ((advanced s (s.updBase r3 u (spillUnat s r2 r3 x))).getAr 36) k =
      if k = ((s.val r3).extractLsb' 3 6).toNat then s.nat r2 else bit (s.getAr 36) k := by
  rw [spillUnat, getAr_completed _ _ _ _ _ (by decide) (by decide), bit_setBit hk, getAr_congr (by decide) hx]
  rfl

/-- What st8.spill may change. -/
abbrev spillFootprint (pa : Nat) (r3 : BitVec 7) (u : BaseUpd) : Footprint :=
  { storeFootprint pa 8 r3 u with ar := [36] }

theorem spillUnat_touch {s t : State} {pa : Nat} {r3 : BitVec 7} {u : BaseUpd} (r2 : BitVec 7)
    (h : Touch (spillFootprint pa r3 u) s t) : Touch (spillFootprint pa r3 u) s (spillUnat s r2 r3 t) :=
  h.setAr _ (List.mem_singleton.mpr rfl) (by decide)

theorem spillUnat_keeps (s t : State) (r2 r3 : BitVec 7) : Keeps t (spillUnat s r2 r3 t) := ⟨rfl, rfl, rfl, rfl, rfl⟩

/-- Settles O52: the fill is a load whose target takes its NaT bit from UNAT, the spill a store that puts it there. -/
theorem fillAndSpill : Obligations.FillAndSpill := by
  unfold Obligations.FillAndSpill
  intro i f s u pa attr hp
  refine ⟨fun hform => exec_fill_illegal hform hp, fun hform => exec_spill_illegal hform hp,
    fun hform h1 hb => ⟨fun hn => ?fillNat, fun hn c k e rest hc hf => ?fillFault⟩,
    fun hform hb => ⟨exec_spill_nat hform hp hb, fun hn c k e rest hc hf => ?spillFault⟩,
    fun hn ho hq => ⟨fun hform h1 hb ha => ?fill, fun hform hb ha hm => ?spill⟩⟩
  case fillNat =>
    rw [exec_fill_passes hform hp h1 hb]
    exact loadOp_plain_nat rfl hn
  case fillFault =>
    rw [exec_fill_passes hform hp h1 hb]
    exact loadOp_plain_fault rfl hn hc hf
  case spillFault =>
    rw [exec_spill_passes hform hp hb hn]
    rw [StoreForm.ref, (exec_spillForm hform s).1] at hc
    exact withRef_fault hc hf
  case fill =>
    obtain ⟨t, w, hexec, -, -, rfl, hbase, -, hreached, hframe⟩ :=
      loadOp_performed (f := { gr := f.r2 :: baseGr f.r3 f.upd, tc := true, owed := true, lines := true })
        (fillSpec_inside (r3 := f.r3) List.mem_cons_self bn_zero) (.of (fun _ h => List.mem_cons_of_mem _ h) (.inl rfl))
        rfl rfl rfl (.inr rfl) hb hq hn (performs_plain ..) ha ho
    exact ⟨_, (exec_fill_passes hform hp h1 hb).trans hexec, getGr_loaded h1 hb, hbase, hreached, hframe⟩
  case spill =>
    rw [StoreForm.ref, (exec_spillForm hform s).1] at ha
    obtain ⟨t, x, hexec, ht, har, -, -, hread, hbase, halat, hreached, hframe⟩ :=
      storeOp_stored (v := spillData s f.r2) (fun _ => spillUnat_touch f.r2) (fun t => spillUnat_keeps s t f.r2 f.r3)
        (fun _ => rfl) (.of (fun _ h => h) (.inl rfl)) rfl rfl rfl rfl rfl (fun _ h => h) hb hq hm ha ho
    refine ⟨t, (exec_spill_passes hform hp hb hn).trans hexec, fun h2 => ?value,
      fun k hk => ht ▸ bit_spilled har f.r2 f.r3 f.upd hk, hbase, halat, hreached, hframe⟩
    rw [hread, spillData, h2, if_neg Bool.false_ne_true]
    exact Nat.mod_eq_of_lt (s.val f.r2).isLt

end Machine
end Sys2Proof
end

section
/-!
ld16 and st16 (SixteenBytes; 43_memory_instructions.md R431, R435).
-/
namespace Sys2Proof
namespace Machine

/-! ld16. -/

/-- The load of ld16: its target and AR[CSD]. -/
def load16Spec (r1 : BitVec 7) : LoadSpec :=
  { intSpec 16 .plain r1 with
    strict := true, sup := .writeBackOnly
    put := fun be bs t =>
      if be then (t.setVal r1 (Config.freeWord .beLow t.tick)).setAr Ar.csd (Config.freeWord .beHigh t.tick)
      else (t.setVal r1 (BitVec.ofNat 64 (leVal (bs.take 8)))).setAr Ar.csd (BitVec.ofNat 64 (leVal (bs.drop 8))) }

/-- In either byte order ld16 writes a value to its target and one to AR[CSD]. -/
theorem load16Spec_put (r1 : BitVec 7) (be : Bool) (bs : List Byte) (t : State) :
    ∃ low high, (load16Spec r1).put be bs t = (t.setVal r1 low).setAr Ar.csd high ∧
      (be = false → low = BitVec.ofNat 64 (leVal (bs.take 8)) ∧ high = BitVec.ofNat 64 (leVal (bs.drop 8))) := by
  cases be
  · exact ⟨_, _, rfl, fun _ => ⟨rfl, rfl⟩⟩
  · exact ⟨_, _, rfl, nofun⟩

theorem load16Spec_inside {r1 : BitVec 7} {f : Footprint} {s : State} (hr : r1 ∈ f.gr) (ha : Ar.csd ∈ f.ar)
    (hb : bit f.psr Psr.bn = false) : (load16Spec r1).Inside f s :=
  { intSpec_inside 16 .plain hr hb with
    put := fun be bs t h => by
      obtain ⟨low, high, hput, -⟩ := load16Spec_put r1 be bs t
      rw [hput]
      exact ⟨(h.setVal low hr hb).setAr high ha (by decide), by constructor <;> simp [State.setAr]⟩ }

/-- The registers after ld16. -/
theorem load16_completed {s w : State} {r r3 : BitVec 7} (hr : r ≠ 0) (be : Bool) (m : List Host.Cell) (pa : Nat) :
    let t := advanced s (s.updBase r3 .none ((load16Spec r).put be (readList m pa 16) w))
    t.nat r = false ∧ (be = false → t.val r = BitVec.ofNat 64 (readBytes false m pa 8) ∧
      t.getAr 25 = BitVec.ofNat 64 (readBytes false m (pa + 8) 8)) := by
  obtain ⟨low, high, hput, hvals⟩ := load16Spec_put r be (readList m pa 16) w
  rw [hput]
  intro t
  have hgr : t.getGr r = { val := low, nat := false } := by
    have hkept : t.getGr r = (w.setVal r low).getGr r := by
      rw [advanced_getGr]
      exact getGr_congr rfl rfl
    exact hkept.trans (getGr_setGr_self hr)
  refine ⟨congrArg GReg.nat hgr, fun hbe => ?_⟩
  obtain ⟨hlow, hhigh⟩ := hvals hbe
  rw [State.val, hgr, hlow, readList_take m pa 8 8]
  refine ⟨rfl, (getAr_completed _ _ _ _ _ (by decide) (by decide)).trans ?_⟩
  rw [hhigh, readList_drop m pa 8 8]
  rfl

section
variable {i : Instr} {qp : BitVec 6} {r r3 : BitVec 7} {s : State} (hp : s.pred qp = true)
include hp

section
variable (hform : load16Form i = some (qp, r, r3))
include hform

theorem exec_load16_illegal (hr : r = 0) : exec i s = raise s excIllegalOperation := by
  rw [exec_load16Form hform, load16, predicated_true hp]
  exact guarded_raises (decide_eq_true hr)

theorem exec_load16_passes (hr : r ≠ 0) : exec i s = loadOp (load16Spec r) r3 .none s := by
  rw [exec_load16Form hform, load16, predicated_true hp]
  exact guarded_skips (decide_eq_false hr)

end

/-! st16. -/

section
variable (hform : store16Form i = some (qp, r, r3))
include hform

theorem exec_store16_nat (hn : s.nat r3 = true ∨ s.nat r = true) :
    exec i s = raise s { off := 0x5600, code := 0x10, w := true } := by
  rw [exec_store16Form hform, store16, predicated_true hp]
  exact guarded_raises ((Bool.or_eq_true ..).mpr hn)

theorem exec_store16_passes (h3 : s.nat r3 = false) (h2 : s.nat r = false) :
    exec i s = storeOp 16 16 true .writeBackOnly (pairData s r) r3 .none id s := by
  rw [exec_store16Form hform, store16, predicated_true hp]
  exact guarded_skips (by rw [h3, h2]; rfl)

end

end

/-- Settles O53: ld16 is a load into two registers, st16 a store of the pair of them. -/
theorem sixteenBytes : Obligations.SixteenBytes := by
  unfold Obligations.SixteenBytes
  intro i qp r r3 s hp
  refine ⟨fun hform => exec_load16_illegal hp hform, fun hform hr hn => ?loadNat, fun hform => exec_store16_nat hp hform,
    fun hn => ⟨fun hform hr ref href => ?load, fun hform hr ref href => ?store⟩⟩
  case loadNat =>
    rw [exec_load16_passes hp hform hr]
    exact loadOp_plain_nat rfl hn
  case load =>
    subst href
    rw [exec_load16_passes hp hform hr]
    refine ⟨fun u pa attr ha ho hq => ?_, fun c k e rest hc hf => loadOp_plain_fault rfl hn hc hf⟩
    obtain ⟨t, w, hexec, -, -, rfl, -, -, hreached, hframe⟩ :=
      loadOp_performed (f := { gr := [r], ar := [25], tc := true, owed := true, lines := true }) (target := none) (u := .none)
        (load16Spec_inside List.mem_cons_self List.mem_cons_self bn_zero) (.of (fun _ h => nomatch h) (.inl rfl)) rfl rfl rfl
        (.inr rfl) (.inl rfl) hq hn (performs_plain ..) ha ho
    obtain ⟨hnat, hvals⟩ := load16_completed hr (s.dpsr Psr.be) s.mem pa
    exact ⟨_, hexec, hnat, hvals, hreached, hframe⟩
  case store =>
    subst href
    rw [exec_store16_passes hp hform hn hr]
    refine ⟨fun u pa attr ha ho hm hq => ?_, fun c k e rest hc hf => withRef_fault hc hf⟩
    obtain ⟨t, -, hexec, -, -, -, hmem, -, -, halat, hreached, hframe⟩ :=
      storeOp_stored (f := storeFootprint pa 16 r3 .none) (target := none) (u := .none) (v := pairData s r) (extra := id)
        (fun _ ht => ht) (fun _ => ⟨rfl, rfl, rfl, rfl, rfl⟩) (fun _ => rfl) (.of (fun _ h => h) (.inl rfl)) rfl rfl rfl rfl rfl
        (fun _ h => h) (.inl rfl) hq hm ha ho
    refine ⟨t, hexec, fun hbe hbe1 => ?_, halat, hreached, hframe⟩
    rw [hmem, hbe]
    exact pairData_stored hm hbe1 r pa

end Machine
end Sys2Proof
end

section
/-!
The faults of loads, stores and semaphores (DataFaults; 60_exceptions.md R476, R480, R484, R487, R494, R495, R505).
-/
namespace Sys2Proof
namespace Machine

/-! The first fault of a reference whose search changed nothing. -/

theorem FaultsWith.raises {s : State} {ref : Ref} {f : DFault} {e : Exc} {k : Checked → Out} (h : FaultsWith s ref f e) :
    withRef s 0 ref k = raise s e := by
  obtain ⟨c, rest, hc, hst, hfaults⟩ := h
  rw [withRef_fault hc hfaults, hst]

/-- An address that no translation matches, with the walker off. -/
theorem FaultsWith.of_alternate {s : State} {ref : Ref} (hdt : (s.dataView 0).dt = true) (hva : unimplVa s.vm ref.va = false)
    (hlookup : (s.dataView 0).tlb.lookup .data (rrRid ((s.dataView 0).rrOf ref.va)) ref.va = [])
    (hoff : walkerEnabled (s.dataView 100) .data ref.va = false) :
    FaultsWith s ref .tlb (missExc ref 0x1000 (defaultItir (s.faultRr ref.va))
      (if Config.altMissWritesIha then s.faultIha ref.va else none)) := by
  have hsearch : searchTlb s (s.dataView 0) (s.dataView 100) .data ref.va = .alternate := by
    rw [searchTlb, hlookup]
    simp only [hoff, Bool.false_eq_true, if_false]
  exact ⟨_, _, by rw [checkRef_searched hdt hva, hsearch]; rfl, rfl, rfl⟩

/-! Integer loads. -/

section
variable {i : Instr} {f : LoadForm} {s : State} (hform : intLoadForm i = some f) (hp : s.pred f.qp = true)
include hform hp

theorem exec_intLoad_illegal (h : f.r1 = 0 ∨ ¬BaseOk f.r3 (some f.r1) f.upd) :
    exec i s = raise s { excIllegalOperation with sp := f.flav.speculative } := by
  rw [exec_intLoadForm hform, intLoad, predicated_true hp]
  exact guarded_raises (targetIllegal h)

variable (h1 : f.r1 ≠ 0) (hb : BaseOk f.r3 (some f.r1) f.upd) (hs : f.flav.speculative = false)
  (hmiss : f.flav.checks = true → s.alatHit false f.r1 = false)
include h1 hb hs hmiss

theorem exec_intLoad_nat (hn : s.nat f.r3 = true) : exec i s = raise s { off := 0x5600, code := 0x10, r := true } :=
  (exec_intLoad_passes hform hp h1 hb).trans (loadOp_nat hmiss hs hn)

variable (hn : s.nat f.r3 = false)
include hn

theorem exec_intLoad_fault {c : Checked} {k : DFault} {e : Exc} {rest : List (DFault × Exc)}
    (hc : checkRef s 0 (f.ref s) = .ok c) (hf : c.faults = (k, e) :: rest) : exec i s = raise c.st e :=
  (exec_intLoad_passes hform hp h1 hb).trans
    (loadOp_fault (p := intSpec f.size f.flav f.r1) hmiss hn hc hf fun h => absurd (hs.symm.trans h) Bool.false_ne_true)

theorem exec_intLoad_faultsWith {k : DFault} {e : Exc} (h : FaultsWith s (f.ref s) k e) : exec i s = raise s e := by
  obtain ⟨c, rest, hc, hst, hf⟩ := h
  rw [exec_intLoad_fault hform hp h1 hb hs hmiss hn hc hf, hst]

end

/-- With PSR.ic = 0 and nothing in flight a data TLB miss goes to the Data Nested TLB vector. -/
theorem raise_nested {s : State} {e : Exc} (hs : Settled s) (hic : s.psrNow Psr.ic = false)
    (hiva : ivaBad s (s.sys.getCr 2 &&& 0xFFFFFFFFFFFF8000) = false) (he : e.dataMiss = true) :
    ∃ t, raise s e = .next t ∧ t.ip = (s.sys.getCr 2 &&& 0xFFFFFFFFFFFF8000) ||| 0x1400 ∧ t.sys.cr = s.sys.cr := by
  have hdeliver := deliver_of_not_collected e s.ip s.slot s.slot hs hic hiva
  rw [he] at hdeliver
  exact ⟨_, hdeliver, hs.interrupted_ip .., interrupted_nested_cr e s.ip s.slot s.slot hs hic⟩

/-! Integer stores. -/

section
variable {i : Instr} {f : StoreForm} {s : State} (hform : intStoreForm i = some f) (hp : s.pred f.qp = true)
include hform hp

theorem exec_intStore_illegal (hb : ¬BaseOk f.r3 none f.upd) : exec i s = raise s excIllegalOperation := by
  rw [exec_intStoreForm hform, intStore, predicated_true hp]
  exact guarded_raises (updIllegal_of_not_baseOk hb)

variable (hb : BaseOk f.r3 none f.upd)
include hb

theorem exec_intStore_nat (hn : s.nat f.r3 = true ∨ s.nat f.r2 = true) :
    exec i s = raise s { off := 0x5600, code := 0x10, w := true } := by
  rw [exec_intStoreForm hform, intStore, predicated_true hp]
  exact (guarded_skips (updIllegal_ok hb)).trans (guarded_raises ((Bool.or_eq_true ..).mpr hn))

theorem exec_intStore_passes (h3 : s.nat f.r3 = false) (h2 : s.nat f.r2 = false) :
    exec i s = storeOp f.size f.size false .any (lowBytes f.size (s.val f.r2)) f.r3 f.upd id s := by
  rw [exec_intStoreForm hform, intStore, predicated_true hp]
  exact (guarded_skips (updIllegal_ok hb)).trans (guarded_skips (by rw [h3, h2]; rfl))

end

/-! Semaphores. -/

/-- The instructions that read and write one datum: predicate, target, base, the NaT bit of the datum they store, reference. -/
def IsSemaphore (i : Instr) (qp : BitVec 6) (r1 r3 : BitVec 7) (nat2 : Bool) (ref : Ref) (s : State) : Prop :=
  (∃ f, (cmpxchgForm i = some f ∨ xchgForm i = some f) ∧ qp = f.qp ∧ r1 = f.r1 ∧ r3 = f.r3 ∧ nat2 = s.nat f.r2 ∧
      ref = semRef s f.r3 f.size .writeBackOnly) ∨
    (∃ f, cmp8xchg16Form i = some f ∧ qp = f.qp ∧ r1 = f.r1 ∧ r3 = f.r3 ∧ nat2 = s.nat f.r2 ∧ ref = pairSemRef s f.r3) ∨
    (∃ n inc, fetchaddForm i = some (qp, n, r1, inc, r3) ∧ nat2 = false ∧ ref = semRef s r3 n .fetchadd)

namespace IsSemaphore
variable {i : Instr} {qp : BitVec 6} {r1 r3 : BitVec 7} {nat2 : Bool} {ref : Ref} {s : State}
  (h : IsSemaphore i qp r1 r3 nat2 ref s)
include h

/-- What the references of the semaphores have in common. -/
theorem ref_eq : ref.va = s.val r3 ∧ ref.r = true ∧ ref.w = true ∧ ref.na = false ∧ ref.sp = false ∧ ref.chk = true ∧
    ref.strict = true := by
  rcases h with ⟨f, -, -, -, rfl, -, rfl⟩ | ⟨f, -, -, -, rfl, -, rfl⟩ | ⟨n, inc, -, -, rfl⟩ <;>
    exact ⟨rfl, rfl, rfl, rfl, rfl, rfl, rfl⟩

/-- Every semaphore makes the same checks, and then its reference. -/
theorem exec_eq (hp : s.pred qp = true) : ∃ k, exec i s = guarded s (semChecks s r1 r3 nat2) (withRef s 0 ref k) := by
  rcases h with ⟨f, hform | hform, rfl, rfl, rfl, rfl, rfl⟩ | ⟨f, hform, rfl, rfl, rfl, rfl, rfl⟩ |
    ⟨n, inc, hform, rfl, rfl⟩
  · exact ⟨_, (exec_cmpxchgForm hform s).trans (predicated_true hp)⟩
  · exact ⟨_, (exec_xchgForm hform s).trans (predicated_true hp)⟩
  · exact ⟨_, (exec_cmp8xchg16Form hform s).trans (predicated_true hp)⟩
  · exact ⟨_, (exec_fetchaddForm hform s).2.trans (predicated_true hp)⟩

/-- A late fault of a semaphore names its address, a read and a write. -/
theorem faultOf_eq (off : Word) :
    faultOf ref off 0 none = { off := off, w := true, r := true, ifa := some (s.val r3) } := by
  obtain ⟨hva, hr, hw, hna, hsp, -⟩ := h.ref_eq
  simp [faultOf, hva, hr, hw, hna, hsp]

/-- A semaphore must be aligned. -/
theorem alignmentStops_iff : AlignmentStops s ref ↔ (s.val r3).toNat % ref.align ≠ 0 := by
  obtain ⟨hva, -, -, -, -, -, hstrict⟩ := h.ref_eq
  simp [AlignmentStops, hva, hstrict]

end IsSemaphore

/-- Settles O45: each instruction fails the first of its checks, or takes the first fault of its reference. -/
theorem dataFaults : Obligations.DataFaults := by
  unfold Obligations.DataFaults
  refine ⟨fun i f s hform hp => ⟨exec_intLoad_illegal hform hp, fun h1 hb hs hmiss => ?load⟩, fun i f s hform hp =>
    ⟨exec_intStore_illegal hform hp, fun hb => ⟨exec_intStore_nat hform hp hb, fun h3 h2 => ?store⟩⟩,
    fun s ref hdt hva hlookup hoff => ⟨_, .of_alternate hdt hva hlookup hoff, rfl, rfl, rfl, rfl, rfl, rfl⟩,
    fun i qp r1 r3 nat2 ref s hsem hp => ?semaphore⟩
  case load =>
    have hraise := @exec_intLoad_faultsWith i f s hform hp h1 hb hs hmiss
    refine ⟨exec_intLoad_nat hform hp h1 hb hs hmiss, fun hn c k e rest => exec_intLoad_fault hform hp h1 hb hs hmiss hn,
      fun hn pa attr hm hbreak halign => ?_, fun hn hset hic hiva e he hdata => ?_⟩
    · have hfault : faultOf (f.ref s) 0x5A00 0 none = { off := 0x5A00, r := true, ifa := some (s.val f.r3) } := by
        simp [faultOf, LoadForm.ref, hs]
      exact hfault ▸ hraise hn (.of_late hm rfl (lateFaults_unaligned hbreak halign))
    · rw [hraise hn he]
      exact raise_nested hset hic hiva hdata
  case store =>
    rw [exec_intStore_passes hform hp hb h3 h2]
    exact ⟨fun c k e rest hc hf => withRef_fault hc hf, fun pa attr hm hbreak halign =>
      (FaultsWith.of_late hm rfl (lateFaults_unaligned hbreak halign)).raises⟩
  case semaphore =>
    replace hsem : IsSemaphore i qp r1 r3 nat2 ref s := hsem
    obtain ⟨k, hexec⟩ := hsem.exec_eq hp
    obtain ⟨-, -, -, -, -, hchk, -⟩ := hsem.ref_eq
    rw [hexec]
    refine ⟨fun h1 => guarded_raises (decide_eq_true h1), fun h1 => ⟨fun hn =>
      (guarded_skips (decide_eq_false h1)).trans (guarded_raises ((Bool.or_eq_true ..).mpr hn)), fun h3 h2 => ?_⟩⟩
    rw [semChecks_pass h1 h3 h2, ← hsem.faultOf_eq, ← hsem.faultOf_eq, ← hsem.alignmentStops_iff]
    exact ⟨fun c k e rest hc hf => withRef_fault hc hf, fun pa attr hm hbreak =>
      ⟨fun halign => (FaultsWith.of_late hm hchk (lateFaults_unaligned hbreak halign)).raises, fun haligned hsup =>
        (FaultsWith.of_late hm hchk (lateFaults_unsupported hbreak
          (fun halign => hsem.alignmentStops_iff.mp halign haligned) hsup)).raises⟩⟩

end Machine
end Sys2Proof
end

section
/-!
The privilege level and PSR.vm (PrivilegedOnlyAtLevelZero, VirtualizedPrivileged; 60_exceptions.md R477, R520;
40_psr_instructions.md R347).
-/
namespace Sys2Proof
namespace Machine

/-! The kind of fault that the first failing check raises. -/

/-- The first of these checks that fails raises a fault of this kind. -/
def Raises (P : Exc → Prop) (l : List Check) : Prop := ∃ c, l.find? (fun c => c.1) = some c ∧ P c.2

namespace Raises
variable {P : Exc → Prop} {c : Check} {l : List Check}

theorem of_fails (hc : c.1 = true) (hP : P c.2) : Raises P (c :: l) := ⟨c, List.find?_cons_of_pos hc, hP⟩

theorem of_passes (hc : c.1 = false) (h : Raises P l) : Raises P (c :: l) := by
  obtain ⟨d, hd, hP⟩ := h
  exact ⟨d, by rw [List.find?_cons_of_neg (by simp [hc]), hd], hP⟩

/-- A check whose own fault is of the kind may fail or pass. -/
theorem of_either (hP : P c.2) (h : Raises P l) : Raises P (c :: l) := by
  cases hc : c.1 with
  | true => exact of_fails hc hP
  | false => exact of_passes hc h

theorem nonAccess (hna : ∀ e, P e → P e.nonAccess) (h : Raises P l) : Raises P (naChecks l) := by
  obtain ⟨c, hc, hP⟩ := h
  refine ⟨(c.1, c.2.nonAccess), ?_, hna _ hP⟩
  rw [naChecks, List.find?_map, show (fun c : Check => c.1) ∘ (fun c : Check => (c.1, c.2.nonAccess)) = fun c => c.1 from rfl, hc]
  rfl

theorem guarded (h : Raises P l) (s : State) (k : Out) : ∃ e, Machine.guarded s l k = raise s e ∧ P e := by
  obtain ⟨c, hc, hP⟩ := h
  refine ⟨c.2, ?_, hP⟩
  induction l with
  | nil => cases hc
  | cons d l ih =>
    cases hd : d.1 with
    | true =>
      rw [List.find?_cons_of_pos hd] at hc
      cases hc
      exact guarded_raises hd
    | false =>
      rw [List.find?_cons_of_neg (by simp [hd])] at hc
      exact (guarded_skips hd).trans (ih hc)

end Raises

/-! The instructions. -/

/-- The ordered checks of the privileged instructions, of vmsw and of the others that PSR.vm virtualizes. -/
def sysChecks (s : State) : Instr → List Check
  | .ssm _ imm => maskChecks s (imm.setWidth 64)
  | .rsm _ imm => maskChecks s (imm.setWidth 64)
  | .movFromPsr _ r1 => [chkTarget r1, chkPriv s, chkVirt s]
  | .movToPsrL _ r2 => [chkPriv s, chkNat s r2, chkReserved (decide (s.val r2 &&& lowerReserved ≠ 0)), chkVirt s]
  | .bsw0 => [chkPriv s, chkVirt s]
  | .bsw1 => [chkPriv s, chkVirt s]
  | .rfi => [chkPriv s, chkReserved (psrReservedSet (s.impliedCr 16)), chkVirt s]
  | .vmsw0 => vmswChecks s
  | .vmsw1 => vmswChecks s
  | .movToCr _ cr3 r2 => crWriteChecks s cr3.toNat r2
  | .movFromCr _ r1 cr3 => crReadChecks s r1 cr3.toNat
  | .movToRr _ r3 r2 => indirectWriteChecks s r3 r2 (rrReserved (s.val r2))
  | .movToPkr _ r3 r2 => indirectWriteChecks s r3 r2 (pkrReserved (s.val r3) (s.val r2))
  | .movToDbr _ r3 r2 => indirectWriteChecks s r3 r2 (beyond (index8 (s.val r3)) 8 Config.numDbr)
  | .movToIbr _ r3 r2 => indirectWriteChecks s r3 r2 (beyond (index8 (s.val r3)) 8 Config.numIbr)
  | .movToPmc _ r3 r2 => indirectWriteChecks s r3 r2 (beyond (index8 (s.val r3)) 8 Config.numPm)
  | .movToPmd _ r3 r2 => indirectWriteChecks s r3 r2 (beyond (index8 (s.val r3)) 8 Config.numPm)
  | .movFromRr _ r1 r3 => indirectReadChecks s r1 r3 false
  | .movFromPkr _ r1 r3 => indirectReadChecks s r1 r3 (beyond (index8 (s.val r3)) 16 Config.numPkr)
  | .movFromDbr _ r1 r3 => indirectReadChecks s r1 r3 (beyond (index8 (s.val r3)) 8 Config.numDbr)
  | .movFromIbr _ r1 r3 => indirectReadChecks s r1 r3 (beyond (index8 (s.val r3)) 8 Config.numIbr)
  | .movFromPmc _ r1 r3 => indirectReadChecks s r1 r3 (beyond (index8 (s.val r3)) 8 Config.numPm)
  | .movFromCpuid _ r1 r3 => [chkTarget r1, chkNat s r3, chkReserved (beyond (index8 (s.val r3)) 1 Config.numCpuid), chkVirt s]
  | .movFromAr _ r1 ar3 => arReadChecks s r1 ar3.toNat
  | .movToAr _ ar3 r2 => arWriteChecks s ar3.toNat (s.nat r2)
  | .movArImm _ ar3 _ => arWriteChecks s ar3.toNat false
  | .itcD _ r2 => insertChecks s (s.nat r2) false (s.val r2) (s.impliedCr 21) (s.impliedCr 20)
  | .itcI _ r2 => insertChecks s (s.nat r2) false (s.val r2) (s.impliedCr 21) (s.impliedCr 20)
  | .itrD _ r3 r2 => insertChecks s (s.nat r3 || s.nat r2) (beyond (index8 (s.val r3)) 8 (numTr .data)) (s.val r2)
      (s.impliedCr 21) (s.impliedCr 20)
  | .itrI _ r3 r2 => insertChecks s (s.nat r3 || s.nat r2) (beyond (index8 (s.val r3)) 8 (numTr .instr)) (s.val r2)
      (s.impliedCr 21) (s.impliedCr 20)
  | .ptcL _ r3 r2 => purgeChecks s r3 r2
  | .ptcG _ r3 r2 => purgeChecks s r3 r2
  | .ptcGa _ r3 r2 => purgeChecks s r3 r2
  | .ptrD _ r3 r2 => purgeChecks s r3 r2
  | .ptrI _ r3 r2 => purgeChecks s r3 r2
  | .ptcE _ r3 => naChecks [chkPriv s, chkNat s r3, chkVirt s]
  | .tpa _ r1 r3 => naChecks [chkTarget r1, chkPriv s, chkNat s r3,
      ((s.dataView 0).dt && unimplVa s.vm (s.val r3), excUnimplData (s.val r3) false false true false), chkVirt s]
  | .tak _ r1 r3 => naChecks [chkTarget r1, chkPriv s, chkNat s r3, chkVirt s]
  | .thash _ r1 _ => naChecks [chkTarget r1, chkVirt s]
  | .ttag _ r1 _ => naChecks [chkTarget r1, chkVirt s]
  | .cover => [(s.vm && decide (s.cpl = 0), excVirtualization)]
  | _ => []

/-- An instruction with a true predicate begins with these checks. -/
theorem exec_sysChecks (i : Instr) {s : State} (hp : s.pred (qpOf i) = true) : ∃ k, exec i s = guarded s (sysChecks s i) k := by
  cases i <;> first
    | exact ⟨_, predicated_true hp⟩
    | exact ⟨_, rfl⟩

/-! At another level than 0. -/

/-- Privileged Operation, or an Illegal Operation of the operands. -/
def OperandFault (e : Exc) : Prop := e.off = 0x5400 ∧ (e.code = 0x10 ∨ e.code = 0x00)

/-- At another level than 0 a privileged instruction fails the check of the level, or one of its operands before it. -/
theorem sysChecks_level {i : Instr} {s : State} (hi : privileged i = true ∨ i = .vmsw0 ∨ i = .vmsw1) (hcpl : s.cpl ≠ 0) :
    Raises OperandFault (sysChecks s i) := by
  have hlevel (l : List Check) : Raises OperandFault (chkPriv s :: l) := .of_fails (chkPriv_of_level hcpl) ⟨rfl, .inl rfl⟩
  have hoperand {c : Bool} {l : List Check} (h : Raises OperandFault l) : Raises OperandFault (chkIllegal c :: l) :=
    .of_either ⟨rfl, .inr rfl⟩ h
  have hna {l : List Check} (h : Raises OperandFault l) : Raises OperandFault (naChecks l) := h.nonAccess fun _ he => he
  rcases hi with hi | rfl | rfl
  · cases i
    case ssm | rsm | movToPsrL | bsw0 | bsw1 | rfi => exact hlevel _
    case movToRr | movToPkr | movToDbr | movToIbr | movToPmc | movToPmd => exact hlevel _
    case movFromPsr | movFromRr | movFromPkr | movFromDbr | movFromIbr | movFromPmc => exact hoperand (hlevel _)
    case movToCr => exact hoperand (hlevel _)
    case movFromCr => exact hoperand (hoperand (hlevel _))
    case itcD | itcI | itrD | itrI => exact hna (hoperand (hlevel _))
    case ptcL | ptcG | ptcGa | ptrD | ptrI | ptcE => exact hna (hlevel _)
    case tpa | tak => exact hna (hoperand (hlevel _))
    all_goals exact absurd hi Bool.false_ne_true
  · exact hoperand (hlevel _)
  · exact hoperand (hlevel _)

/-- Settles O13: the level is checked before all but the operands. -/
theorem privilegedOnlyAtLevelZero : Obligations.PrivilegedOnlyAtLevelZero := by
  unfold Obligations.PrivilegedOnlyAtLevelZero
  intro i s hi hp hcpl
  obtain ⟨k, hexec⟩ := exec_sysChecks i hp
  obtain ⟨e, hraise, hfault⟩ := (sysChecks_level hi hcpl).guarded s k
  exact ⟨e, hexec.trans hraise, hfault⟩

/-! With PSR.vm = 1. -/

/-- The vectors of Virtualization, General Exception and NaT Consumption. -/
def VirtualizedFault (e : Exc) : Prop := e.off = 0x6100 ∨ e.off = 0x5400 ∨ e.off = 0x5600

/-- With PSR.vm = 1 a privileged instruction fails the check of PSR.vm, or one before it. -/
theorem sysChecks_virtualized {i : Instr} {s : State} (hi : privileged i = true) (hvm : s.vm = true) :
    Raises VirtualizedFault (sysChecks s i) := by
  have hvirt : Raises VirtualizedFault [chkVirt s] := .of_fails hvm (.inl rfl)
  have hgeneral {c : Check} {l : List Check} (hc : c.2.off = 0x5400) (h : Raises VirtualizedFault l) :
      Raises VirtualizedFault (c :: l) := .of_either (.inr (.inl hc)) h
  have hnat {c : Check} {l : List Check} (hc : c.2.off = 0x5600) (h : Raises VirtualizedFault l) :
      Raises VirtualizedFault (c :: l) := .of_either (.inr (.inr hc)) h
  have hna {l : List Check} (h : Raises VirtualizedFault l) : Raises VirtualizedFault (naChecks l) := h.nonAccess fun _ he => he
  cases i
  case bsw0 | bsw1 => exact hgeneral rfl hvirt
  case ssm | rsm | rfi | movFromPsr => exact hgeneral rfl (hgeneral rfl hvirt)
  case movFromCr => exact hgeneral rfl (hgeneral rfl (hgeneral rfl hvirt))
  case movToPsrL => exact hgeneral rfl (hnat rfl (hgeneral rfl hvirt))
  case movToRr | movToPkr | movToDbr | movToIbr | movToPmc | movToPmd => exact hgeneral rfl (hnat rfl (hgeneral rfl hvirt))
  case movFromRr | movFromPkr | movFromDbr | movFromIbr | movFromPmc =>
    exact hgeneral rfl (hgeneral rfl (hnat rfl (hgeneral rfl hvirt)))
  case movToCr => exact hgeneral rfl (hgeneral rfl (hnat rfl (hgeneral rfl (hgeneral rfl hvirt))))
  case itcD | itcI | itrD | itrI =>
    exact hna (hgeneral rfl (hgeneral rfl (hnat rfl (hgeneral rfl (hgeneral rfl (hgeneral rfl hvirt))))))
  case ptcL | ptcG | ptcGa | ptrD | ptrI => exact hna (hgeneral rfl (hnat rfl (hgeneral rfl (hgeneral rfl hvirt))))
  case ptcE => exact hna (hgeneral rfl (hnat rfl hvirt))
  case tpa => exact hna (hgeneral rfl (hgeneral rfl (hnat rfl (hgeneral rfl hvirt))))
  case tak => exact hna (hgeneral rfl (hgeneral rfl (hnat rfl hvirt)))
  all_goals exact absurd hi Bool.false_ne_true

/-- Virtualization, of an instruction that accesses its operand or of one that does not. -/
def IsVirtualization (e : Exc) : Prop := e = excVirtualization ∨ e = excVirtualization.nonAccess

theorem IsVirtualization.nonAccess (e : Exc) (h : IsVirtualization e) : IsVirtualization e.nonAccess := by
  rcases h with rfl | rfl <;> exact .inr rfl

/-! The checks of one shape, where the operands and the level pass. -/

section
variable {s : State} (hvm : s.vm = true)
include hvm

theorem chkVirt_raises (l : List Check) : Raises IsVirtualization (chkVirt s :: l) := .of_fails hvm (.inl rfl)

variable (hcpl : s.cpl = 0)
include hcpl

theorem maskChecks_ready {imm : Word} (h : imm &&& systemReserved = 0) : Raises IsVirtualization (maskChecks s imm) :=
  .of_passes (chkPriv_of_level0 hcpl) (.of_passes (decide_eq_false (not_not_intro h)) (chkVirt_raises hvm _))

theorem indirectWriteChecks_ready {r3 r2 : BitVec 7} {bad : Bool} (h3 : s.nat r3 = false) (h2 : s.nat r2 = false)
    (hbad : bad = false) : Raises IsVirtualization (indirectWriteChecks s r3 r2 bad) :=
  .of_passes (chkPriv_of_level0 hcpl) (.of_passes (by rw [h3, h2]; rfl) (.of_passes hbad (chkVirt_raises hvm _)))

theorem indirectReadChecks_ready {r1 r3 : BitVec 7} {bad : Bool} (h1 : r1 ≠ 0) (h3 : s.nat r3 = false)
    (hbad : bad = false) : Raises IsVirtualization (indirectReadChecks s r1 r3 bad) :=
  .of_passes (decide_eq_false h1) (.of_passes (chkPriv_of_level0 hcpl) (.of_passes h3 (.of_passes hbad (chkVirt_raises hvm _))))

theorem crWriteChecks_ready {n : Nat} {r2 : BitVec 7} (hdef : crDefined n = true) (hro : crReadOnly n = false)
    (hbar : 16 ≤ n → n ≤ 25 → s.dpsr Psr.ic = false) (h2 : s.nat r2 = false) (hres : crReserved n (s.val r2) = false)
    (hifa : n = 20 → unimplVa s.vm (s.val r2) = false) : Raises IsVirtualization (crWriteChecks s n r2) :=
  .of_passes (by rw [hdef, hro, crBarred_eq_false_iff.mpr hbar]; rfl) (.of_passes (chkPriv_of_level0 hcpl) (.of_passes h2
    (.of_passes hres (.of_passes (ifaUnimplAtMov_eq_false fun hn _ => hifa hn) (chkVirt_raises hvm _)))))

theorem crReadChecks_ready {r1 : BitVec 7} {n : Nat} (h1 : r1 ≠ 0) (hdef : crDefined n = true)
    (hbar : 16 ≤ n → n ≤ 25 → s.dpsr Psr.ic = false) : Raises IsVirtualization (crReadChecks s r1 n) :=
  .of_passes (decide_eq_false h1) (.of_passes (by rw [hdef, crBarred_eq_false_iff.mpr hbar]; rfl)
    (.of_passes (chkPriv_of_level0 hcpl) (chkVirt_raises hvm _)))

theorem arWriteChecks_ready {nat : Bool} (hn : nat = false) : Raises IsVirtualization (arWriteChecks s 44 nat) :=
  .of_passes rfl (.of_passes hn (.of_passes (by rw [hcpl]; rfl) (.of_fails (by rw [hvm]; rfl) (.inl rfl))))

theorem insertChecks_ready {nat bad : Bool} {pte itir ifa : Word} (hic : s.dpsr Psr.ic = false) (hn : nat = false)
    (hbad : bad = false) (hres : insertReserved pte itir = false) (hppn : ppnUnimpl pte = false)
    (hifa : unimplVa s.vm ifa = false) : Raises IsVirtualization (insertChecks s nat bad pte itir ifa) :=
  .nonAccess IsVirtualization.nonAccess <| .of_passes hic <| .of_passes (chkPriv_of_level0 hcpl) <| .of_passes hn <|
    .of_passes hbad <| .of_passes hres <| .of_passes (by rw [hppn, hifa, Bool.and_false]; rfl) (chkVirt_raises hvm _)

theorem purgeChecks_ready {r3 r2 : BitVec 7} (h3 : s.nat r3 = false) (h2 : s.nat r2 = false)
    (hps : purgeable ((s.val r2).extractLsb' 2 6).toNat = true) (hva : unimplVa s.vm (s.val r3) = false) :
    Raises IsVirtualization (purgeChecks s r3 r2) :=
  .nonAccess IsVirtualization.nonAccess <| .of_passes (chkPriv_of_level0 hcpl) <| .of_passes (by rw [h3, h2]; rfl) <|
    .of_passes (by rw [field, hps]; rfl) <| .of_passes hva (chkVirt_raises hvm _)

/-- At level 0 with PSR.vm = 1 an instruction whose operands let it run fails the check of PSR.vm only. -/
theorem sysChecks_ready {i : Instr} (h : virtualReady s i) : Raises IsVirtualization (sysChecks s i) := by
  have hvirt := chkVirt_raises hvm
  have hlevel {l : List Check} (hl : Raises IsVirtualization l) : Raises IsVirtualization (chkPriv s :: l) :=
    .of_passes (chkPriv_of_level0 hcpl) hl
  have htarget {r1 : BitVec 7} {l : List Check} (h1 : r1 ≠ 0) (hl : Raises IsVirtualization l) :
      Raises IsVirtualization (chkTarget r1 :: l) := .of_passes (decide_eq_false h1) hl
  have hna {l : List Check} (hl : Raises IsVirtualization l) : Raises IsVirtualization (naChecks l) :=
    hl.nonAccess IsVirtualization.nonAccess
  have hva {va : Word} (hu : unimplVa true va = false) : unimplVa s.vm va = false := by rwa [hvm]
  cases i
  case ssm | rsm => exact maskChecks_ready hvm hcpl h
  case bsw0 | bsw1 => exact hlevel (hvirt _)
  case rfi => exact hlevel (.of_passes h (hvirt _))
  case movFromPsr => exact htarget h (hlevel (hvirt _))
  case movToPsrL =>
    obtain ⟨h2, hres⟩ := h
    exact hlevel (.of_passes h2 (.of_passes (decide_eq_false (not_not_intro hres)) (hvirt _)))
  case movToCr qp cr3 r2 =>
    obtain ⟨hdef, hro, hbar, h2, hres, hifa⟩ := h
    exact crWriteChecks_ready hvm hcpl hdef hro hbar h2 hres fun hn => hva (hifa (BitVec.eq_of_toNat_eq hn))
  case movFromCr =>
    obtain ⟨h1, hdef, hbar⟩ := h
    exact crReadChecks_ready hvm hcpl h1 hdef hbar
  case movToRr | movToPkr =>
    obtain ⟨h3, h2, hres⟩ := h
    exact indirectWriteChecks_ready hvm hcpl h3 h2 hres
  case movToDbr | movToIbr | movToPmc | movToPmd =>
    obtain ⟨h3, h2, hlt⟩ := h
    exact indirectWriteChecks_ready hvm hcpl h3 h2 (beyond_of_lt hlt)
  case movFromRr =>
    obtain ⟨h1, h3⟩ := h
    exact indirectReadChecks_ready hvm hcpl h1 h3 rfl
  case movFromPkr | movFromDbr | movFromIbr | movFromPmc =>
    obtain ⟨h1, h3, hlt⟩ := h
    exact indirectReadChecks_ready hvm hcpl h1 h3 (beyond_of_lt hlt)
  case movFromCpuid =>
    obtain ⟨h1, h3, hlt⟩ := h
    exact htarget h1 (.of_passes h3 (.of_passes (beyond_of_lt hlt) (hvirt _)))
  case movFromAr =>
    obtain ⟨h1, rfl, hsi⟩ := h
    exact htarget h1 (.of_passes rfl (.of_fails (by rw [hvm, hsi]; rfl) (.inl rfl)))
  case movToAr =>
    obtain ⟨rfl, h2⟩ := h
    exact arWriteChecks_ready hvm hcpl h2
  case movArImm =>
    obtain rfl := h
    exact arWriteChecks_ready hvm hcpl rfl
  case itcD | itcI =>
    obtain ⟨hic, h2, hres, hppn, hifa⟩ := h
    exact insertChecks_ready hvm hcpl hic h2 rfl hres hppn (hva hifa)
  case itrD | itrI =>
    obtain ⟨hic, h3, h2, hlt, hres, hppn, hifa⟩ := h
    exact insertChecks_ready hvm hcpl hic (by rw [h3, h2]; rfl) (beyond_of_lt hlt) hres hppn (hva hifa)
  case ptcL | ptcG | ptcGa | ptrD | ptrI =>
    obtain ⟨h3, h2, hps, hu⟩ := h
    exact purgeChecks_ready hvm hcpl h3 h2 hps (hva hu)
  case ptcE => exact hna (hlevel (.of_passes h (hvirt _)))
  case tpa =>
    obtain ⟨h1, h3, hu⟩ := h
    exact hna (htarget h1 (hlevel (.of_passes h3 (.of_passes (by rw [hva hu, Bool.and_false]) (hvirt _)))))
  case tak =>
    obtain ⟨h1, h3⟩ := h
    exact hna (htarget h1 (hlevel (.of_passes h3 (hvirt _))))
  case thash | ttag => exact hna (htarget h (hvirt _))
  case cover => exact .of_fails (by rw [hvm, hcpl]; rfl) (.inl rfl)
  all_goals exact h.elim

end

/-- Settles O14: the check of PSR.vm is the first to fail where the others pass, and the last that a privileged instruction could
fail before its effect. -/
theorem virtualizedPrivileged : Obligations.VirtualizedPrivileged := by
  unfold Obligations.VirtualizedPrivileged
  intro i s hp hpsr hhas
  have hvm : s.vm = true := (Bool.and_eq_true ..).mpr ⟨hpsr, hhas⟩
  obtain ⟨k, hexec⟩ := exec_sysChecks i hp
  rw [hexec]
  refine ⟨fun hcpl hready => ?virtualization, fun hi => (sysChecks_virtualized hi hvm).guarded s k⟩
  obtain ⟨e, hraise, rfl | rfl⟩ := (sysChecks_ready hvm hcpl hready).guarded s k
  · exact .inl hraise
  · exact .inr hraise

end Machine
end Sys2Proof
end
